-- ==== Sys2Proof/Word.lean ====
section
/-! DEFINITION. The machine's word types (R6, R7, R10): bytes, 32-bit lane words, 64-bit scalar words, 128-byte lines. -/

namespace Sys2Proof

/-- The smallest addressable unit. -/
abbrev Byte := BitVec 8

/-- A lane's register word. -/
abbrev Word32 := BitVec 32

/-- An s register, an address. -/
abbrev Word64 := BitVec 64

/-- The bytes of one 128-byte line, byte 0 first (R7: a line is 128 bytes everywhere). -/
abbrev LineData := List Byte

/-- `Wrap(x, w)` of R90: x mod 2^w as a w-bit pattern. -/
abbrev wrapInt (w : Nat) (x : Int) : BitVec w := BitVec.ofInt w x

end Sys2Proof
end

