-- ==== Sys2Proof/Syntax.lean ====
section
/-! DEFINITION. The instructions and events of the AF8800: `Instr` has one constructor for each row of
spec/opcode_table.json (R91 for the 186 slot instructions, spec/95 for the 104 events of the module), and the plain
data that an event carries. A slot instruction holds the operands as R73, R72 and R74 form them (extension bits and
high immediate bits already joined); an event names the parts it acts on by number. -/

namespace Sys2Proof

/-- A v register index, XD:d, XA:a or XB:b (R73). -/
abbrev VReg := BitVec 7

/-- An s register index, 0 to 63 (R73). -/
abbrev SReg := BitVec 6

/-- A predicate index, p0 to p7 (R74, R82). -/
abbrev PReg := BitVec 3

/-- A host act through a mapped unit of BAR4 (R338, R367). -/
inductive HostAcc where
  /-- read `n` bytes -/
  | read (n : Nat)
  /-- a posted write of these bytes -/
  | write (bytes : List Byte)
  /-- PCIe AtomicOps on 4 or 8 bytes (`sz` true: 8) -/
  | fetchAdd (sz : Bool) (x : Word64)
  | swap (sz : Bool) (x : Word64)
  | cas (sz : Bool) (x y : Word64)
  deriving DecidableEq, Repr

/-- The environmental alarms (R339, R359). -/
inductive AlarmKind where
  | temperature | supply | clock | tamper
  deriving DecidableEq, Repr

/-- A die's capability table as the serai reads it (R327), and whether its signature holds (R328). -/
structure CapTable where
  /-- its 256 bytes, as the die presents them -/
  bytes : List Byte
  /-- the signature of SIGLEN bytes at SIGPTR of the die's VC3 read space verifies over MEAS -/
  sigOk : Bool
  deriving DecidableEq, Repr

/-- A management record of queue 0, less its CODE (R343): TARGET, bytes 8 to 55, the completion address, and the
record's sequence number on queue 0. -/
structure MgmtRec where
  target : Nat
  args : List Byte
  done : Word64
  sq : Nat
  deriving DecidableEq, Repr

/-- One instruction of a slot, or one event of the module. A management command's event acts on the record in progress, and
a replay record's on a replaying band whose next record it is. The constructors that carry nothing stand last. -/
inductive Instr where
  /-- IADD (R125). Per-lane 32-bit wrapping add. -/
  | iadd (g : PReg) (d a b : VReg)
  /-- ISUB (R125). Per-lane 32-bit wrapping subtract. -/
  | isub (g : PReg) (d a b : VReg)
  /-- IMUL (R125). Per-lane low 32 bits of the product. -/
  | imul (g : PReg) (d a b : VReg)
  /-- IMULH_I (R125). Per-lane high half of the signed 64-bit product. -/
  | imulhI (g : PReg) (d a b : VReg)
  /-- IMULH_N (R125). Per-lane high half of the unsigned 64-bit product. -/
  | imulhN (g : PReg) (d a b : VReg)
  /-- IMIN_I (R125). Per-lane signed minimum. -/
  | iminI (g : PReg) (d a b : VReg)
  /-- IMAX_I (R125). Per-lane signed maximum. -/
  | imaxI (g : PReg) (d a b : VReg)
  /-- IMIN_N (R125). Per-lane unsigned minimum. -/
  | iminN (g : PReg) (d a b : VReg)
  /-- IMAX_N (R125). Per-lane unsigned maximum. -/
  | imaxN (g : PReg) (d a b : VReg)
  /-- IAND (R125). Per-lane bitwise AND. -/
  | iand (g : PReg) (d a b : VReg)
  /-- IOR (R125). Per-lane bitwise OR. -/
  | ior (g : PReg) (d a b : VReg)
  /-- IXOR (R125). Per-lane bitwise XOR. -/
  | ixor (g : PReg) (d a b : VReg)
  /-- ISHL (R125). Per-lane shift left by B[5:0]. -/
  | ishl (g : PReg) (d a b : VReg)
  /-- ISHR (R125). Per-lane logical shift right by B[5:0]. -/
  | ishr (g : PReg) (d a b : VReg)
  /-- ISRA (R125). Per-lane arithmetic shift right by B[5:0]. -/
  | isra (g : PReg) (d a b : VReg)
  /-- IROT (R125). Per-lane rotate left by B[4:0]. -/
  | irot (g : PReg) (d a b : VReg)
  /-- IABS (R126). Per-lane wrapping absolute value. -/
  | iabs (g : PReg) (d a : VReg)
  /-- INEG (R126). Per-lane wrapping negation. -/
  | ineg (g : PReg) (d a : VReg)
  /-- POPC (R126). Per-lane count of set bits. -/
  | popc (g : PReg) (d a : VReg)
  /-- CLZ (R126). Per-lane count of leading zeros. -/
  | clz (g : PReg) (d a : VReg)
  /-- CTZ (R126). Per-lane count of trailing zeros. -/
  | ctz (g : PReg) (d a : VReg)
  /-- BREV (R126). Per-lane bit reversal. -/
  | brev (g : PReg) (d a : VReg)
  /-- BFE (R127). Per-lane bit-field extract with position and length taken from B. -/
  | bfe (g : PReg) (d a b : VReg)
  /-- BFI (R127). Per-lane bit-field insert into D with position and length taken from B. -/
  | bfi (g : PReg) (d a b : VReg)
  /-- IADDS_I (R126). Per-lane signed saturating add. -/
  | iaddsI (g : PReg) (d a b : VReg)
  /-- ISUBS_I (R126). Per-lane signed saturating subtract. -/
  | isubsI (g : PReg) (d a b : VReg)
  /-- IADDS_N (R126). Per-lane unsigned saturating add. -/
  | iaddsN (g : PReg) (d a b : VReg)
  /-- ISUBS_N (R126). Per-lane unsigned saturating subtract. -/
  | isubsN (g : PReg) (d a b : VReg)
  /-- IMAD (R126). Per-lane wrapping multiply-add into D. -/
  | imad (g : PReg) (d a b : VReg)
  /-- MOV (R126). Per-lane register copy. -/
  | mov (g : PReg) (d a : VReg)
  /-- IADDI (R128). Per-lane add of a signed immediate. -/
  | iaddi (g : PReg) (d a : VReg) (imm : BitVec 13)
  /-- IANDI (R128). Per-lane AND with an immediate. -/
  | iandi (g : PReg) (d a : VReg) (imm : BitVec 13)
  /-- IORI (R128). Per-lane OR with an immediate. -/
  | iori (g : PReg) (d a : VReg) (imm : BitVec 13)
  /-- IXORI (R128). Per-lane XOR with an immediate. -/
  | ixori (g : PReg) (d a : VReg) (imm : BitVec 13)
  /-- ISHLI (R128). Per-lane shift left by an immediate. -/
  | ishli (g : PReg) (d a : VReg) (imm : BitVec 13)
  /-- ISHRI (R128). Per-lane logical shift right by an immediate. -/
  | ishri (g : PReg) (d a : VReg) (imm : BitVec 13)
  /-- ISRAI (R128). Per-lane arithmetic shift right by an immediate. -/
  | israi (g : PReg) (d a : VReg) (imm : BitVec 13)
  /-- IMULI (R128). Per-lane multiply by a signed immediate. -/
  | imuli (g : PReg) (d a : VReg) (imm : BitVec 13)
  /-- MOVK (R129). Per-lane load of a sign-extended constant. -/
  | movk (g : PReg) (d : VReg) (imm : BitVec 20)
  /-- MOVH (R129). Per-lane shift of D left by 20 bits, then insert of the immediate. -/
  | movh (g : PReg) (d : VReg) (imm : BitVec 20)
  /-- MOVK_S (R129). Load of a sign-extended constant into an s register. -/
  | movkS (d : SReg) (imm : BitVec 20)
  /-- MOVH_S (R129). Shift of an s register left by 20 bits, then insert of the immediate. -/
  | movhS (d : SReg) (imm : BitVec 20)
  /-- CEQ (R130). Per-lane integer equality compare into a predicate. -/
  | ceq (g p : PReg) (a b : VReg)
  /-- CNE (R130). Per-lane integer inequality compare into a predicate. -/
  | cne (g p : PReg) (a b : VReg)
  /-- CLT_I (R130). Per-lane signed less-than compare. -/
  | cltI (g p : PReg) (a b : VReg)
  /-- CLE_I (R130). Per-lane signed less-or-equal compare. -/
  | cleI (g p : PReg) (a b : VReg)
  /-- CLT_N (R130). Per-lane unsigned less-than compare. -/
  | cltN (g p : PReg) (a b : VReg)
  /-- CLE_N (R130). Per-lane unsigned less-or-equal compare. -/
  | cleN (g p : PReg) (a b : VReg)
  /-- FCEQ (R130). Per-lane FP32 equality compare. -/
  | fceq (g p : PReg) (a b : VReg)
  /-- FCNE (R130). Per-lane FP32 not-equal compare. -/
  | fcne (g p : PReg) (a b : VReg)
  /-- FCLT (R130). Per-lane FP32 less-than compare. -/
  | fclt (g p : PReg) (a b : VReg)
  /-- FCLE (R130). Per-lane FP32 less-or-equal compare. -/
  | fcle (g p : PReg) (a b : VReg)
  /-- FCUN (R130). Per-lane FP32 unordered test. -/
  | fcun (g p : PReg) (a b : VReg)
  /-- PAND (R131). Per-lane predicate AND. -/
  | pand (g d a b : PReg)
  /-- POR (R131). Per-lane predicate OR. -/
  | por (g d a b : PReg)
  /-- PXOR (R131). Per-lane predicate XOR. -/
  | pxor (g d a b : PReg)
  /-- PNOT (R131). Per-lane predicate NOT. -/
  | pnot (g d a : PReg)
  /-- PMOV (R131). Per-lane predicate copy. -/
  | pmov (g d a : PReg)
  /-- FADD (R132). Per-lane FP32 add. -/
  | fadd (g : PReg) (d a b : VReg)
  /-- FSUB (R132). Per-lane FP32 subtract. -/
  | fsub (g : PReg) (d a b : VReg)
  /-- FMUL (R132). Per-lane FP32 multiply. -/
  | fmul (g : PReg) (d a b : VReg)
  /-- FFMA (R132). Per-lane FP32 fused multiply-add into D. -/
  | ffma (g : PReg) (d a b : VReg)
  /-- FMIN (R133). Per-lane IEEE minimumNumber. -/
  | fmin (g : PReg) (d a b : VReg)
  /-- FMAX (R133). Per-lane IEEE maximumNumber. -/
  | fmax (g : PReg) (d a b : VReg)
  /-- FABS (R132). Per-lane clear of the sign bit. -/
  | fabs (g : PReg) (d a : VReg)
  /-- FNEG (R132). Per-lane inversion of the sign bit. -/
  | fneg (g : PReg) (d a : VReg)
  /-- FDIV (R135). Per-lane long-latency FP32 divide. -/
  | fdiv (g : PReg) (d a b : VReg) (la : BitVec 4)
  /-- FSQRT (R132). Per-lane long-latency FP32 square root. -/
  | fsqrt (g : PReg) (d a : VReg) (la : BitVec 4)
  /-- FFLOOR (R134). Per-lane round to integral towards minus infinity. -/
  | ffloor (g : PReg) (d a : VReg)
  /-- FCEIL (R134). Per-lane round to integral towards plus infinity. -/
  | fceil (g : PReg) (d a : VReg)
  /-- FTRUNC (R134). Per-lane round to integral towards zero. -/
  | ftrunc (g : PReg) (d a : VReg)
  /-- FROUND (R134). Per-lane round to integral, ties to even. -/
  | fround (g : PReg) (d a : VReg)
  /-- FCOPYSIGN (R132). Per-lane copy of the sign of B onto A. -/
  | fcopysign (g : PReg) (d a b : VReg)
  /-- HADD2 (R136). Packed BF16 or FP16 pair add. -/
  | hadd2 (g : PReg) (d a b : VReg) (hf : Bool)
  /-- HSUB2 (R136). Packed pair subtract. -/
  | hsub2 (g : PReg) (d a b : VReg) (hf : Bool)
  /-- HMUL2 (R136). Packed pair multiply. -/
  | hmul2 (g : PReg) (d a b : VReg) (hf : Bool)
  /-- HFMA2 (R136). Packed pair fused multiply-add into D. -/
  | hfma2 (g : PReg) (d a b : VReg) (hf : Bool)
  /-- HMIN2 (R136). Packed pair minimumNumber. -/
  | hmin2 (g : PReg) (d a b : VReg) (hf : Bool)
  /-- HMAX2 (R136). Packed pair maximumNumber. -/
  | hmax2 (g : PReg) (d a b : VReg) (hf : Bool)
  /-- HCVT2 (R137). Conversion of two FP32 values into one packed 16-bit pair. -/
  | hcvt2 (g : PReg) (d a b : VReg) (hf : Bool)
  /-- CVT (R138). Per-lane conversion chosen by the selector, including NB narrowing without feedback. -/
  | cvt (g : PReg) (d a : VReg) (sel : BitVec 6)
  /-- CVT_SAT (R139). Per-lane saturating conversion. -/
  | cvtSat (g : PReg) (d a : VReg) (sel : BitVec 6)
  /-- CVT_EF (R141). NB8 or NB4 narrowing with error feedback. -/
  | cvtEf (g : PReg) (d a : VReg) (sel : BitVec 6)
  /-- CVT_PACK (R140). Per-lane pack of a narrow element into D, or unpack of an element. -/
  | cvtPack (g : PReg) (d a : VReg) (sel : BitVec 6)
  /-- DP4_I8 (R143). Signed INT8 4-way dot product accumulated into D. -/
  | dp4I8 (g : PReg) (d a b : VReg)
  /-- DP4_N8 (R143). Unsigned 8-bit 4-way dot product accumulated into D. -/
  | dp4N8 (g : PReg) (d a b : VReg)
  /-- DP8_I4 (R143). Signed INT4 8-way dot product accumulated into D. -/
  | dp8I4 (g : PReg) (d a b : VReg)
  /-- DP4_E4M3 (R143). E4M3 4-way dot product added to FP32 D, rounded once. -/
  | dp4E4m3 (g : PReg) (d a b : VReg)
  /-- DP4_E5M2 (R143). E5M2 4-way dot product added to FP32 D, rounded once. -/
  | dp4E5m2 (g : PReg) (d a b : VReg)
  /-- DP8_E2M1 (R143). E2M1 8-way dot product added to FP32 D, rounded once. -/
  | dp8E2m1 (g : PReg) (d a b : VReg)
  /-- FSCL (R144). Per-lane scaling of FP32 A by 2 to the power of signed B. -/
  | fscl (g : PReg) (d a b : VReg)
  /-- SHFL (R146). Per-lane read of the lane that B names. -/
  | shfl (g : PReg) (d a b : VReg)
  /-- SHUP (R146). Shuffle up by k lanes. -/
  | shup (g : PReg) (d a : VReg) (k : BitVec 5)
  /-- SHDN (R146). Shuffle down by k lanes. -/
  | shdn (g : PReg) (d a : VReg) (k : BitVec 5)
  /-- SHX (R146). Shuffle by XOR of the lane number with k. -/
  | shx (g : PReg) (d a : VReg) (k : BitVec 5)
  /-- BCAST (R146). Broadcast of lane k. -/
  | bcast (g : PReg) (d a : VReg) (k : BitVec 5)
  /-- BALLOT (R147). Mask of the active lanes where a predicate holds. -/
  | ballot (g : PReg) (d : VReg) (p : PReg)
  /-- VANY (R147). Predicate set when any active lane holds pa. -/
  | vany (g q p : PReg)
  /-- VALL (R147). Predicate set when every active lane holds pa. -/
  | vall (g q p : PReg)
  /-- MPFX (R147). Exclusive prefix count of set lanes. -/
  | mpfx (g : PReg) (d : VReg) (p : PReg)
  /-- REDADD_I (R148). Long-latency wrapping integer sum over the active lanes. -/
  | redaddI (g : PReg) (d a : VReg) (la : BitVec 4)
  /-- REDMAX_I (R148). Long-latency signed maximum over the active lanes. -/
  | redmaxI (g : PReg) (d a : VReg) (la : BitVec 4)
  /-- REDADD_F (R149). Long-latency fixed-tree FP32 sum over the active lanes. -/
  | redaddF (g : PReg) (d a : VReg) (la : BitVec 4)
  /-- REDMAX_F (R149). Long-latency fixed-tree FP32 maximum over the active lanes. -/
  | redmaxF (g : PReg) (d a : VReg) (la : BitVec 4)
  /-- SADD (R240). 64-bit scalar add. -/
  | sadd (d a b : SReg)
  /-- SSUB (R240). 64-bit scalar subtract. -/
  | ssub (d a b : SReg)
  /-- SMUL (R240). 64-bit scalar multiply. -/
  | smul (d a b : SReg)
  /-- SAND (R240). Scalar bitwise AND. -/
  | sand (d a b : SReg)
  /-- SOR (R240). Scalar bitwise OR. -/
  | sor (d a b : SReg)
  /-- SXOR (R240). Scalar bitwise XOR. -/
  | sxor (d a b : SReg)
  /-- SSHL (R240). Scalar shift left. -/
  | sshl (d a b : SReg)
  /-- SSHR (R240). Scalar logical shift right. -/
  | sshr (d a b : SReg)
  /-- SSRA (R240). Scalar arithmetic shift right. -/
  | ssra (d a b : SReg)
  /-- SMIN (R240). Scalar signed minimum. -/
  | smin (d a b : SReg)
  /-- SMAX (R240). Scalar signed maximum. -/
  | smax (d a b : SReg)
  /-- RDL (R241). Read of one lane of a v register into an s register. -/
  | rdl (d : SReg) (a : VReg) (b : SReg)
  /-- WRL (R241). Write of an s register into one lane of a v register. -/
  | wrl (d : VReg) (a b : SReg)
  /-- BCS (R241). Per-lane broadcast of an s register into a v register. -/
  | bcs (g : PReg) (d : VReg) (a : SReg)
  /-- SPOPC (R240). Scalar count of set bits. -/
  | spopc (d a : SReg)
  /-- SCLZ (R240). Scalar count of leading zeros. -/
  | sclz (d a : SReg)
  /-- SADDI (R242). Scalar add of an immediate. -/
  | saddi (d a : SReg) (imm : BitVec 13)
  /-- SANDI (R242). Scalar AND with an immediate. -/
  | sandi (d a : SReg) (imm : BitVec 13)
  /-- SORI (R242). Scalar OR with an immediate. -/
  | sori (d a : SReg) (imm : BitVec 13)
  /-- SSHLI (R242). Scalar shift left by an immediate. -/
  | sshli (d a : SReg) (imm : BitVec 13)
  /-- SSHRI (R242). Scalar logical shift right by an immediate. -/
  | sshri (d a : SReg) (imm : BitVec 13)
  /-- BRA (R226). Guarded relative branch that splits the path where lanes disagree. -/
  | bra (g : PReg) (disp : BitVec 23)
  /-- CALL (R227). Write of the return index to s63 and branch to the target. -/
  | call (disp : BitVec 23)
  /-- RET (R227). Move of the path to the bundle index in an s register. -/
  | ret (a : SReg)
  /-- BRX (R227). Indirect branch to the bundle index in an s register. -/
  | brx (a : SReg)
  /-- JTAB (R228). Per-lane jump through a global table, grouping the lanes by target. -/
  | jtab (a : VReg) (b c : SReg)
  /-- EXIT (R231). Removal of the guarded lanes from the string. -/
  | exit (g : PReg)
  /-- LOOP (R235). Set-up of a modulo-scheduled hardware loop. -/
  | loop (a : SReg) (n1 : BitVec 6) (k1 q : BitVec 3)
  /-- LQUIT (R237). End of admission of loop iterations. -/
  | lquit (g : PReg)
  /-- TRAP (R233). Raise of BREAK with a 12-bit code. -/
  | trap (code : BitVec 12)
  /-- RDX (R243). Read of a system register. -/
  | rdx (d : BitVec 7) (idx : BitVec 10) (la : BitVec 4)
  /-- WRX (R243). Write of a system register from an s register. -/
  | wrx (d : SReg) (idx : BitVec 10)
  /-- SPINV (R250). Module-wide invalidation of the context's span translations. -/
  | spinv (a b : SReg)
  /-- FLUSH (R251). Write-back of dirty lines of a range from the core's cache. -/
  | flush (a b : SReg)
  /-- INV (R251). Write-back and invalidation of the core's copies of a range. -/
  | inv (a b : SReg)
  /-- HSAMP (R252). Setting of owner-side hotness sampling. -/
  | hsamp (a b : SReg)
  /-- XMASK (R253). Swap of xstat.TM[0] with bit 0 of an s register. -/
  | xmask (d a : SReg)
  /-- LD_G (R179). Per-lane global load. -/
  | ldG (g : PReg) (d : VReg) (base : BitVec 6) (vb : Bool) (w : BitVec 3) (ord : BitVec 4) (la : BitVec 4) (off : BitVec 5)
  /-- ST_G (R179). Per-lane withheld global store. -/
  | stG (g : PReg) (d : VReg) (base : BitVec 6) (vb : Bool) (w : BitVec 3) (ord : BitVec 4) (colour : BitVec 3) (off : BitVec 5)
  /-- LD_P (R185). Per-lane pantry load, local or converted to a remote get. -/
  | ldP (g : PReg) (d : VReg) (base : BitVec 6) (vb : Bool) (w : BitVec 3) (ord : BitVec 4) (la : BitVec 4) (off : BitVec 5)
  /-- ST_P (R185). Per-lane withheld pantry store, local or remote. -/
  | stP (g : PReg) (d : VReg) (base : BitVec 6) (vb : Bool) (w : BitVec 3) (ord : BitVec 4) (colour : BitVec 3) (off : BitVec 5)
  /-- LD_B (R179). Per-lane bench load. -/
  | ldB (g : PReg) (d : VReg) (base : BitVec 6) (vb : Bool) (w : BitVec 3) (ord : BitVec 4) (la : BitVec 4) (off : BitVec 5)
  /-- ST_B (R179). Per-lane withheld bench store. -/
  | stB (g : PReg) (d : VReg) (base : BitVec 6) (vb : Bool) (w : BitVec 3) (ord : BitVec 4) (colour : BitVec 3) (off : BitVec 5)
  /-- ATOM_G (R189). Per-lane global atomic at the home's atomic unit. -/
  | atomG (g : PReg) (d : VReg) (base : BitVec 6) (vb : Bool) (op ord : BitVec 4) (sz ret : Bool) (off : BitVec 5)
  /-- ATOM_P (R186). Per-lane pantry atomic at the owning die's bank units. -/
  | atomP (g : PReg) (d : VReg) (base : BitVec 6) (vb : Bool) (op ord : BitVec 4) (sz ret : Bool) (off : BitVec 5)
  /-- ATOM_B (R186). Per-lane bench atomic in the band's bank units. -/
  | atomB (g : PReg) (d : VReg) (base : BitVec 6) (vb : Bool) (op ord : BitVec 4) (sz ret : Bool) (off : BitVec 5)
  /-- FENCE_REL (R163). Release fence over the named colours at a scope. -/
  | fenceRel (scope : BitVec 6) (mask : BitVec 8)
  /-- FENCE_ACQ (R164). Acquire fence ordering earlier loads before later accesses. -/
  | fenceAcq (scope : BitVec 6)
  /-- FENCE_FULL (R164). Full fence that stalls until earlier accesses are performed. -/
  | fenceFull (scope : BitVec 6)
  /-- BAR_ARR (R193). Arrival at a band barrier slot. -/
  | barArr (k : BitVec 4)
  /-- BAR_WAIT (R193). Wait for the next completion of a band barrier slot. -/
  | barWait (k : BitVec 4)
  /-- BAR_SYNC (R193). Arrival at a band barrier, then wait for it. -/
  | barSync (k : BitVec 4)
  /-- BAR_CNT (R193). Setting of a barrier slot's expected arrival count. -/
  | barCnt (k : BitVec 4) (b : SReg)
  /-- WAITC_IMM (R196). Wait until a path counter is at or below an immediate threshold. -/
  | waitcImm (p : BitVec 3) (n : BitVec 8)
  /-- WAITC_REG (R196). Wait until a path counter is at or below an s-register threshold. -/
  | waitcReg (p : BitVec 3) (a : SReg)
  /-- PUT (R198). Withheld remote copy from the local side into a pantry. -/
  | put (d a b : SReg)
  /-- GET (R198). Remote read of a pantry range into the local side. -/
  | get (d a b : SReg)
  /-- SIG (R198). Withheld 64-bit add to a pantry signal word, with device-scope release. -/
  | sig (d a : SReg)
  /-- MLOAD (R260). Load of B from the bench into the weight banks. -/
  | mload (a b : SReg)
  /-- MMUL (R261). Accumulation of 64 rows of A times the resident B into tiles. -/
  | mmul (t : BitVec 7) (a b : SReg)
  /-- MMULZ (R261). Matrix multiply into tiles starting from zero. -/
  | mmulz (t : BitVec 7) (a b : SReg)
  /-- MST (R262). Store of a tile to the bench with optional narrowing. -/
  | mst (t : BitVec 7) (a b : SReg)
  /-- MCLR (R262). Clear of a tile to zero. -/
  | mclr (t : BitVec 7)
  /-- SETRCP (R257). Write of the recipe register xrcp. -/
  | setrcp (r : BitVec 10)
  /-- JOB_CPY (R269). Issue of a copy job card. -/
  | jobCpy (a : SReg)
  /-- JOB_GTH (R269). Issue of a gather job card. -/
  | jobGth (a : SReg)
  /-- JOB_COL (R269). Issue of a collective job card. -/
  | jobCol (a : SReg)
  /-- JOB_MC (R269). Issue of a multicast send or receive job card. -/
  | jobMc (a : SReg)
  /-- JOBQ (R279). Copy of the job error record to an s register. -/
  | jobq (d : SReg)
  /-- WBSEAL (R287). Read of a global word that is recorded as a seal when recording. -/
  | wbseal (d a b : SReg)
  /-- WBDROP (R287). Withheld freeing of a waybill of the context. -/
  | wbdrop (a : SReg)
  /-- LDARG (R287). Read of a word of the launch's argument copy. -/
  | ldarg (d : SReg) (k : BitVec 8)
  /-- POLLING_SLOT (R342). An executive core's 8 ns polling slot reads a queue's WIDX and fetches at most one packet. -/
  | pollingSlot (core q : Nat)
  /-- WIDX_WRITE (R341). A producer writes a queue's WIDX, which can overrun the ring. -/
  | widxWrite (q : Nat) (v : BitVec 32)
  /-- HOST_REGISTER_WRITE (R340). A host write to a BAR register field with no behaviour of its own is ignored. -/
  | hostRegisterWrite (bar off : Nat) (v : BitVec 64)
  /-- STATUS_ALARM_CLEAR (R339). A write of 1 clears a bit of STATUS.ALARM. -/
  | statusAlarmClear (v : BitVec 4)
  /-- HOST_APERTURE_ACCESS (R367). A host read, write or AtomicOp through BAR4 is translated and performed at the span's home. -/
  | hostApertureAccess (off : Nat) (acc : HostAcc)
  /-- LAUNCH_PACKET (R33). A fetched launch packet is checked and its launch starts. -/
  | launchPacket (q sq : Nat)
  /-- SIGNAL_PACKET (R34). A signal packet is taken from its queue and holds later packets. -/
  | signalPacket (q sq : Nat)
  /-- SIGNAL_PACKET_COMPLETE (R34). A signal packet completes once every earlier packet of its queue has completed. -/
  | signalPacketComplete (q sq : Nat)
  /-- WAYBILL_DROP_PACKET (R288). A drop packet frees its waybill and writes its completion record. -/
  | waybillDropPacket (q sq : Nat)
  /-- BAND_DISPATCH (R54). The dispatcher places the next band of a die on a core with room, or queues it. -/
  | bandDispatch (die : Nat)
  /-- PREEMPTION_REQUEST (R213). A pre-emption request names one band and stops its strings. -/
  | preemptionRequest (b : Nat)
  /-- QUEUED_BAND_RESIDENT (R54). A band in a core's band queue becomes resident once the core has room. -/
  | queuedBandResident (die core : Nat)
  /-- STEAL_REQUEST (R56). An idle core asks an LFSR-chosen core of its die for a queued band. -/
  | stealRequest (die core : Nat)
  /-- STEAL_BACKOFF_EXPIRY (R56). The 64-clock wait after an empty steal answer ends. -/
  | stealBackoffExpiry (die core : Nat)
  /-- LONG_LATENCY_RESULT (R47). A long-latency result is written, releasing bundles held by lookahead, or discarded after rollback. -/
  | longLatencyResult (b n o : Nat)
  /-- OPERATION_RETURN (R49). An outstanding operation returns and its path counter falls in issue order. -/
  | operationReturn (o : Nat)
  /-- PROOF_POINT_RELEASE (R60). A proof-point bundle completes, releasing withheld entries and clearing the undo record. -/
  | proofPointRelease (b n : Nat)
  /-- RECIPE_DELAY_EXPIRY (R114). After four issued bundles a pending xrcp value takes effect for matrix instructions. -/
  | recipeDelayExpiry (b n : Nat)
  /-- YIELD_EXPIRY (R232). The 8-clock not-ready period of a yield ends. -/
  | yieldExpiry (b n : Nat)
  /-- IDLE_TIMEOUT (R232). An idle slot becomes ready after 65,536 clocks. -/
  | idleTimeout (b n : Nat)
  /-- SEGMENT_COPY_DONE (R63). A background or demand segment copy completes and waiting slots become ready. -/
  | segmentCopyDone (die core : Nat) (bale seg : Nat)
  /-- BAND_SETTLE (R217). Once a killed band's releases and jobs have returned it is relaunched or the launch is made BANDFATAL. -/
  | bandSettle (b : Nat)
  /-- XSWAP_EXPIRY (R51). A waiting band idle beyond xswap clocks with work queued is swapped out. -/
  | xswapExpiry (b : Nat)
  /-- PREEMPT_STOP_TIMEOUT (R213). A string not stopped 2^20 clocks after the request is rolled back. -/
  | preemptStopTimeout (b n : Nat)
  /-- PREEMPT_DEFERRAL_EXPIRY (R214). A deferral in a handler ends after 2^20 clocks, with a later rollback if no proof point is reached. -/
  | preemptDeferralExpiry (b n : Nat)
  /-- BAND_SAVE (R218). A band is saved to an encrypted save area once every string has stopped and its results have arrived. -/
  | bandSave (b : Nat)
  /-- BAND_RESTORE (R220). A saved band is restored on a core of its die, with a MAC check. -/
  | bandRestore (b core : Nat) (macOk : Bool)
  /-- LAUNCH_COMPLETE (R35). When every band has ended the completion record is written, after any waybill commit. -/
  | launchComplete (l : Nat)
  /-- REPLAY_FAULT_SETTLE (R297). A faulted replay band is rerun normally or the launch is made WBFAULT. -/
  | replayFaultSettle (b : Nat)
  /-- MATRIX_OP_START (R264). A matrix operation starts in release order once its edges allow, reloading B if needed. -/
  | matrixOpStart (die core : Nat)
  /-- MATRIX_OP_RETIRE (R263). A matrix operation retires, possibly retiring its batch. -/
  | matrixOpRetire (die core : Nat)
  /-- JOB_START (R270). A job starts once every earlier operation it has an edge to has returned. -/
  | jobStart (j : Nat)
  /-- JOB_RETURN (R271). A job's reads complete and its writes are performed, or it ends in error. -/
  | jobReturn (j : Nat)
  /-- MULTICAST_FILL (R277). A multicast send fills a target band's matching receive once it is posted. -/
  | multicastFill (j target : Nat)
  /-- COLLECTIVE_INSTANCE_COMPLETE (R275). A collective instance completes once every member has sent its job. -/
  | collectiveInstanceComplete (ctx grp k : Nat)
  /-- HOME_REQUEST (R306). A request at its home serai is performed or answered with NR_NOPAGE and a ticket. -/
  | homeRequest (r : Nat)
  /-- REPLICA_DROP (R169). A replica not updated within 4 µs of its lock is dropped. -/
  | replicaDrop (ctx page dom : Nat)
  /-- PANTRY_VERB (R185). A remote pantry verb or converted access is performed at the owning die's bank units. -/
  | pantryVerb (r : Nat)
  /-- NR_NOPAGE (R310). A ticket reply rolls the string back and parks it in the core's ticket table. -/
  | nrNopage (r : Nat) (ticket : BitVec 32)
  /-- NEGATIVE_REPLY (R182). A negative reply is retried, raises REMOTE_NEG, or makes the band fatal. -/
  | negativeReply (r : Nat) (code : BitVec 8)
  /-- TICKET_RETRY_EXPIRY (R310). A string that could not park re-executes after 1,024 clocks. -/
  | ticketRetryExpiry (b n : Nat)
  /-- PAGE_SERVICE_DONE (R362). The owner finishes servicing a missing page as RESOLVED or FAILED. -/
  | pageServiceDone (slot : Nat) (code : BitVec 8)
  /-- REPLAY_NOTICE (R311). A replay notice makes parked strings re-execute or take REMOTE_NEG. -/
  | replayNotice (ticket : BitVec 32) (code : BitVec 8)
  /-- GETS (R324). A shared-read request is resolved at the directory. -/
  | gets (r : Nat)
  /-- GETM (R324). A request for ownership invalidates the other holders. -/
  | getm (r : Nat)
  /-- UPG (R324). An upgrade from S or O to M invalidates the other sharers. -/
  | upg (r : Nat)
  /-- PUTM (R324). Write-back of a modified line to the home. -/
  | putm (die ctx line : Nat)
  /-- PUTO (R324). Write-back of an owned line to the home. -/
  | puto (die ctx line : Nat)
  /-- FWDGETS (R324). A forwarded shared request makes the owner send data and downgrade. -/
  | fwdgets (die ctx line : Nat)
  /-- FWDGETM (R324). A forwarded exclusive request makes the owner send data and go Invalid. -/
  | fwdgetm (die ctx line : Nat)
  /-- BACKINV (R326). A back-invalidation for a snoop-filter eviction or an IO-coherent copy. -/
  | backinv (die ctx line : Nat)
  /-- INVACK (R324). A holder's acknowledgement, possibly with data, completes a transaction. -/
  | invack (die ctx line : Nat) (dirty : Option LineData)
  /-- DATA (R324). A data or grant message delivers a line to the requester. -/
  | dataMsg (r : Nat) (payload : Option LineData)
  /-- HEARTBEAT_MISS (R331). An unanswered heartbeat is counted, and a third miss declares the die hung. -/
  | heartbeatMiss (die : Nat)
  /-- LINK_STEP_INTERVAL (R336). Every 100 µs the serai raises or lowers each site's link step by utilisation. -/
  | linkStepInterval (die util : Nat)
  /-- RETRAIN_DONE (R336). A link retraining window ends in success or a retry at the previous step. -/
  | retrainDone (die : Nat) (ok : Bool)
  /-- LINK_TRAINED (R330). UCIe training at 16 GT/s succeeds and the site enters ENUMERATING. -/
  | linkTrained (die : Nat)
  /-- TRAINING_TIMEOUT (R330). A training attempt not trained within 100 µs fails. -/
  | trainingTimeout (die : Nat)
  /-- CAPABILITY_CHECK (R328). The capability table is checked and the die is admitted or isolated. -/
  | capabilityCheck (die : Nat) (tab : CapTable)
  /-- ENUMERATION_TIMEOUT (R330). A capability read unanswered within 100 µs refuses the die. -/
  | enumerationTimeout (die : Nat)
  /-- PEER_HEARTBEAT (R348). Serais exchange fabric heartbeats every 100 µs. -/
  | peerHeartbeat (m : Nat) (answered : Bool)
  /-- PEER_DEAD (R348). A peer missing three heartbeats is dead, its extent lines are reverted and its tickets fail. -/
  | peerDead (m : Nat)
  /-- FABRIC_LINK_RETRAIN (R346). A fabric link retrains on lost alignment or repeated resends. -/
  | fabricLinkRetrain (m : Nat)
  /-- FABRIC_RETRAIN_FAIL (R346). A retraining attempt fails after at most 2.25 µs; a third failure takes the link down and switches to a relay. -/
  | fabricRetrainFail (m : Nat)
  /-- FABRIC_LINK_RETRY (R346). A down link is retried every 100 µs and returns after relayed traffic drains. -/
  | fabricLinkRetry (m : Nat) (ok : Bool)
  /-- ENVIRONMENTAL_ALARM (R359). A temperature, supply, clock or tamper alarm sets STATUS.ALARM and quarantines. -/
  | environmentalAlarm (kind : AlarmKind) (onStack : Bool) (site : Nat)
  /-- ALARM_CLEARS (R359). A temperature alarm clears, and the cores of the affected die leave the forced 0.9 GHz step. -/
  | alarmClears (die : Nat)
  /-- PEER_GRANTED_AGAIN (R348). A dead peer module is reset and granted again, so requests to it stop drawing NR_PEER_DEAD. -/
  | peerGrantedAgain (m : Nat)
  /-- NOP (R68). An all-zero slot that demands no unit and writes nothing. -/
  | nop
  /-- MARK (R230). Push of a rejoin record for the path. -/
  | mark
  /-- JOIN (R42). Arrival at the topmost rejoin record, with a pop when the record completes. -/
  | join
  /-- YIELD (R232). String made not ready for 8 partition clocks. -/
  | yield
  /-- TRET (R211). Return from a trap handler to xtpc. -/
  | tret
  /-- IDLE (R232). Issuing slot made not ready until a wake event. -/
  | idle
  /-- GBAR (R195). Arrival at the launch barrier. -/
  | gbar
  /-- MBATCH (R263). Close of the band's open matrix batch on path 5. -/
  | mbatch
  /-- WBREC (R287). Open of the string's recording bracket. -/
  | wbrec
  /-- WBEND (R287). Close of the string's recording bracket. -/
  | wbend
  /-- MODULE_RESET (R339). Module reset starts bring-up in start-up service mode. -/
  | moduleReset
  /-- REPLAY_BAND_RECORD (R296). A replayed band starts with its bench and tiles and no strings. -/
  | replayBandRecord
  /-- REPLAY_JOB_RECORD (R296). A patched JOB record is submitted as a job. -/
  | replayJobRecord
  /-- REPLAY_MATRIX_RECORD (R296). A patched MATRIX record is submitted with its recorded recipe. -/
  | replayMatrixRecord
  /-- REPLAY_FILL_RECORD (R296). A FILL record writes masked bytes to the bench. -/
  | replayFillRecord
  /-- REPLAY_WAIT_RECORD (R296). A WAIT record holds until enough of the band's earlier records have returned. -/
  | replayWaitRecord
  /-- REPLAY_GBAR_RECORD (R296). A GBAR record holds until every band has reached it or ended. -/
  | replayGbarRecord
  /-- HEARTBEAT (R331). The serai sends a die heartbeat every 10 µs. -/
  | heartbeat
  /-- DIE_QUIESCE_DONE (R332). A quiescing die has written back its lines and enters ISOLATED. -/
  | dieQuiesceDone
  /-- CTX_CREATE (R344). Management command that creates a context and takes its keys. -/
  | ctxCreate
  /-- CTX_DESTROY (R366). Management command that ends a context and zeroes its state. -/
  | ctxDestroy
  /-- LOAD (R354). Management command that verifies, measures, encrypts and places a caravan object's bales. -/
  | loadObj
  /-- PREEMPT (R343). Management command that requests pre-emption of a band of a launch. -/
  | preemptCmd
  /-- PAGE_MAP (R344). PAGE operation that gives an unmapped page zeroed frames. -/
  | pageMap
  /-- PAGE_MOVE (R307). PAGE operation that relocates a page under MOV. -/
  | pageMove
  /-- PAGE_PIN (R344). PAGE operation that sets PIN. -/
  | pagePin
  /-- PAGE_UNPIN (R344). PAGE operation that clears PIN. -/
  | pageUnpin
  /-- PAGE_RESTORE_REPLICAS (R169). PAGE operation that re-adds dropped replicas. -/
  | pageRestoreReplicas
  /-- SPAN_INV (R343). Management command that acts as spinv with count 0. -/
  | spanInv
  /-- EXTENT_GRANT (R349). Management command that lends a memory range to peer modules. -/
  | extentGrant
  /-- EXTENT_REVOKE (R350). Management command that revokes an extent and recalls remote copies. -/
  | extentRevoke
  /-- COL_SETUP (R275). Management command that sets up a collective group. -/
  | colSetup
  /-- COL_DESTROY (R343). Management command that destroys a collective group. -/
  | colDestroy
  /-- DIE_QUIESCE (R363). Management command that starts a planned exit of a die. -/
  | dieQuiesce
  /-- DIE_RESET (R363). Management command that resets a site into TRAINING. -/
  | dieReset
  /-- LOG_READ (R344). Management command that copies out and clears records of a log. -/
  | logRead
  /-- QUOTE (R356). Management command that writes a signed quote of ACHAIN. -/
  | quote
  /-- EXPORT (R358). Management command that re-encrypts a context's pages and save areas to a host buffer. -/
  | exportCmd
  /-- QUEUE_CFG (R340). Management command that configures a queue window and resets its indices. -/
  | queueCfg
  /-- APERTURE_MAP (R338). Management command that maps a BAR4 2 MiB unit onto a context. -/
  | apertureMap
  /-- APERTURE_UNMAP (R338). Management command that unmaps a BAR4 2 MiB unit. -/
  | apertureUnmap
  /-- SERVICE_MODE_NORMAL (R57). SERVICE_MODE selecting normal mode. -/
  | serviceModeNormal
  /-- SERVICE_MODE_TEST (R57). SERVICE_MODE selecting test mode. -/
  | serviceModeTest
  /-- SERVICE_MODE_RECOVERY (R57). SERVICE_MODE selecting recovery mode. -/
  | serviceModeRecovery
  /-- RESETTING_COMPLETE (R330). A die reset ends with its pantry zeroed, and the site leaves RESETTING for TRAINING. -/
  | resettingComplete
  /-- PAGE_MOVE_COMPLETE (R307). The owner's copy of a moving page ends, the entry is rewritten, MOV is cleared and replay notices are sent. -/
  | pageMoveComplete
  deriving DecidableEq, Repr

end Sys2Proof
end

