-- ==== Sys2Proof/Machine/Forms.lean ====
section
/-! DEFINITION. The operand forms of the slot instructions: which guard, registers and classes an instruction names, what
it writes (R85), and every form check of the decoder (R73 to R82, R87, R138 to R147, R178, R193, R196, R225, R234, R243,
R287), each with a name of its own. `Sys2Proof.WellFormed` and `Sys2Proof.Decode` are stated over these. -/

namespace Sys2Proof

/-- The four profiles (R2). -/
inductive Profile where
  | lane | array | control | executive
  deriving DecidableEq, Repr

/-- What the decoder knows of the launch: profile (R87), registers per lane (R38), barrier slots (R193), the bale's
argument count (R287). -/
structure DecCtx where
  prof : Profile
  regs : Nat
  bars : Nat
  nargs : Nat
  deriving DecidableEq, Repr

/-- The widest context: every operand of the lane profile is in range. -/
def DecCtx.full : DecCtx := { prof := .lane, regs := 128, bars := 16, nargs := 255 }

/-- Why a slot or a bundle is refused at decode. All but `illegalOrder` raise OPCODE (R88); `illegalOrder` raises
ILLEGAL_ORDER (R78). -/
inductive DecErr where
  /-- major not assigned, or a header outside slot 0 (R69, R91) -/
  | badMajor
  /-- minor not assigned (R91) -/
  | badMinor
  /-- a field or extension bit the instruction does not use is set (R70, R74, R80, R81) -/
  | unusedField
  /-- a reserved width, op, order, scope, selector or system register code (R75, R77, R81, R74, R138, R140, R243) -/
  | reservedCode
  /-- an immediate outside its range (R128, R146, R242) -/
  | immRange
  /-- a register index outside its file, or a group past its end (R73, R75) -/
  | regRange
  /-- a register group breaks its alignment (R75, R81, R141, R142) -/
  | regAlign
  /-- a guard other than p0 on a per-string instruction, or in the executive profile (R82, R87) -/
  | guardForm
  /-- the profile does not implement the form (R87) -/
  | badProfile
  /-- a barrier slot not below the band's count (R193) -/
  | barSlot
  /-- an argument index not below the bale's count (R287) -/
  | argIndex
  /-- waitc on path 7 (R196) -/
  | badPath
  /-- stage predicates of a loop out of range (R234) -/
  | loopStages
  /-- the bundle breaks the limits of R83 -/
  | composition
  /-- two slots write one register (R85) -/
  | doubleWrite
  /-- a form the active loop forbids (R236), or `tret` outside a handler (R211) -/
  | context
  /-- an order illegal for its instruction (R78) -/
  | illegalOrder
  deriving DecidableEq, Repr

/-- The classes of R83. -/
inductive Cls where
  | v | s | m | x
  deriving DecidableEq, Repr

/-- A register that a slot writes, for R85. -/
inductive RegName where
  | v (n : Nat) | s (n : Nat) | p (n : Nat) | sys (idx : Nat)
  deriving DecidableEq, Repr

/-- Slot instructions (those with an encoding); the other constructors are events. -/
def Instr.major : Instr → Option Nat
  | .nop => some 0x00
  | .iadd .. | .isub .. | .imul .. | .imulhI .. | .imulhN .. | .iminI .. | .imaxI .. | .iminN .. | .imaxN .. | .iand ..
  | .ior .. | .ixor .. | .ishl .. | .ishr .. | .isra .. | .irot .. => some 0x01
  | .iabs .. | .ineg .. | .popc .. | .clz .. | .ctz .. | .brev .. | .bfe .. | .bfi .. | .iaddsI .. | .isubsI .. | .iaddsN ..
  | .isubsN .. | .imad .. | .mov .. => some 0x02
  | .iaddi .. | .iandi .. | .iori .. | .ixori .. | .ishli .. | .ishri .. | .israi .. | .imuli .. => some 0x03
  | .movk .. | .movh .. | .movkS .. | .movhS .. => some 0x04
  | .ceq .. | .cne .. | .cltI .. | .cleI .. | .cltN .. | .cleN .. | .fceq .. | .fcne .. | .fclt .. | .fcle .. | .fcun .. => some 0x05
  | .pand .. | .por .. | .pxor .. | .pnot .. | .pmov .. => some 0x06
  | .fadd .. | .fsub .. | .fmul .. | .ffma .. | .fmin .. | .fmax .. | .fabs .. | .fneg .. | .fdiv .. | .fsqrt .. | .ffloor ..
  | .fceil .. | .ftrunc .. | .fround .. | .fcopysign .. => some 0x07
  | .hadd2 .. | .hsub2 .. | .hmul2 .. | .hfma2 .. | .hmin2 .. | .hmax2 .. | .hcvt2 .. => some 0x08
  | .cvt .. | .cvtSat .. | .cvtEf .. | .cvtPack .. => some 0x09
  | .dp4I8 .. | .dp4N8 .. | .dp8I4 .. | .dp4E4m3 .. | .dp4E5m2 .. | .dp8E2m1 .. | .fscl .. => some 0x0A
  | .shfl .. | .shup .. | .shdn .. | .shx .. | .bcast .. | .ballot .. | .vany .. | .vall .. | .mpfx .. | .redaddI .. | .redmaxI ..
  | .redaddF .. | .redmaxF .. => some 0x0B
  | .sadd .. | .ssub .. | .smul .. | .sand .. | .sor .. | .sxor .. | .sshl .. | .sshr .. | .ssra .. | .smin .. | .smax .. | .rdl ..
  | .wrl .. | .bcs .. | .spopc .. | .sclz .. => some 0x0C
  | .saddi .. | .sandi .. | .sori .. | .sshli .. | .sshri .. => some 0x0D
  | .bra .. => some 0x10
  | .call .. => some 0x11
  | .ret .. | .brx .. | .jtab .. | .mark | .join | .exit .. | .yield | .loop .. | .lquit .. | .trap .. | .tret | .idle => some 0x12
  | .rdx .. | .wrx .. | .spinv .. | .flush .. | .inv .. | .hsamp .. | .xmask .. => some 0x13
  | .ldG .. => some 0x18
  | .stG .. => some 0x19
  | .ldP .. => some 0x1A
  | .stP .. => some 0x1B
  | .ldB .. => some 0x1C
  | .stB .. => some 0x1D
  | .atomG .. => some 0x1E
  | .atomP .. => some 0x1F
  | .atomB .. => some 0x20
  | .fenceRel .. | .fenceAcq .. | .fenceFull .. => some 0x21
  | .barArr .. | .barWait .. | .barSync .. | .barCnt .. | .gbar => some 0x22
  | .waitcImm .. | .waitcReg .. => some 0x23
  | .put .. | .get .. | .sig .. => some 0x24
  | .mload .. | .mmul .. | .mmulz .. | .mst .. | .mclr .. | .mbatch => some 0x28
  | .setrcp .. => some 0x29
  | .jobCpy .. | .jobGth .. | .jobCol .. | .jobMc .. | .jobq .. => some 0x2A
  | .wbrec | .wbend | .wbseal .. | .wbdrop .. | .ldarg .. => some 0x2C
  | _ => none

/-- An instruction that stands in a slot of a bundle. -/
abbrev Instr.isSlot (i : Instr) : Bool := i.major.isSome

/-- The guard field of the forms that carry one (R82); the others have guard p0. -/
def Instr.guard : Instr → PReg
  | .iadd g .. | .isub g .. | .imul g .. | .imulhI g .. | .imulhN g .. | .iminI g .. | .imaxI g .. | .iminN g .. | .imaxN g ..
  | .iand g .. | .ior g .. | .ixor g .. | .ishl g .. | .ishr g .. | .isra g .. | .irot g .. | .iabs g .. | .ineg g .. | .popc g ..
  | .clz g .. | .ctz g .. | .brev g .. | .bfe g .. | .bfi g .. | .iaddsI g .. | .isubsI g .. | .iaddsN g .. | .isubsN g ..
  | .imad g .. | .mov g .. | .iaddi g .. | .iandi g .. | .iori g .. | .ixori g .. | .ishli g .. | .ishri g .. | .israi g ..
  | .imuli g .. | .movk g .. | .movh g .. | .ceq g .. | .cne g .. | .cltI g .. | .cleI g .. | .cltN g .. | .cleN g .. | .fceq g ..
  | .fcne g .. | .fclt g .. | .fcle g .. | .fcun g .. | .pand g .. | .por g .. | .pxor g .. | .pnot g .. | .pmov g .. | .fadd g ..
  | .fsub g .. | .fmul g .. | .ffma g .. | .fmin g .. | .fmax g .. | .fabs g .. | .fneg g .. | .fdiv g .. | .fsqrt g .. | .ffloor g ..
  | .fceil g .. | .ftrunc g .. | .fround g .. | .fcopysign g .. | .hadd2 g .. | .hsub2 g .. | .hmul2 g .. | .hfma2 g .. | .hmin2 g ..
  | .hmax2 g .. | .hcvt2 g .. | .cvt g .. | .cvtSat g .. | .cvtEf g .. | .cvtPack g .. | .dp4I8 g .. | .dp4N8 g .. | .dp8I4 g ..
  | .dp4E4m3 g .. | .dp4E5m2 g .. | .dp8E2m1 g .. | .fscl g .. | .shfl g .. | .shup g .. | .shdn g .. | .shx g .. | .bcast g ..
  | .ballot g .. | .vany g .. | .vall g .. | .mpfx g .. | .redaddI g .. | .redmaxI g .. | .redaddF g .. | .redmaxF g .. | .bcs g ..
  | .bra g _ | .exit g | .lquit g | .ldG g .. | .stG g .. | .ldP g .. | .stP g .. | .ldB g .. | .stB g .. | .atomG g .. | .atomP g ..
  | .atomB g .. => g
  | _ => 0#3

/-- The class of R83, as the opcode map gives it (R91). -/
def Instr.cls (i : Instr) : Option Cls :=
  match i with
  | .nop => none
  | .movkS .. | .movhS .. => some .s
  | _ =>
    match i.major with
    | none => none
    | some m => if m ≤ 0x0B then some .v else if m ≤ 0x0D then some .s else if m ≤ 0x13 then some .x
                else if m = 0x29 then some .s else some .m

/-- The M-format access size in bytes (R75). -/
def widthBytes (w : BitVec 3) : Nat :=
  match w.toNat with
  | 0 | 1 => 1
  | 2 | 3 => 2
  | 4 => 4
  | 5 => 8
  | _ => 16

/-- The v registers of a load's or store's group (R75). -/
def widthRegs (w : BitVec 3) : Nat :=
  match w.toNat with
  | 5 => 2
  | 6 => 4
  | _ => 1

/-- Consecutive indices `n .. n + k - 1`. -/
def idxRange (n k : Nat) : List Nat := (List.range k).map (n + ·)

/-- The v registers that an atomic's operand reads: x, and y for `cas` (op 9) (R81). -/
def atomRegs (op : BitVec 4) (sz : Bool) : Nat := (if op = 9#4 then 2 else 1) * (if sz then 2 else 1)

/-- The v registers of the base pair (R73). -/
def baseRegs (base : BitVec 6) (vb : Bool) : List Nat := if vb then idxRange (2 * base.toNat) 2 else []

/-- A cvt code that narrows to or widens from a block format: its selector code is 8 or 9, 10 or 11 (R138). -/
def selCode (sel : BitVec 6) : Nat := sel.toNat % 16

/-- The rounding mode of a cvt selector (R138). -/
def selMode (sel : BitVec 6) : Nat := sel.toNat / 16

/-- Every v register an instruction names, groups included (R73). -/
def Instr.vRefs : Instr → List Nat
  | .iadd _ d a b | .isub _ d a b | .imul _ d a b | .imulhI _ d a b | .imulhN _ d a b | .iminI _ d a b | .imaxI _ d a b
  | .iminN _ d a b | .imaxN _ d a b | .iand _ d a b | .ior _ d a b | .ixor _ d a b | .ishl _ d a b | .ishr _ d a b
  | .isra _ d a b | .irot _ d a b | .bfe _ d a b | .bfi _ d a b | .iaddsI _ d a b | .isubsI _ d a b | .iaddsN _ d a b
  | .isubsN _ d a b | .imad _ d a b | .fadd _ d a b | .fsub _ d a b | .fmul _ d a b | .ffma _ d a b | .fmin _ d a b
  | .fmax _ d a b | .fcopysign _ d a b | .dp4I8 _ d a b | .dp4N8 _ d a b | .dp8I4 _ d a b | .dp4E4m3 _ d a b | .dp4E5m2 _ d a b
  | .dp8E2m1 _ d a b | .fscl _ d a b | .shfl _ d a b | .fdiv _ d a b _ | .hadd2 _ d a b _ | .hsub2 _ d a b _ | .hmul2 _ d a b _
  | .hfma2 _ d a b _ | .hmin2 _ d a b _ | .hmax2 _ d a b _ | .hcvt2 _ d a b _ => [d.toNat, a.toNat, b.toNat]
  | .iabs _ d a | .ineg _ d a | .popc _ d a | .clz _ d a | .ctz _ d a | .brev _ d a | .mov _ d a | .fabs _ d a | .fneg _ d a
  | .ffloor _ d a | .fceil _ d a | .ftrunc _ d a | .fround _ d a | .iaddi _ d a _ | .iandi _ d a _ | .iori _ d a _ | .ixori _ d a _
  | .ishli _ d a _ | .ishri _ d a _ | .israi _ d a _ | .imuli _ d a _ | .fsqrt _ d a _ | .redaddI _ d a _ | .redmaxI _ d a _
  | .redaddF _ d a _ | .redmaxF _ d a _ | .cvtSat _ d a _ | .cvtPack _ d a _ | .shup _ d a _ | .shdn _ d a _ | .shx _ d a _
  | .bcast _ d a _ => [d.toNat, a.toNat]
  | .cvt _ d a sel =>
    if selCode sel = 8 ∨ selCode sel = 9 then a.toNat :: idxRange d.toNat 2
    else if selCode sel = 10 ∨ selCode sel = 11 then d.toNat :: idxRange a.toNat 2
    else [d.toNat, a.toNat]
  | .cvtEf _ d a _ => a.toNat :: idxRange d.toNat 2
  | .movk _ d _ | .movh _ d _ | .ballot _ d _ | .mpfx _ d _ | .wrl d _ _ | .bcs _ d _ => [d.toNat]
  | .ceq _ _ a b | .cne _ _ a b | .cltI _ _ a b | .cleI _ _ a b | .cltN _ _ a b | .cleN _ _ a b | .fceq _ _ a b | .fcne _ _ a b
  | .fclt _ _ a b | .fcle _ _ a b | .fcun _ _ a b => [a.toNat, b.toNat]
  | .rdl _ a _ | .jtab a _ _ => [a.toNat]
  | .rdx d idx _ => if idx = 0x017#10 then [d.toNat] else []
  | .ldG _ d base vb w _ _ _ | .ldP _ d base vb w _ _ _ | .ldB _ d base vb w _ _ _ | .stG _ d base vb w _ _ _
  | .stP _ d base vb w _ _ _ | .stB _ d base vb w _ _ _ => idxRange d.toNat (widthRegs w) ++ baseRegs base vb
  | .atomG _ d base vb op _ sz _ _ | .atomP _ d base vb op _ sz _ _ | .atomB _ d base vb op _ sz _ _ =>
    idxRange d.toNat (atomRegs op sz) ++ baseRegs base vb
  | _ => []

/-- The registers a slot writes, for R85; writes to s0 and p0 are discarded and not counted. The stage predicates that a pass of `loop` writes
(R235) are none of its bundle's destinations (log 108). -/
def Instr.writes : Instr → List RegName
  | .iadd _ d _ _ | .isub _ d _ _ | .imul _ d _ _ | .imulhI _ d _ _ | .imulhN _ d _ _ | .iminI _ d _ _ | .imaxI _ d _ _
  | .iminN _ d _ _ | .imaxN _ d _ _ | .iand _ d _ _ | .ior _ d _ _ | .ixor _ d _ _ | .ishl _ d _ _ | .ishr _ d _ _
  | .isra _ d _ _ | .irot _ d _ _ | .bfe _ d _ _ | .bfi _ d _ _ | .iaddsI _ d _ _ | .isubsI _ d _ _ | .iaddsN _ d _ _
  | .isubsN _ d _ _ | .imad _ d _ _ | .fadd _ d _ _ | .fsub _ d _ _ | .fmul _ d _ _ | .ffma _ d _ _ | .fmin _ d _ _
  | .fmax _ d _ _ | .fcopysign _ d _ _ | .dp4I8 _ d _ _ | .dp4N8 _ d _ _ | .dp8I4 _ d _ _ | .dp4E4m3 _ d _ _ | .dp4E5m2 _ d _ _
  | .dp8E2m1 _ d _ _ | .fscl _ d _ _ | .shfl _ d _ _ | .fdiv _ d _ _ _ | .hadd2 _ d _ _ _ | .hsub2 _ d _ _ _ | .hmul2 _ d _ _ _
  | .hfma2 _ d _ _ _ | .hmin2 _ d _ _ _ | .hmax2 _ d _ _ _ | .hcvt2 _ d _ _ _ | .iabs _ d _ | .ineg _ d _ | .popc _ d _ | .clz _ d _
  | .ctz _ d _ | .brev _ d _ | .mov _ d _ | .fabs _ d _ | .fneg _ d _ | .ffloor _ d _ | .fceil _ d _ | .ftrunc _ d _ | .fround _ d _
  | .iaddi _ d _ _ | .iandi _ d _ _ | .iori _ d _ _ | .ixori _ d _ _ | .ishli _ d _ _ | .ishri _ d _ _ | .israi _ d _ _
  | .imuli _ d _ _ | .fsqrt _ d _ _ | .redaddI _ d _ _ | .redmaxI _ d _ _ | .redaddF _ d _ _ | .redmaxF _ d _ _ | .cvtSat _ d _ _
  | .cvtPack _ d _ _ | .shup _ d _ _ | .shdn _ d _ _ | .shx _ d _ _ | .bcast _ d _ _ | .movk _ d _ | .movh _ d _ | .ballot _ d _
  | .mpfx _ d _ | .wrl d _ _ | .bcs _ d _ => [.v d.toNat]
  | .cvt _ d _ sel => if selCode sel = 8 ∨ selCode sel = 9 then (idxRange d.toNat 2).map .v else [.v d.toNat]
  | .cvtEf _ d _ _ => (idxRange d.toNat 2).map .v
  | .ceq _ p _ _ | .cne _ p _ _ | .cltI _ p _ _ | .cleI _ p _ _ | .cltN _ p _ _ | .cleN _ p _ _ | .fceq _ p _ _ | .fcne _ p _ _
  | .fclt _ p _ _ | .fcle _ p _ _ | .fcun _ p _ _ | .pand _ p _ _ | .por _ p _ _ | .pxor _ p _ _ | .pnot _ p _ | .pmov _ p _
  | .vany _ p _ | .vall _ p _ => if p = 0#3 then [] else [.p p.toNat]
  | .movkS d _ | .movhS d _ | .sadd d _ _ | .ssub d _ _ | .smul d _ _ | .sand d _ _ | .sor d _ _ | .sxor d _ _ | .sshl d _ _
  | .sshr d _ _ | .ssra d _ _ | .smin d _ _ | .smax d _ _ | .rdl d _ _ | .spopc d _ | .sclz d _ | .saddi d _ _ | .sandi d _ _
  | .sori d _ _ | .sshli d _ _ | .sshri d _ _ | .xmask d _ | .jobq d | .wbseal d _ _ | .ldarg d _ =>
    if d = 0#6 then [] else [.s d.toNat]
  | .call _ => [.s 63]
  | .rdx d idx _ => if idx = 0x017#10 then [.v d.toNat] else if d = 0#7 then [] else [.s d.toNat]
  | .wrx _ idx => [.sys idx.toNat]
  | .setrcp _ => [.sys 5]
  | .ldG _ d _ _ w _ _ _ | .ldP _ d _ _ w _ _ _ | .ldB _ d _ _ w _ _ _ => (idxRange d.toNat (widthRegs w)).map .v
  | .atomG _ d _ _ _ _ sz rt _ | .atomP _ d _ _ _ _ sz rt _ | .atomB _ d _ _ _ _ sz rt _ =>
    if rt then (idxRange d.toNat (if sz then 2 else 1)).map .v else []
  | _ => []

/-- The assigned system register indices (R245). -/
def sysAssigned (idx : Nat) : Bool :=
  decide (idx ≤ 0x00C) || (decide (0x010 ≤ idx) && decide (idx ≤ 0x01A)) || (decide (0x020 ≤ idx) && decide (idx ≤ 0x027)) ||
    (decide (0x040 ≤ idx) && decide (idx ≤ 0x042))

/-- The system registers marked long (R245): xclk and xtk. -/
def sysLong (idx : Nat) : Bool := idx == 0x018 || idx == 0x042

/-- Order codes of R77. -/
def ordPlain (o : BitVec 4) : Bool := o == 0#4
/-- acquire codes 1 to 4 -/
def ordAcq (o : BitVec 4) : Bool := decide (1 ≤ o.toNat) && decide (o.toNat ≤ 4)
/-- release codes 5 to 8 -/
def ordRel (o : BitVec 4) : Bool := decide (5 ≤ o.toNat) && decide (o.toNat ≤ 8)
/-- acq_rel codes 9 to 12 -/
def ordAr (o : BitVec 4) : Bool := decide (9 ≤ o.toNat) && decide (o.toNat ≤ 12)

/-- R79: a bench access is narrowed to band scope. -/
def narrowBench (o : BitVec 4) : BitVec 4 :=
  if ordAcq o then 1#4 else if ordRel o then 5#4 else if ordAr o then 9#4 else o

/-- R79: system scope on a pantry access is narrowed to device scope. -/
def narrowPantry (o : BitVec 4) : BitVec 4 :=
  if o = 4#4 then 3#4 else if o = 8#4 then 7#4 else if o = 12#4 then 11#4 else o

/-- The reserved codes of an M-format load (R75, R77). -/
def loadForm (d : VReg) (w : BitVec 3) (ord : BitVec 4) : Option DecErr :=
  if w = 7#3 ∨ 13 ≤ ord.toNat then some .reservedCode
  else if d.toNat % widthRegs w ≠ 0 then some .regAlign
  else none

/-- The reserved codes of an M-format store (R75, R77, R178). -/
def storeForm (d : VReg) (w : BitVec 3) (ord : BitVec 4) : Option DecErr :=
  if w = 1#3 ∨ w = 3#3 then some .reservedCode else loadForm d w ord

/-- The reserved codes and alignment of an A-format atomic (R77, R81). -/
def atomForm (d : VReg) (op ord : BitVec 4) (sz : Bool) : Option DecErr :=
  if 12 ≤ op.toNat ∨ 13 ≤ ord.toNat then some .reservedCode
  else if sz ∧ d.toNat % atomRegs op sz ≠ 0 then some .regAlign
  else none

/-- The selector checks of R138, R140, R141, R142. -/
def cvtForm (d a : VReg) (sel : BitVec 6) : Option DecErr :=
  if 12 ≤ selCode sel ∨ (6 ≤ selCode sel ∧ selMode sel ≠ 0) then some .reservedCode
  else if (selCode sel = 8 ∨ selCode sel = 9) ∧ d.toNat % 2 ≠ 0 then some .regAlign
  else if (selCode sel = 10 ∨ selCode sel = 11) ∧ a.toNat % 2 ≠ 0 then some .regAlign
  else none

/-- `cvt.sat` takes codes 0, 1, 4 and 5 only (R138). -/
def cvtSatForm (sel : BitVec 6) : Option DecErr :=
  if selCode sel = 0 ∨ selCode sel = 1 ∨ selCode sel = 4 ∨ selCode sel = 5 then none else some .reservedCode

/-- `cvt.ef` takes codes 8 and 9 only, with RNE and an even d (R138, R141). -/
def cvtEfForm (d : VReg) (sel : BitVec 6) : Option DecErr :=
  if (selCode sel = 8 ∨ selCode sel = 9) ∧ selMode sel = 0 then (if d.toNat % 2 ≠ 0 then some .regAlign else none)
  else some .reservedCode

/-- The pack and unpack selectors of R140. -/
def packForm (sel : BitVec 6) : Option DecErr :=
  if sel.toNat < 32 then (if sel.toNat % 8 = 7 then some .reservedCode else none)
  else if sel.toNat % 4 = 3 ∨ (sel.toNat % 4 < 2 ∧ 4 ≤ (sel.toNat / 4) % 8) then some .reservedCode
  else none

/-- The checks of one instruction's own fields. -/
def Instr.fieldError (c : DecCtx) : Instr → Option DecErr
  | .ishli _ _ _ imm | .ishri _ _ _ imm | .israi _ _ _ imm => if imm.toNat ≤ 31 then none else some .immRange
  | .sshli _ _ imm | .sshri _ _ imm => if imm.toNat ≤ 63 then none else some .immRange
  | .cvt _ d a sel => cvtForm d a sel
  | .cvtSat _ _ _ sel => cvtSatForm sel
  | .cvtEf _ d _ sel => cvtEfForm d sel
  | .cvtPack _ _ _ sel => packForm sel
  | .loop _ _ k1 q => if 1 ≤ q.toNat ∧ q.toNat + k1.toNat ≤ 7 then none else some .loopStages
  | .rdx d idx la =>
    if sysAssigned idx.toNat = false then some .reservedCode
    else if la ≠ 0#4 ∧ sysLong idx.toNat = false then some .unusedField
    else if idx ≠ 0x017#10 ∧ 64 ≤ d.toNat then some .regRange
    else none
  | .wrx _ idx => if sysAssigned idx.toNat then none else some .reservedCode
  | .ldG _ d _ _ w ord _ _ | .ldP _ d _ _ w ord _ _ | .ldB _ d _ _ w ord _ _ => loadForm d w ord
  | .stG _ d _ _ w ord _ _ | .stP _ d _ _ w ord _ _ | .stB _ d _ _ w ord _ _ => storeForm d w ord
  | .atomG _ d _ _ op ord sz _ _ | .atomP _ d _ _ op ord sz _ _ | .atomB _ d _ _ op ord sz _ _ => atomForm d op ord sz
  | .fenceRel scope mask =>
    if 1 ≤ scope.toNat ∧ scope.toNat ≤ 4 ∧ mask ≠ 0#8 then none else some .reservedCode
  | .fenceAcq scope | .fenceFull scope => if 1 ≤ scope.toNat ∧ scope.toNat ≤ 4 then none else some .reservedCode
  | .barArr k | .barWait k | .barSync k => if k.toNat < c.bars then none else some .barSlot
  | .barCnt k _ => if k.toNat < c.bars then none else some .barSlot
  | .waitcImm p _ | .waitcReg p _ => if p = 7#3 then some .badPath else none
  | .ldarg _ k => if k.toNat < c.nargs ∧ k ≠ 255#8 then none else some .argIndex
  | _ => none

/-- A memory access through a v base (R87). -/
def Instr.usesVb : Instr → Bool
  | .ldG _ _ _ vb _ _ _ _ | .ldP _ _ _ vb _ _ _ _ | .ldB _ _ _ vb _ _ _ _ | .stG _ _ _ vb _ _ _ _ | .stP _ _ _ vb _ _ _ _
  | .stB _ _ _ vb _ _ _ _ | .atomG _ _ _ vb _ _ _ _ _ | .atomP _ _ _ vb _ _ _ _ _ | .atomB _ _ _ vb _ _ _ _ _ => vb
  | _ => false

/-- What each profile implements (R87). -/
def Instr.profileOk (p : Profile) (i : Instr) : Bool :=
  match p, i.major with
  | _, none => true
  | .lane, _ | .array, _ => true
  | .control, some m => !(m == 0x1C || m == 0x1D || m == 0x20 || m == 0x28 || m == 0x29 || m == 0x2A || m == 0x2C)
  | .executive, some m =>
    match i with
    | .nop | .movkS .. | .movhS .. | .ret .. | .brx .. | .exit .. | .yield | .trap .. | .idle => true
    | _ => m == 0x0C || m == 0x0D || m == 0x10 || m == 0x11 || m == 0x13 || m == 0x18 || m == 0x19 || m == 0x1A ||
           m == 0x1B || m == 0x1E || m == 0x1F || m == 0x21

/-- The executive profile takes guard p0 and s bases only (R87). -/
def Instr.execFormOk (p : Profile) (i : Instr) : Bool :=
  p != .executive || (i.guard == 0#3 && !i.usesVb)

/-- Every OPCODE check of a slot on the instruction its fields form (R73 to R82, R87). -/
def Instr.formError (c : DecCtx) (i : Instr) : Option DecErr :=
  match i.fieldError c with
  | some e => some e
  | none =>
    if i.vRefs.any (fun n => decide (c.regs ≤ n)) then some .regRange
    else if i.profileOk c.prof = false then some .badProfile
    else if i.execFormOk c.prof = false then some .guardForm
    else none

/-- The ILLEGAL_ORDER check of R78. -/
def Instr.orderIllegal : Instr → Bool
  | .ldG _ _ _ _ _ ord _ _ | .ldP _ _ _ _ _ ord _ _ | .ldB _ _ _ _ _ ord _ _ => ordRel ord || ordAr ord
  | .stG _ _ _ _ _ ord _ _ | .stP _ _ _ _ _ ord _ _ | .stB _ _ _ _ _ ord _ _ => ordAcq ord || ordAr ord
  | .atomG _ _ _ _ _ ord _ rt _ | .atomP _ _ _ _ _ ord _ rt _ | .atomB _ _ _ _ _ ord _ rt _ => !rt && (ordAcq ord || ordAr ord)
  | _ => false

/-- The order code of an access stands as R79 narrows it. -/
def Instr.narrowed : Instr → Bool
  | .ldP _ _ _ _ _ ord _ _ | .stP _ _ _ _ _ ord _ _ | .atomP _ _ _ _ _ ord _ _ _ => narrowPantry ord == ord
  | .ldB _ _ _ _ _ ord _ _ | .stB _ _ _ _ _ ord _ _ | .atomB _ _ _ _ _ ord _ _ _ => narrowBench ord == ord
  | _ => true

/-- The proof-point instructions of R59, cases 1 to 4. -/
def Instr.isProofPoint : Instr → Bool
  | .fenceRel .. | .fenceAcq .. | .fenceFull .. | .join | .barArr .. | .barWait .. | .barSync .. | .barCnt .. | .gbar | .tret
  | .waitcImm .. | .waitcReg .. | .exit .. | .mload .. | .mmul .. | .mmulz .. | .mst .. | .mclr .. | .mbatch | .jobCpy .. | .jobGth ..
  | .jobCol .. | .jobMc .. | .jobq .. | .wbrec | .wbend | .wbseal .. | .wbdrop .. => true
  | .stG _ _ _ _ _ ord _ _ | .stP _ _ _ _ _ ord _ _ | .stB _ _ _ _ _ ord _ _ => ordRel ord
  | .atomG _ _ _ _ _ ord _ rt _ | .atomP _ _ _ _ _ ord _ rt _ | .atomB _ _ _ _ _ ord _ rt _ => rt || ordRel ord || ordAr ord
  | _ => false

end Sys2Proof
end

