-- ==== Sys2Proof/WellFormed.lean ====
section
/-! DEFINITION. Well-formed slot instructions: those that the decoder can give in a launch context, that is, those that
pass every check of `Machine/Forms.lean` and whose scope stands narrowed (R79). -/

namespace Sys2Proof

/-- `i` is a slot instruction that the decoder accepts in the context `c`. -/
def wellFormed (c : DecCtx) (i : Instr) : Bool :=
  i.isSlot && (i.formError c).isNone && !i.orderIllegal && i.narrowed

end Sys2Proof
end

