-- ==== Sys2Proof/Decode.lean ====
section
/-! DEFINITION. The decoder of slots and bundles (R67 to R88, R91) and, after it, the encoder written from the same
tables. Decoding is total: every word is an instruction or is refused by a named reason. -/

namespace Sys2Proof

/-- One slot as the decoder sees it: its word, its extension byte, and whether the bundle has a header (R69, R72). -/
structure Slot where
  w : BitVec 32
  e : BitVec 8
  hdr : Bool
  deriving DecidableEq, Repr

/-- MAJOR, [31:26] -/
def Slot.maj (s : Slot) : BitVec 6 := s.w.extractLsb' 26 6
/-- the guard, [25:23] (R71, R82) -/
def Slot.g (s : Slot) : PReg := s.w.extractLsb' 23 3
/-- field [22:17] -/
def Slot.fd (s : Slot) : BitVec 6 := s.w.extractLsb' 17 6
/-- field [16:11] -/
def Slot.fa (s : Slot) : BitVec 6 := s.w.extractLsb' 11 6
/-- field [10:5] -/
def Slot.fb (s : Slot) : BitVec 6 := s.w.extractLsb' 5 6
/-- field [4:0] -/
def Slot.minor (s : Slot) : BitVec 5 := s.w.extractLsb' 0 5
/-- XD, bit 6 of d (R70) -/
def Slot.xd (s : Slot) : BitVec 1 := s.e.extractLsb' 7 1
/-- XA, bit 6 of a (R70) -/
def Slot.xa (s : Slot) : BitVec 1 := s.e.extractLsb' 6 1
/-- XB, bit 6 of b, or of the base (R70) -/
def Slot.xb (s : Slot) : BitVec 1 := s.e.extractLsb' 5 1
/-- XI (R70) -/
def Slot.xi (s : Slot) : BitVec 5 := s.e.extractLsb' 0 5
/-- XD:d (R73) -/
def Slot.d (s : Slot) : BitVec 7 := s.xd ++ s.fd
/-- XA:a (R73) -/
def Slot.a (s : Slot) : BitVec 7 := s.xa ++ s.fa
/-- XB:b (R73) -/
def Slot.b (s : Slot) : BitVec 7 := s.xb ++ s.fb
/-- The I format's minor [10:8] -/
def Slot.minorI (s : Slot) : BitVec 3 := s.w.extractLsb' 8 3
/-- imm8 [7:0] -/
def Slot.imm8 (s : Slot) : BitVec 8 := s.w.extractLsb' 0 8
/-- The 13-bit immediate of the I format (R72). -/
def Slot.immI (s : Slot) : BitVec 13 := if s.hdr then s.xi ++ s.imm8 else s.imm8.signExtend 13
/-- The K format's minor [16:15] -/
def Slot.minorK (s : Slot) : BitVec 2 := s.w.extractLsb' 15 2
/-- imm15 [14:0] -/
def Slot.imm15 (s : Slot) : BitVec 15 := s.w.extractLsb' 0 15
/-- The K immediate sign-extended to 20 bits, or XI:imm15 (R72, R129). -/
def Slot.immKs (s : Slot) : BitVec 20 := if s.hdr then s.xi ++ s.imm15 else s.imm15.signExtend 20
/-- The K immediate zero-extended to 20 bits, or XI:imm15 (R72, R129). -/
def Slot.immKz (s : Slot) : BitVec 20 := if s.hdr then s.xi ++ s.imm15 else s.imm15.zeroExtend 20
/-- M and A: base [16:12] under XB (R73) -/
def Slot.base (s : Slot) : BitVec 6 := s.xb ++ s.w.extractLsb' 12 5
/-- M and A: vb [11] -/
def Slot.vb (s : Slot) : Bool := s.w.getLsbD 11
/-- M: width [10:8] -/
def Slot.mw (s : Slot) : BitVec 3 := s.w.extractLsb' 8 3
/-- M: order [7:4] -/
def Slot.mord (s : Slot) : BitVec 4 := s.w.extractLsb' 4 4
/-- M: [3:0], a load's lookahead -/
def Slot.low4 (s : Slot) : BitVec 4 := s.w.extractLsb' 0 4
/-- M: a store's colour [2:0] -/
def Slot.colour (s : Slot) : BitVec 3 := s.w.extractLsb' 0 3
/-- A: op [10:7] -/
def Slot.aop (s : Slot) : BitVec 4 := s.w.extractLsb' 7 4
/-- A: order [6:3] -/
def Slot.aord (s : Slot) : BitVec 4 := s.w.extractLsb' 3 4
/-- A: size [2] -/
def Slot.asz (s : Slot) : Bool := s.w.getLsbD 2
/-- A: returning [1] -/
def Slot.aret (s : Slot) : Bool := s.w.getLsbD 1
/-- J: the displacement [22:0] -/
def Slot.disp (s : Slot) : BitVec 23 := s.w.extractLsb' 0 23

/-- Accept when `c` holds; else refuse with `e`. -/
def need (c : Bool) (e : DecErr) (i : Instr) : Except DecErr Instr := if c then .ok i else .error e

/-- Unused fields of a form are zero (R70, R74). -/
def unusedOk (c : Bool) (i : Instr) : Except DecErr Instr := need c .unusedField i

/-- Three v operands. -/
def Slot.r3 (s : Slot) (mk : PReg → VReg → VReg → VReg → Instr) : Except DecErr Instr :=
  unusedOk (s.xi == 0#5) (mk s.g s.d s.a s.b)

/-- The unary form: b is zero. -/
def Slot.r2 (s : Slot) (mk : PReg → VReg → VReg → Instr) : Except DecErr Instr :=
  unusedOk (s.xi == 0#5 && s.b == 0#7) (mk s.g s.d s.a)

/-- A long-latency form (R74): L in XI[3:0], XI[4] zero. -/
def Slot.r3la (s : Slot) (mk : PReg → VReg → VReg → VReg → BitVec 4 → Instr) : Except DecErr Instr :=
  unusedOk (s.xi.getLsbD 4 == false) (mk s.g s.d s.a s.b (s.xi.extractLsb' 0 4))

/-- A unary long-latency form. -/
def Slot.r2la (s : Slot) (mk : PReg → VReg → VReg → BitVec 4 → Instr) : Except DecErr Instr :=
  unusedOk (s.xi.getLsbD 4 == false && s.b == 0#7) (mk s.g s.d s.a (s.xi.extractLsb' 0 4))

/-- The I format with v operands: b is not a field. -/
def Slot.i2 (s : Slot) (mk : PReg → VReg → VReg → BitVec 13 → Instr) : Except DecErr Instr :=
  unusedOk (s.xb == 0#1) (mk s.g s.d s.a s.immI)

/-- A compare (R74): the predicate in d[2:0]. -/
def Slot.cmp (s : Slot) (mk : PReg → PReg → VReg → VReg → Instr) : Except DecErr Instr :=
  unusedOk (s.xi == 0#5 && s.d.extractLsb' 3 4 == 0#4) (mk s.g (s.d.extractLsb' 0 3) s.a s.b)

/-- Predicate logic with two sources (R74). -/
def Slot.p3 (s : Slot) (mk : PReg → PReg → PReg → PReg → Instr) : Except DecErr Instr :=
  unusedOk (s.xi == 0#5 && s.d.extractLsb' 3 4 == 0#4 && s.a.extractLsb' 3 4 == 0#4 && s.b.extractLsb' 3 4 == 0#4)
    (mk s.g (s.d.extractLsb' 0 3) (s.a.extractLsb' 0 3) (s.b.extractLsb' 0 3))

/-- Predicate logic with one source (R74). -/
def Slot.p2 (s : Slot) (mk : PReg → PReg → PReg → Instr) : Except DecErr Instr :=
  unusedOk (s.xi == 0#5 && s.d.extractLsb' 3 4 == 0#4 && s.a.extractLsb' 3 4 == 0#4 && s.b == 0#7)
    (mk s.g (s.d.extractLsb' 0 3) (s.a.extractLsb' 0 3))

/-- A packed 16-bit form: bit 3 of the minor is fmt (R136). -/
def Slot.h3 (s : Slot) (mk : PReg → VReg → VReg → VReg → Bool → Instr) : Except DecErr Instr :=
  unusedOk (s.xi == 0#5) (mk s.g s.d s.a s.b (s.minor.getLsbD 3))

/-- A conversion: the b field is the selector, XB and XI zero (R138). -/
def Slot.cv (s : Slot) (mk : PReg → VReg → VReg → BitVec 6 → Instr) : Except DecErr Instr :=
  unusedOk (s.xi == 0#5 && s.xb == 0#1) (mk s.g s.d s.a s.fb)

/-- A shuffle by an immediate k, 0 to 31 (R146). -/
def Slot.sh (s : Slot) (mk : PReg → VReg → VReg → BitVec 5 → Instr) : Except DecErr Instr :=
  if s.b.extractLsb' 5 2 == 0#2 then unusedOk (s.xi == 0#5) (mk s.g s.d s.a (s.b.extractLsb' 0 5)) else .error .immRange

/-- A vote into a v register (R147). -/
def Slot.voteV (s : Slot) (mk : PReg → VReg → PReg → Instr) : Except DecErr Instr :=
  unusedOk (s.xi == 0#5 && s.a.extractLsb' 3 4 == 0#4 && s.b == 0#7) (mk s.g s.d (s.a.extractLsb' 0 3))

/-- A per-string form takes guard p0 (R82). -/
def Slot.str (s : Slot) (r : Except DecErr Instr) : Except DecErr Instr := if s.g == 0#3 then r else .error .guardForm

/-- An s register index is below 64 (R73): its extension bit is zero. -/
def sIdxOk (x : BitVec 1) : Bool := x == 0#1

/-- Three s operands, per-string. -/
def Slot.s3 (s : Slot) (mk : SReg → SReg → SReg → Instr) : Except DecErr Instr :=
  s.str (if s.xi == 0#5 then need (sIdxOk s.xd && sIdxOk s.xa && sIdxOk s.xb) .regRange (mk s.fd s.fa s.fb) else .error .unusedField)

/-- Two s operands d and a, per-string; b zero. -/
def Slot.s2 (s : Slot) (mk : SReg → SReg → Instr) : Except DecErr Instr :=
  s.str (if s.xi == 0#5 && s.b == 0#7 then need (sIdxOk s.xd && sIdxOk s.xa) .regRange (mk s.fd s.fa) else .error .unusedField)

/-- Two s operands a and b, per-string; d zero. -/
def Slot.sab (s : Slot) (mk : SReg → SReg → Instr) : Except DecErr Instr :=
  s.str (if s.xi == 0#5 && s.d == 0#7 then need (sIdxOk s.xa && sIdxOk s.xb) .regRange (mk s.fa s.fb) else .error .unusedField)

/-- One s operand a, per-string; d and b zero. -/
def Slot.sa (s : Slot) (mk : SReg → Instr) : Except DecErr Instr :=
  s.str (if s.xi == 0#5 && s.d == 0#7 && s.b == 0#7 then need (sIdxOk s.xa) .regRange (mk s.fa) else .error .unusedField)

/-- One s operand d, per-string; a and b zero. -/
def Slot.sd (s : Slot) (mk : SReg → Instr) : Except DecErr Instr :=
  s.str (if s.xi == 0#5 && s.a == 0#7 && s.b == 0#7 then need (sIdxOk s.xd) .regRange (mk s.fd) else .error .unusedField)

/-- No operand, per-string: every other field zero. -/
def Slot.nul (s : Slot) (i : Instr) : Except DecErr Instr :=
  s.str (unusedOk (s.xi == 0#5 && s.d == 0#7 && s.a == 0#7 && s.b == 0#7) i)

/-- A guarded control form with no operand. -/
def Slot.gctl (s : Slot) (mk : PReg → Instr) : Except DecErr Instr :=
  unusedOk (s.xi == 0#5 && s.d == 0#7 && s.a == 0#7 && s.b == 0#7) (mk s.g)

/-- The scalar I format. -/
def Slot.si (s : Slot) (mk : SReg → SReg → BitVec 13 → Instr) : Except DecErr Instr :=
  s.str (if s.xb == 0#1 then need (sIdxOk s.xd && sIdxOk s.xa) .regRange (mk s.fd s.fa s.immI) else .error .unusedField)

/-- A load (R71 M format); its order is narrowed by `nar` (R79). -/
def Slot.ld (s : Slot) (nar : BitVec 4 → BitVec 4)
    (mk : PReg → VReg → BitVec 6 → Bool → BitVec 3 → BitVec 4 → BitVec 4 → BitVec 5 → Instr) : Except DecErr Instr :=
  unusedOk (s.xa == 0#1) (mk s.g s.d s.base s.vb s.mw (nar s.mord) s.low4 s.xi)

/-- A store: bit 3 is zero (R80). -/
def Slot.st (s : Slot) (nar : BitVec 4 → BitVec 4)
    (mk : PReg → VReg → BitVec 6 → Bool → BitVec 3 → BitVec 4 → BitVec 3 → BitVec 5 → Instr) : Except DecErr Instr :=
  unusedOk (s.xa == 0#1 && s.w.getLsbD 3 == false) (mk s.g s.d s.base s.vb s.mw (nar s.mord) s.colour s.xi)

/-- An atomic: bit 0 is zero (R81). -/
def Slot.at (s : Slot) (nar : BitVec 4 → BitVec 4)
    (mk : PReg → VReg → BitVec 6 → Bool → BitVec 4 → BitVec 4 → Bool → Bool → BitVec 5 → Instr) : Except DecErr Instr :=
  unusedOk (s.xa == 0#1 && s.w.getLsbD 0 == false) (mk s.g s.d s.base s.vb s.aop (nar s.aord) s.asz s.aret s.xi)

/-- A barrier form (R193): the slot number in a[3:0]. -/
def Slot.bar (s : Slot) (mk : BitVec 4 → Instr) : Except DecErr Instr :=
  s.str (unusedOk (s.xi == 0#5 && s.d == 0#7 && s.b == 0#7 && s.a.extractLsb' 4 3 == 0#3) (mk (s.a.extractLsb' 0 4)))

/-- A fence (R74): d zero, the scope in a, the colour mask in imm8. -/
def Slot.fence (s : Slot) (needMask0 : Bool) (mk : BitVec 6 → BitVec 8 → Instr) : Except DecErr Instr :=
  s.str (if s.e == 0#8 && s.fd == 0#6 then need (!needMask0 || s.imm8 == 0#8) .reservedCode (mk s.fa s.imm8) else .error .unusedField)

/-- `mmul`, `mmulz`, `mst` (R258): the tile in XD:d. -/
def Slot.tile (s : Slot) (mk : BitVec 7 → SReg → SReg → Instr) : Except DecErr Instr :=
  s.str (if s.xi == 0#5 then need (sIdxOk s.xa && sIdxOk s.xb) .regRange (mk s.d s.fa s.fb) else .error .unusedField)

/-- `rdx` and `wrx` (R243): the index in a[3:0]:b. -/
def Slot.sysIdx (s : Slot) : BitVec 10 := s.fa.extractLsb' 0 4 ++ s.fb

/-- The unused bits of `rdx` and `wrx` (R74). -/
def Slot.sysOk (s : Slot) : Bool := s.xa == 0#1 && s.xb == 0#1 && s.fa.extractLsb' 4 2 == 0#2

/-- R-format majors 0x01 to 0x0B (R91). -/
def decodeLane (s : Slot) : Except DecErr Instr :=
  match s.maj.toNat, s.minor.toNat with
  | 0x01, 0 => s.r3 .iadd
  | 0x01, 1 => s.r3 .isub
  | 0x01, 2 => s.r3 .imul
  | 0x01, 3 => s.r3 .imulhI
  | 0x01, 4 => s.r3 .imulhN
  | 0x01, 5 => s.r3 .iminI
  | 0x01, 6 => s.r3 .imaxI
  | 0x01, 7 => s.r3 .iminN
  | 0x01, 8 => s.r3 .imaxN
  | 0x01, 9 => s.r3 .iand
  | 0x01, 10 => s.r3 .ior
  | 0x01, 11 => s.r3 .ixor
  | 0x01, 12 => s.r3 .ishl
  | 0x01, 13 => s.r3 .ishr
  | 0x01, 14 => s.r3 .isra
  | 0x01, 15 => s.r3 .irot
  | 0x02, 0 => s.r2 .iabs
  | 0x02, 1 => s.r2 .ineg
  | 0x02, 2 => s.r2 .popc
  | 0x02, 3 => s.r2 .clz
  | 0x02, 4 => s.r2 .ctz
  | 0x02, 5 => s.r2 .brev
  | 0x02, 6 => s.r3 .bfe
  | 0x02, 7 => s.r3 .bfi
  | 0x02, 8 => s.r3 .iaddsI
  | 0x02, 9 => s.r3 .isubsI
  | 0x02, 10 => s.r3 .iaddsN
  | 0x02, 11 => s.r3 .isubsN
  | 0x02, 12 => s.r3 .imad
  | 0x02, 13 => s.r2 .mov
  | 0x05, 0 => s.cmp .ceq
  | 0x05, 1 => s.cmp .cne
  | 0x05, 2 => s.cmp .cltI
  | 0x05, 3 => s.cmp .cleI
  | 0x05, 4 => s.cmp .cltN
  | 0x05, 5 => s.cmp .cleN
  | 0x05, 6 => s.cmp .fceq
  | 0x05, 7 => s.cmp .fcne
  | 0x05, 8 => s.cmp .fclt
  | 0x05, 9 => s.cmp .fcle
  | 0x05, 10 => s.cmp .fcun
  | 0x06, 0 => s.p3 .pand
  | 0x06, 1 => s.p3 .por
  | 0x06, 2 => s.p3 .pxor
  | 0x06, 3 => s.p2 .pnot
  | 0x06, 4 => s.p2 .pmov
  | 0x07, 0 => s.r3 .fadd
  | 0x07, 1 => s.r3 .fsub
  | 0x07, 2 => s.r3 .fmul
  | 0x07, 3 => s.r3 .ffma
  | 0x07, 4 => s.r3 .fmin
  | 0x07, 5 => s.r3 .fmax
  | 0x07, 6 => s.r2 .fabs
  | 0x07, 7 => s.r2 .fneg
  | 0x07, 8 => s.r3la .fdiv
  | 0x07, 9 => s.r2la .fsqrt
  | 0x07, 10 => s.r2 .ffloor
  | 0x07, 11 => s.r2 .fceil
  | 0x07, 12 => s.r2 .ftrunc
  | 0x07, 13 => s.r2 .fround
  | 0x07, 14 => s.r3 .fcopysign
  | 0x08, 0 | 0x08, 8 => s.h3 .hadd2
  | 0x08, 1 | 0x08, 9 => s.h3 .hsub2
  | 0x08, 2 | 0x08, 10 => s.h3 .hmul2
  | 0x08, 3 | 0x08, 11 => s.h3 .hfma2
  | 0x08, 4 | 0x08, 12 => s.h3 .hmin2
  | 0x08, 5 | 0x08, 13 => s.h3 .hmax2
  | 0x08, 6 | 0x08, 14 => s.h3 .hcvt2
  | 0x09, 0 => s.cv .cvt
  | 0x09, 1 => s.cv .cvtSat
  | 0x09, 2 => s.cv .cvtEf
  | 0x09, 3 => s.cv .cvtPack
  | 0x0A, 0 => s.r3 .dp4I8
  | 0x0A, 1 => s.r3 .dp4N8
  | 0x0A, 2 => s.r3 .dp8I4
  | 0x0A, 3 => s.r3 .dp4E4m3
  | 0x0A, 4 => s.r3 .dp4E5m2
  | 0x0A, 5 => s.r3 .dp8E2m1
  | 0x0A, 6 => s.r3 .fscl
  | 0x0B, 0 => s.r3 .shfl
  | 0x0B, 1 => s.sh .shup
  | 0x0B, 2 => s.sh .shdn
  | 0x0B, 3 => s.sh .shx
  | 0x0B, 4 => s.sh .bcast
  | 0x0B, 5 => s.voteV .ballot
  | 0x0B, 6 => s.p2 .vany
  | 0x0B, 7 => s.p2 .vall
  | 0x0B, 8 => s.voteV .mpfx
  | 0x0B, 9 => s.r2la .redaddI
  | 0x0B, 10 => s.r2la .redmaxI
  | 0x0B, 11 => s.r2la .redaddF
  | 0x0B, 12 => s.r2la .redmaxF
  | _, _ => .error .badMinor

/-- The I-format major 0x03. -/
def decodeImm (s : Slot) : Except DecErr Instr :=
  match s.minorI.toNat with
  | 0 => s.i2 .iaddi
  | 1 => s.i2 .iandi
  | 2 => s.i2 .iori
  | 3 => s.i2 .ixori
  | 4 => s.i2 .ishli
  | 5 => s.i2 .ishri
  | 6 => s.i2 .israi
  | _ => s.i2 .imuli

/-- The K-format major 0x04 (R129). -/
def decodeConst (s : Slot) : Except DecErr Instr :=
  if s.xa == 0#1 && s.xb == 0#1 then
    match s.minorK.toNat with
    | 0 => .ok (.movk s.g s.d s.immKs)
    | 1 => .ok (.movh s.g s.d s.immKz)
    | 2 => s.str (need (sIdxOk s.xd) .regRange (.movkS s.fd s.immKs))
    | _ => s.str (need (sIdxOk s.xd) .regRange (.movhS s.fd s.immKz))
  else .error .unusedField

/-- Majors 0x0C and 0x0D (R240 to R242). -/
def decodeScalar (s : Slot) : Except DecErr Instr :=
  match s.minor.toNat with
  | 0 => s.s3 .sadd
  | 1 => s.s3 .ssub
  | 2 => s.s3 .smul
  | 3 => s.s3 .sand
  | 4 => s.s3 .sor
  | 5 => s.s3 .sxor
  | 6 => s.s3 .sshl
  | 7 => s.s3 .sshr
  | 8 => s.s3 .ssra
  | 9 => s.s3 .smin
  | 10 => s.s3 .smax
  | 11 => s.str (if s.xi == 0#5 then need (sIdxOk s.xd && sIdxOk s.xb) .regRange (.rdl s.fd s.a s.fb) else .error .unusedField)
  | 12 => s.str (if s.xi == 0#5 then need (sIdxOk s.xa && sIdxOk s.xb) .regRange (.wrl s.d s.fa s.fb) else .error .unusedField)
  | 13 => if s.xi == 0#5 && s.b == 0#7 then need (sIdxOk s.xa) .regRange (.bcs s.g s.d s.fa) else .error .unusedField
  | 14 => s.s2 .spopc
  | 15 => s.s2 .sclz
  | _ => .error .badMinor

/-- The scalar immediates, major 0x0D (R242). -/
def decodeScalarImm (s : Slot) : Except DecErr Instr :=
  match s.minorI.toNat with
  | 0 => s.si .saddi
  | 1 => s.si .sandi
  | 2 => s.si .sori
  | 3 => s.si .sshli
  | 4 => s.si .sshri
  | _ => .error .badMinor

/-- Major 0x12 (R225). -/
def decodeFlow (s : Slot) : Except DecErr Instr :=
  match s.minor.toNat with
  | 0 => s.sa .ret
  | 1 => s.sa .brx
  | 2 => s.str (if s.xi == 0#5 then need (sIdxOk s.xd && sIdxOk s.xb) .regRange (.jtab s.a s.fb s.fd) else .error .unusedField)
  | 3 => s.nul .mark
  | 4 => s.nul .join
  | 5 => s.gctl .exit
  | 6 => s.nul .yield
  | 7 => s.str (if s.xi == 0#5 && s.xd == 0#1 && s.xb == 0#1 then
                  need (sIdxOk s.xa) .regRange (.loop s.fa s.fd (s.fb.extractLsb' 0 3) (s.fb.extractLsb' 3 3))
                else .error .unusedField)
  | 8 => s.gctl .lquit
  | 9 => s.str (unusedOk (s.e == 0#8 && s.fd == 0#6) (.trap (s.fa ++ s.fb)))
  | 10 => s.nul .tret
  | 11 => s.nul .idle
  | _ => .error .badMinor

/-- Major 0x13 (R243, R249). -/
def decodeSystem (s : Slot) : Except DecErr Instr :=
  match s.minor.toNat with
  | 0 => s.str (unusedOk (s.sysOk && s.xi.getLsbD 4 == false) (.rdx s.d s.sysIdx (s.xi.extractLsb' 0 4)))
  | 1 => s.str (if s.sysOk && s.xi == 0#5 then need (sIdxOk s.xd) .regRange (.wrx s.fd s.sysIdx) else .error .unusedField)
  | 2 => s.sab .spinv
  | 3 => s.sab .flush
  | 4 => s.sab .inv
  | 5 => s.sab .hsamp
  | 6 => s.s2 .xmask
  | _ => .error .badMinor

/-- Major 0x21 (R191). -/
def decodeFence (s : Slot) : Except DecErr Instr :=
  match s.minorI.toNat with
  | 0 => s.fence false .fenceRel
  | 1 => s.fence true (fun sc _ => .fenceAcq sc)
  | 2 => s.fence true (fun sc _ => .fenceFull sc)
  | _ => .error .badMinor

/-- Major 0x22 (R193). -/
def decodeBarrier (s : Slot) : Except DecErr Instr :=
  match s.minor.toNat with
  | 0 => s.bar .barArr
  | 1 => s.bar .barWait
  | 2 => s.bar .barSync
  | 3 => s.str (if s.xi == 0#5 && s.d == 0#7 && s.a.extractLsb' 4 3 == 0#3 then
                  need (sIdxOk s.xb) .regRange (.barCnt (s.a.extractLsb' 0 4) s.fb)
                else .error .unusedField)
  | 4 => s.nul .gbar
  | _ => .error .badMinor

/-- Major 0x23 (R196): the path in d[2:0]. -/
def decodeWait (s : Slot) : Except DecErr Instr :=
  if s.g == 0#3 then
    if s.xi == 0#5 && s.xb == 0#1 && s.d.extractLsb' 3 4 == 0#4 then
      match s.minorI.toNat with
      | 0 => unusedOk (s.a == 0#7) (.waitcImm (s.fd.extractLsb' 0 3) s.imm8)
      | 1 => if s.imm8 == 0#8 then need (sIdxOk s.xa) .regRange (.waitcReg (s.fd.extractLsb' 0 3) s.fa) else .error .unusedField
      | _ => .error .badMinor
    else if 2 ≤ s.minorI.toNat then .error .badMinor else .error .unusedField
  else .error .guardForm

/-- Major 0x28 (R258). -/
def decodeMatrix (s : Slot) : Except DecErr Instr :=
  match s.minor.toNat with
  | 0 => s.sab .mload
  | 1 => s.tile .mmul
  | 2 => s.tile .mmulz
  | 3 => s.tile .mst
  | 4 => s.str (unusedOk (s.xi == 0#5 && s.a == 0#7 && s.b == 0#7) (.mclr s.d))
  | 5 => s.nul .mbatch
  | _ => .error .badMinor

/-- Major 0x29 (R257). -/
def decodeRecipe (s : Slot) : Except DecErr Instr :=
  if s.minorK == 0#2 then s.str (unusedOk (s.e == 0#8 && s.fd == 0#6 && s.w.extractLsb' 10 5 == 0#5) (.setrcp (s.w.extractLsb' 0 10)))
  else .error .badMinor

/-- Major 0x2A (R269). -/
def decodeJob (s : Slot) : Except DecErr Instr :=
  match s.minor.toNat with
  | 0 => s.sa .jobCpy
  | 1 => s.sa .jobGth
  | 2 => s.sa .jobCol
  | 3 => s.sa .jobMc
  | 4 => s.sd .jobq
  | _ => .error .badMinor

/-- Major 0x2C (R286). -/
def decodeWaybill (s : Slot) : Except DecErr Instr :=
  match s.minor.toNat with
  | 0 => s.nul .wbrec
  | 1 => s.nul .wbend
  | 2 => s.s3 .wbseal
  | 3 => s.sa .wbdrop
  | 4 => s.str (if s.xi == 0#5 && s.xa == 0#1 && s.xb == 0#1 && s.fa.extractLsb' 2 4 == 0#4 then
                  need (sIdxOk s.xd) .regRange (.ldarg s.fd (s.fa.extractLsb' 0 2 ++ s.fb))
                else .error .unusedField)
  | _ => .error .badMinor

/-- The remote verbs, major 0x24 (R197). -/
def decodeVerb (s : Slot) : Except DecErr Instr :=
  match s.minor.toNat with
  | 0 => s.s3 .put
  | 1 => s.s3 .get
  | 2 => s.s2 .sig
  | _ => .error .badMinor

/-- One nonzero slot that is no header, its fields read by its major (R88, R91), before the checks of
`Instr.formError`. -/
def decodeFields (s : Slot) : Except DecErr Instr :=
  match s.maj.toNat with
  | 0x01 | 0x02 | 0x05 | 0x06 | 0x07 | 0x08 | 0x09 | 0x0A | 0x0B => decodeLane s
  | 0x03 => decodeImm s
  | 0x04 => decodeConst s
  | 0x0C => decodeScalar s
  | 0x0D => decodeScalarImm s
  | 0x10 => unusedOk (s.e == 0#8) (.bra s.g s.disp)
  | 0x11 => s.str (unusedOk (s.e == 0#8) (.call s.disp))
  | 0x12 => decodeFlow s
  | 0x13 => decodeSystem s
  | 0x18 => s.ld id .ldG
  | 0x19 => s.st id .stG
  | 0x1A => s.ld narrowPantry .ldP
  | 0x1B => s.st narrowPantry .stP
  | 0x1C => s.ld narrowBench .ldB
  | 0x1D => s.st narrowBench .stB
  | 0x1E => s.at id .atomG
  | 0x1F => s.at narrowPantry .atomP
  | 0x20 => s.at narrowBench .atomB
  | 0x21 => decodeFence s
  | 0x22 => decodeBarrier s
  | 0x23 => decodeWait s
  | 0x24 => decodeVerb s
  | 0x28 => decodeMatrix s
  | 0x29 => decodeRecipe s
  | 0x2A => decodeJob s
  | 0x2C => decodeWaybill s
  | _ => .error .badMajor

/-- The OPCODE half of DecodeSlot (R88): the instruction, or the reason that raises OPCODE. -/
def decodeSlotForm (c : DecCtx) (s : Slot) : Except DecErr Instr :=
  if s.w = 0#32 then (if s.e = 0#8 then .ok .nop else .error .unusedField)
  else
    match decodeFields s with
    | .error e => .error e
    | .ok i =>
      match i.formError c with
      | some e => .error e
      | none => .ok i

/-- DecodeSlot (R88): ILLEGAL_ORDER comes after every OPCODE case (R86). -/
def decodeSlot (c : DecCtx) (s : Slot) : Except DecErr Instr :=
  match decodeSlotForm c s with
  | .error e => .error e
  | .ok i => if i.orderIllegal then .error .illegalOrder else .ok i

/-- A decoded bundle: P and B of its header (R69) and its instruction slots with their slot numbers. -/
structure Bundle where
  proof : Bool
  boundary : Bool
  slots : List (Nat × Instr)
  deriving DecidableEq, Repr

/-- A decode trap: the reason and the slot it is reported for (R86, R205 ISLOT). -/
structure BundleErr where
  err : DecErr
  slot : Nat
  deriving DecidableEq, Repr

/-- The header word's E1, E2, E3 (R69). -/
def headerExt (h : BitVec 32) (k : Nat) : BitVec 8 :=
  match k with
  | 1 => h.extractLsb' 16 8
  | 2 => h.extractLsb' 8 8
  | 3 => h.extractLsb' 0 8
  | _ => 0#8

/-- MAJOR 0x3F (R69). -/
def isHeader (w : BitVec 32) : Bool := w.extractLsb' 26 6 == 0x3F#6

/-- Decode the slots in order, keeping the first OPCODE error with its slot. -/
def decodeSlots (c : DecCtx) (h : BitVec 32) (hdr : Bool) : List (Nat × BitVec 32) → Except BundleErr (List (Nat × Instr))
  | [] => .ok []
  | (k, w) :: rest =>
    match decodeSlotForm c { w := w, e := if hdr then headerExt h k else 0#8, hdr := hdr } with
    | .error e => .error { err := e, slot := k }
    | .ok i =>
      match decodeSlots c h hdr rest with
      | .error e => .error e
      | .ok is => .ok ((k, i) :: is)

/-- How many slots of a class the list holds. -/
def countCls (cl : Cls) (is : List (Nat × Instr)) : Nat := (is.filter (fun x => x.2.cls == some cl)).length

/-- The limits of R83 on a prefix of the bundle: at most one X, M and S, two V; an X slot is the last non-nop slot. -/
def limitsOk (is : List (Nat × Instr)) : Bool :=
  decide (countCls .x is ≤ 1) && decide (countCls .m is ≤ 1) && decide (countCls .v is ≤ 2) && decide (countCls .s is ≤ 1) &&
    ((is.filter (fun x => x.2 != .nop)).dropLast.all (fun x => x.2.cls != some .x))

/-- Does `i` write a register that an earlier slot writes (R85)? -/
def writesAgain (is : List (Nat × Instr)) (i : Instr) : Bool :=
  i.writes.any (fun r => is.any (fun x => x.2.writes.contains r))

/-- CheckComposition (R83, R85): the lowest-numbered slot that breaks a limit or writes a register again. -/
def checkComposition : (before after : List (Nat × Instr)) → Option BundleErr
  | _, [] => none
  | before, (k, i) :: rest =>
    if limitsOk (before ++ [(k, i)]) = false then some { err := .composition, slot := k }
    else if writesAgain before i then some { err := .doubleWrite, slot := k }
    else checkComposition (before ++ [(k, i)]) rest

/-- The OPCODE half of DecodeBundle (R88) on the four words of a bundle, slot 0 first. -/
def decodeForms (c : DecCtx) (w0 w1 w2 w3 : BitVec 32) : Except BundleErr Bundle :=
  if isHeader w1 then .error { err := .badMajor, slot := 1 }
  else if isHeader w2 then .error { err := .badMajor, slot := 2 }
  else if isHeader w3 then .error { err := .badMajor, slot := 3 }
  else
    let hdr := isHeader w0
    match decodeSlots c w0 hdr (if hdr then [(1, w1), (2, w2), (3, w3)] else [(0, w0), (1, w1), (2, w2), (3, w3)]) with
    | .error e => .error e
    | .ok is =>
      match checkComposition [] is with
      | some e => .error e
      | none => .ok { proof := hdr && w0.getLsbD 25, boundary := hdr && w0.getLsbD 24, slots := is }

/-- ILLEGAL_ORDER of a bundle (R78), which every OPCODE cause precedes (R86). -/
def Bundle.orderError (b : Bundle) : Option BundleErr :=
  (b.slots.find? (fun x => x.2.orderIllegal)).map (fun x => { err := .illegalOrder, slot := x.1 })

/-- DecodeBundle (R88) with the trap priority of R86. -/
def decodeBundle (c : DecCtx) (w0 w1 w2 w3 : BitVec 32) : Except BundleErr Bundle :=
  match decodeForms c w0 w1 w2 w3 with
  | .error e => .error e
  | .ok b =>
    match b.orderError with
    | some e => .error e
    | none => .ok b

/-- The instruction the decoder reads from a slot word with no header, in the widest context: `nbits` is 32 for every
row of the opcode table that has an encoding, and the word stands in slot 0 of a bundle whose other slots are nop. -/
def decodeTableWord (nbits w : Nat) : Option Instr :=
  if nbits = 32 then
    match decodeBundle DecCtx.full (BitVec.ofNat 32 w) 0#32 0#32 0#32 with
    | .ok b =>
      match b.slots with
      | (0, i) :: _ => some i
      | _ => none
    | .error _ => none
  else none

/-! The encoder: the word and the extension byte of a slot, as R70 and R71 lay them out, in a bundle with a header. -/

/-- The R format (R71). -/
def packR (maj : BitVec 6) (g : PReg) (d a b : BitVec 7) (minor xi : BitVec 5) : Slot :=
  { w := maj ++ g ++ d.extractLsb' 0 6 ++ a.extractLsb' 0 6 ++ b.extractLsb' 0 6 ++ minor
    e := d.extractLsb' 6 1 ++ a.extractLsb' 6 1 ++ b.extractLsb' 6 1 ++ xi
    hdr := true }

/-- The I format (R71, R72). -/
def packI (maj : BitVec 6) (g : PReg) (d a : BitVec 7) (minor : BitVec 3) (imm : BitVec 13) : Slot :=
  { w := maj ++ g ++ d.extractLsb' 0 6 ++ a.extractLsb' 0 6 ++ minor ++ imm.extractLsb' 0 8
    e := d.extractLsb' 6 1 ++ a.extractLsb' 6 1 ++ 0#1 ++ imm.extractLsb' 8 5
    hdr := true }

/-- The K format (R71, R72). -/
def packK (maj : BitVec 6) (g : PReg) (d : BitVec 7) (minor : BitVec 2) (imm : BitVec 20) : Slot :=
  { w := maj ++ g ++ d.extractLsb' 0 6 ++ minor ++ imm.extractLsb' 0 15
    e := d.extractLsb' 6 1 ++ 0#2 ++ imm.extractLsb' 15 5
    hdr := true }

/-- The M format (R71). -/
def packM (maj : BitVec 6) (g : PReg) (d : BitVec 7) (base : BitVec 6) (vb : Bool) (w : BitVec 3) (ord low : BitVec 4)
    (off : BitVec 5) : Slot :=
  { w := maj ++ g ++ d.extractLsb' 0 6 ++ base.extractLsb' 0 5 ++ BitVec.ofBool vb ++ w ++ ord ++ low
    e := d.extractLsb' 6 1 ++ 0#1 ++ base.extractLsb' 5 1 ++ off
    hdr := true }

/-- The A format (R71). -/
def packA (maj : BitVec 6) (g : PReg) (d : BitVec 7) (base : BitVec 6) (vb : Bool) (op ord : BitVec 4) (sz rt : Bool)
    (off : BitVec 5) : Slot :=
  { w := maj ++ g ++ d.extractLsb' 0 6 ++ base.extractLsb' 0 5 ++ BitVec.ofBool vb ++ op ++ ord ++ BitVec.ofBool sz ++ BitVec.ofBool rt ++ 0#1
    e := d.extractLsb' 6 1 ++ 0#1 ++ base.extractLsb' 5 1 ++ off
    hdr := true }

/-- The J format (R71). -/
def packJ (maj : BitVec 6) (g : PReg) (disp : BitVec 23) : Slot := { w := maj ++ g ++ disp, e := 0#8, hdr := true }

/-- An s index as a 7-bit register field. -/
def s7 (r : SReg) : BitVec 7 := 0#1 ++ r
/-- A predicate index as a 7-bit register field. -/
def p7 (r : PReg) : BitVec 7 := 0#4 ++ r

/-- The word and extension byte of a slot instruction; an event has none. -/
def encode : Instr → Slot
  | .nop => { w := 0#32, e := 0#8, hdr := true }
  | .iadd g d a b => packR 0x01 g d a b 0 0
  | .isub g d a b => packR 0x01 g d a b 1 0
  | .imul g d a b => packR 0x01 g d a b 2 0
  | .imulhI g d a b => packR 0x01 g d a b 3 0
  | .imulhN g d a b => packR 0x01 g d a b 4 0
  | .iminI g d a b => packR 0x01 g d a b 5 0
  | .imaxI g d a b => packR 0x01 g d a b 6 0
  | .iminN g d a b => packR 0x01 g d a b 7 0
  | .imaxN g d a b => packR 0x01 g d a b 8 0
  | .iand g d a b => packR 0x01 g d a b 9 0
  | .ior g d a b => packR 0x01 g d a b 10 0
  | .ixor g d a b => packR 0x01 g d a b 11 0
  | .ishl g d a b => packR 0x01 g d a b 12 0
  | .ishr g d a b => packR 0x01 g d a b 13 0
  | .isra g d a b => packR 0x01 g d a b 14 0
  | .irot g d a b => packR 0x01 g d a b 15 0
  | .iabs g d a => packR 0x02 g d a 0 0 0
  | .ineg g d a => packR 0x02 g d a 0 1 0
  | .popc g d a => packR 0x02 g d a 0 2 0
  | .clz g d a => packR 0x02 g d a 0 3 0
  | .ctz g d a => packR 0x02 g d a 0 4 0
  | .brev g d a => packR 0x02 g d a 0 5 0
  | .bfe g d a b => packR 0x02 g d a b 6 0
  | .bfi g d a b => packR 0x02 g d a b 7 0
  | .iaddsI g d a b => packR 0x02 g d a b 8 0
  | .isubsI g d a b => packR 0x02 g d a b 9 0
  | .iaddsN g d a b => packR 0x02 g d a b 10 0
  | .isubsN g d a b => packR 0x02 g d a b 11 0
  | .imad g d a b => packR 0x02 g d a b 12 0
  | .mov g d a => packR 0x02 g d a 0 13 0
  | .iaddi g d a imm => packI 0x03 g d a 0 imm
  | .iandi g d a imm => packI 0x03 g d a 1 imm
  | .iori g d a imm => packI 0x03 g d a 2 imm
  | .ixori g d a imm => packI 0x03 g d a 3 imm
  | .ishli g d a imm => packI 0x03 g d a 4 imm
  | .ishri g d a imm => packI 0x03 g d a 5 imm
  | .israi g d a imm => packI 0x03 g d a 6 imm
  | .imuli g d a imm => packI 0x03 g d a 7 imm
  | .movk g d imm => packK 0x04 g d 0 imm
  | .movh g d imm => packK 0x04 g d 1 imm
  | .movkS d imm => packK 0x04 0 (s7 d) 2 imm
  | .movhS d imm => packK 0x04 0 (s7 d) 3 imm
  | .ceq g p a b => packR 0x05 g (p7 p) a b 0 0
  | .cne g p a b => packR 0x05 g (p7 p) a b 1 0
  | .cltI g p a b => packR 0x05 g (p7 p) a b 2 0
  | .cleI g p a b => packR 0x05 g (p7 p) a b 3 0
  | .cltN g p a b => packR 0x05 g (p7 p) a b 4 0
  | .cleN g p a b => packR 0x05 g (p7 p) a b 5 0
  | .fceq g p a b => packR 0x05 g (p7 p) a b 6 0
  | .fcne g p a b => packR 0x05 g (p7 p) a b 7 0
  | .fclt g p a b => packR 0x05 g (p7 p) a b 8 0
  | .fcle g p a b => packR 0x05 g (p7 p) a b 9 0
  | .fcun g p a b => packR 0x05 g (p7 p) a b 10 0
  | .pand g d a b => packR 0x06 g (p7 d) (p7 a) (p7 b) 0 0
  | .por g d a b => packR 0x06 g (p7 d) (p7 a) (p7 b) 1 0
  | .pxor g d a b => packR 0x06 g (p7 d) (p7 a) (p7 b) 2 0
  | .pnot g d a => packR 0x06 g (p7 d) (p7 a) 0 3 0
  | .pmov g d a => packR 0x06 g (p7 d) (p7 a) 0 4 0
  | .fadd g d a b => packR 0x07 g d a b 0 0
  | .fsub g d a b => packR 0x07 g d a b 1 0
  | .fmul g d a b => packR 0x07 g d a b 2 0
  | .ffma g d a b => packR 0x07 g d a b 3 0
  | .fmin g d a b => packR 0x07 g d a b 4 0
  | .fmax g d a b => packR 0x07 g d a b 5 0
  | .fabs g d a => packR 0x07 g d a 0 6 0
  | .fneg g d a => packR 0x07 g d a 0 7 0
  | .fdiv g d a b la => packR 0x07 g d a b 8 (0#1 ++ la)
  | .fsqrt g d a la => packR 0x07 g d a 0 9 (0#1 ++ la)
  | .ffloor g d a => packR 0x07 g d a 0 10 0
  | .fceil g d a => packR 0x07 g d a 0 11 0
  | .ftrunc g d a => packR 0x07 g d a 0 12 0
  | .fround g d a => packR 0x07 g d a 0 13 0
  | .fcopysign g d a b => packR 0x07 g d a b 14 0
  | .hadd2 g d a b hf => packR 0x08 g d a b (0#1 ++ BitVec.ofBool hf ++ 0#3) 0
  | .hsub2 g d a b hf => packR 0x08 g d a b (0#1 ++ BitVec.ofBool hf ++ 1#3) 0
  | .hmul2 g d a b hf => packR 0x08 g d a b (0#1 ++ BitVec.ofBool hf ++ 2#3) 0
  | .hfma2 g d a b hf => packR 0x08 g d a b (0#1 ++ BitVec.ofBool hf ++ 3#3) 0
  | .hmin2 g d a b hf => packR 0x08 g d a b (0#1 ++ BitVec.ofBool hf ++ 4#3) 0
  | .hmax2 g d a b hf => packR 0x08 g d a b (0#1 ++ BitVec.ofBool hf ++ 5#3) 0
  | .hcvt2 g d a b hf => packR 0x08 g d a b (0#1 ++ BitVec.ofBool hf ++ 6#3) 0
  | .cvt g d a sel => packR 0x09 g d a (0#1 ++ sel) 0 0
  | .cvtSat g d a sel => packR 0x09 g d a (0#1 ++ sel) 1 0
  | .cvtEf g d a sel => packR 0x09 g d a (0#1 ++ sel) 2 0
  | .cvtPack g d a sel => packR 0x09 g d a (0#1 ++ sel) 3 0
  | .dp4I8 g d a b => packR 0x0A g d a b 0 0
  | .dp4N8 g d a b => packR 0x0A g d a b 1 0
  | .dp8I4 g d a b => packR 0x0A g d a b 2 0
  | .dp4E4m3 g d a b => packR 0x0A g d a b 3 0
  | .dp4E5m2 g d a b => packR 0x0A g d a b 4 0
  | .dp8E2m1 g d a b => packR 0x0A g d a b 5 0
  | .fscl g d a b => packR 0x0A g d a b 6 0
  | .shfl g d a b => packR 0x0B g d a b 0 0
  | .shup g d a k => packR 0x0B g d a (0#2 ++ k) 1 0
  | .shdn g d a k => packR 0x0B g d a (0#2 ++ k) 2 0
  | .shx g d a k => packR 0x0B g d a (0#2 ++ k) 3 0
  | .bcast g d a k => packR 0x0B g d a (0#2 ++ k) 4 0
  | .ballot g d p => packR 0x0B g d (p7 p) 0 5 0
  | .vany g q p => packR 0x0B g (p7 q) (p7 p) 0 6 0
  | .vall g q p => packR 0x0B g (p7 q) (p7 p) 0 7 0
  | .mpfx g d p => packR 0x0B g d (p7 p) 0 8 0
  | .redaddI g d a la => packR 0x0B g d a 0 9 (0#1 ++ la)
  | .redmaxI g d a la => packR 0x0B g d a 0 10 (0#1 ++ la)
  | .redaddF g d a la => packR 0x0B g d a 0 11 (0#1 ++ la)
  | .redmaxF g d a la => packR 0x0B g d a 0 12 (0#1 ++ la)
  | .sadd d a b => packR 0x0C 0 (s7 d) (s7 a) (s7 b) 0 0
  | .ssub d a b => packR 0x0C 0 (s7 d) (s7 a) (s7 b) 1 0
  | .smul d a b => packR 0x0C 0 (s7 d) (s7 a) (s7 b) 2 0
  | .sand d a b => packR 0x0C 0 (s7 d) (s7 a) (s7 b) 3 0
  | .sor d a b => packR 0x0C 0 (s7 d) (s7 a) (s7 b) 4 0
  | .sxor d a b => packR 0x0C 0 (s7 d) (s7 a) (s7 b) 5 0
  | .sshl d a b => packR 0x0C 0 (s7 d) (s7 a) (s7 b) 6 0
  | .sshr d a b => packR 0x0C 0 (s7 d) (s7 a) (s7 b) 7 0
  | .ssra d a b => packR 0x0C 0 (s7 d) (s7 a) (s7 b) 8 0
  | .smin d a b => packR 0x0C 0 (s7 d) (s7 a) (s7 b) 9 0
  | .smax d a b => packR 0x0C 0 (s7 d) (s7 a) (s7 b) 10 0
  | .rdl d a b => packR 0x0C 0 (s7 d) a (s7 b) 11 0
  | .wrl d a b => packR 0x0C 0 d (s7 a) (s7 b) 12 0
  | .bcs g d a => packR 0x0C g d (s7 a) 0 13 0
  | .spopc d a => packR 0x0C 0 (s7 d) (s7 a) 0 14 0
  | .sclz d a => packR 0x0C 0 (s7 d) (s7 a) 0 15 0
  | .saddi d a imm => packI 0x0D 0 (s7 d) (s7 a) 0 imm
  | .sandi d a imm => packI 0x0D 0 (s7 d) (s7 a) 1 imm
  | .sori d a imm => packI 0x0D 0 (s7 d) (s7 a) 2 imm
  | .sshli d a imm => packI 0x0D 0 (s7 d) (s7 a) 3 imm
  | .sshri d a imm => packI 0x0D 0 (s7 d) (s7 a) 4 imm
  | .bra g disp => packJ 0x10 g disp
  | .call disp => packJ 0x11 0 disp
  | .ret a => packR 0x12 0 0 (s7 a) 0 0 0
  | .brx a => packR 0x12 0 0 (s7 a) 0 1 0
  | .jtab a b c => packR 0x12 0 (s7 c) a (s7 b) 2 0
  | .mark => packR 0x12 0 0 0 0 3 0
  | .join => packR 0x12 0 0 0 0 4 0
  | .exit g => packR 0x12 g 0 0 0 5 0
  | .yield => packR 0x12 0 0 0 0 6 0
  | .loop a n1 k1 q => packR 0x12 0 (0#1 ++ n1) (s7 a) (0#1 ++ q ++ k1) 7 0
  | .lquit g => packR 0x12 g 0 0 0 8 0
  | .trap code => packR 0x12 0 0 (0#1 ++ code.extractLsb' 6 6) (0#1 ++ code.extractLsb' 0 6) 9 0
  | .tret => packR 0x12 0 0 0 0 10 0
  | .idle => packR 0x12 0 0 0 0 11 0
  | .rdx d idx la => packR 0x13 0 d (0#3 ++ idx.extractLsb' 6 4) (0#1 ++ idx.extractLsb' 0 6) 0 (0#1 ++ la)
  | .wrx d idx => packR 0x13 0 (s7 d) (0#3 ++ idx.extractLsb' 6 4) (0#1 ++ idx.extractLsb' 0 6) 1 0
  | .spinv a b => packR 0x13 0 0 (s7 a) (s7 b) 2 0
  | .flush a b => packR 0x13 0 0 (s7 a) (s7 b) 3 0
  | .inv a b => packR 0x13 0 0 (s7 a) (s7 b) 4 0
  | .hsamp a b => packR 0x13 0 0 (s7 a) (s7 b) 5 0
  | .xmask d a => packR 0x13 0 (s7 d) (s7 a) 0 6 0
  | .ldG g d base vb w ord la off => packM 0x18 g d base vb w ord la off
  | .stG g d base vb w ord colour off => packM 0x19 g d base vb w ord (0#1 ++ colour) off
  | .ldP g d base vb w ord la off => packM 0x1A g d base vb w ord la off
  | .stP g d base vb w ord colour off => packM 0x1B g d base vb w ord (0#1 ++ colour) off
  | .ldB g d base vb w ord la off => packM 0x1C g d base vb w ord la off
  | .stB g d base vb w ord colour off => packM 0x1D g d base vb w ord (0#1 ++ colour) off
  | .atomG g d base vb op ord sz rt off => packA 0x1E g d base vb op ord sz rt off
  | .atomP g d base vb op ord sz rt off => packA 0x1F g d base vb op ord sz rt off
  | .atomB g d base vb op ord sz rt off => packA 0x20 g d base vb op ord sz rt off
  | .fenceRel scope mask => packI 0x21 0 0 (0#1 ++ scope) 0 (0#5 ++ mask)
  | .fenceAcq scope => packI 0x21 0 0 (0#1 ++ scope) 1 0
  | .fenceFull scope => packI 0x21 0 0 (0#1 ++ scope) 2 0
  | .barArr k => packR 0x22 0 0 (0#3 ++ k) 0 0 0
  | .barWait k => packR 0x22 0 0 (0#3 ++ k) 0 1 0
  | .barSync k => packR 0x22 0 0 (0#3 ++ k) 0 2 0
  | .barCnt k b => packR 0x22 0 0 (0#3 ++ k) (s7 b) 3 0
  | .gbar => packR 0x22 0 0 0 0 4 0
  | .waitcImm p n => packI 0x23 0 (p7 p) 0 0 (0#5 ++ n)
  | .waitcReg p a => packI 0x23 0 (p7 p) (s7 a) 1 0
  | .put d a b => packR 0x24 0 (s7 d) (s7 a) (s7 b) 0 0
  | .get d a b => packR 0x24 0 (s7 d) (s7 a) (s7 b) 1 0
  | .sig d a => packR 0x24 0 (s7 d) (s7 a) 0 2 0
  | .mload a b => packR 0x28 0 0 (s7 a) (s7 b) 0 0
  | .mmul t a b => packR 0x28 0 t (s7 a) (s7 b) 1 0
  | .mmulz t a b => packR 0x28 0 t (s7 a) (s7 b) 2 0
  | .mst t a b => packR 0x28 0 t (s7 a) (s7 b) 3 0
  | .mclr t => packR 0x28 0 t 0 0 4 0
  | .mbatch => packR 0x28 0 0 0 0 5 0
  | .setrcp r => packK 0x29 0 0 0 (0#10 ++ r)
  | .jobCpy a => packR 0x2A 0 0 (s7 a) 0 0 0
  | .jobGth a => packR 0x2A 0 0 (s7 a) 0 1 0
  | .jobCol a => packR 0x2A 0 0 (s7 a) 0 2 0
  | .jobMc a => packR 0x2A 0 0 (s7 a) 0 3 0
  | .jobq d => packR 0x2A 0 (s7 d) 0 0 4 0
  | .wbrec => packR 0x2C 0 0 0 0 0 0
  | .wbend => packR 0x2C 0 0 0 0 1 0
  | .wbseal d a b => packR 0x2C 0 (s7 d) (s7 a) (s7 b) 2 0
  | .wbdrop a => packR 0x2C 0 0 (s7 a) 0 3 0
  | .ldarg d k => packR 0x2C 0 (s7 d) (0#5 ++ k.extractLsb' 6 2) (0#1 ++ k.extractLsb' 0 6) 4 0
  | _ => { w := 0#32, e := 0#8, hdr := true }

end Sys2Proof
end

