-- ==== Sys2Proof/Config.lean ====
section
/-! DEFINITION. What an implementation of the AF8800 fixes and what the manual leaves open: every constant here is opaque,
so no statement can rest on its value. Each names the rule that leaves it open. -/

namespace Sys2Proof

/-- What a caravan object records of one bale (R352): its code, requirement directives, entry bundle and argument count, and
where the object holds its segment table and each segment's bundles. -/
structure BaleHdr where
  code : Nat
  strings : Nat
  regs : Nat
  bench : Nat
  tiles : Nat
  bars : Nat
  entry : Nat
  nargs : Nat
  tableAt : Nat
  nseg : Nat
  codeAt : List Nat
  deriving DecidableEq, Repr

end Sys2Proof

namespace Sys2Proof.Config
open Sys2Proof

/-- The bale table of a caravan object (R352 gives what it records and not its bytes). -/
opaque objBales (obj : List Byte) : List BaleHdr

/-- Which of `n` candidate acts comes next at choice number `i` (latencies and interleavings: R5, R45, R47, R161, R170);
used modulo `n`. -/
opaque pick (i n : Nat) : Nat

/-- The reference clock advances freely between acts (R247): ticks passed at free value `i`. -/
opaque ticks (i : Nat) : Word64

/-- The snoop-filter set of a line (R322). -/
opaque snoopSet (dom line : Nat) : Nat

/-- The 64 KiB unit at which LOAD places a bale (R354), at free value `i`. -/
opaque baleUnit (i : Nat) : BitVec 32

/-- Whether the measured power allows a core's gain of one clock step (R31, R55), at free value `i`. -/
opaque powerAllows (i : Nat) : Bool

/-- The 256 KiB unit of host addresses at which the host places BAR 2 (R338). -/
opaque bar2Unit : BitVec 46

/-- The bring-up failure code (R339): nonzero when used. -/
opaque failCode (i : Nat) : BitVec 8

/-- SHAKE256 with 512 bits of output (R353). -/
opaque shake512 (bytes : List Byte) : BitVec 512

/-- AES-256-XTS encryption of one 16-byte block under a key pair with a tweak (R354). -/
opaque aesXts (key : List Byte) (tweak : Nat) (plain : List Byte) : List Byte

/-- A 64-bit KMAC256 tag (R354). -/
opaque kmac64 (key : List Byte) (bytes : List Byte) : BitVec 64

/-- SLH-DSA-SHAKE-256s verification of a signature over a measurement under a public key (R354). -/
opaque sigVerifies (key : List Byte) (meas : BitVec 512) (sig : List Byte) : Bool

/-- The signature of R356 under the module's device key, 29,792 bytes. -/
opaque deviceSign (bytes : List Byte) : List Byte

/-- The executive firmware's measurement (R356). -/
opaque firmwareMeas : BitVec 512

/-- EXPORT's encryption under a context's export key, a byte at a place of the exported image (R358). -/
opaque exportByte (key : List Byte) (i : Nat) (b : Byte) : Byte

/-- The size of a band's exported save area image is that of R218; the order of the parts of an export image is open
(R358): the byte at place `i` of the part's image. -/
opaque saveImage (part i : Nat) : Byte

/-- The frame that firmware gives a page of the device-OS region beyond the fixed spread is its own (R361). -/
opaque domainOf (page : Nat) : Nat

/-- A free 64-bit value, for a value that the manual leaves open. -/
opaque freeWord (i : Nat) : Word64

/-- A free truth value. -/
opaque freeBool (i : Nat) : Bool

/-- A free truth value for the part `g` of an access, at choice `i`. -/
opaque freeBit (i g : Nat) : Bool

end Sys2Proof.Config
end

