-- ==== Sys2Proof/Machine/State.lean ====
section
/-! DEFINITION. The state of one AF8800 module, as plain data: strings, bands, cores, dies, the serai, its memories, the
fabric, and what is in flight between them. INVENTORY.md lists every piece with the rule that names it. -/

namespace Sys2Proof.Machine
open Sys2Proof

/-- A sparse map from numbers: keys strictly rising, and no entry equal to the default that an unlisted key reads as. -/
abbrev SMap (α : Type) := List (Nat × α)

/-- The bytes of a memory: (address, byte), addresses strictly rising, no byte equal to 0, which an unlisted address reads as. -/
abbrev Memory := List Host.Cell

/-- A live path: a bundle address and a nonzero lane mask (R39); `bad` when it was moved to a bundle index that is not
less than the bale's length, where a fetch delivers OPCODE (R224). -/
structure Path where
  pc : Word64
  mask : Word32
  bad : Bool := false
  deriving DecidableEq, Repr

/-- A divergence stack record (R41). -/
inductive Rec where
  /-- a waiting path -/
  | path (pc : Word64) (mask : Word32)
  /-- a rejoin record: arrived mask, bundle index of the latest `join` (zero while nothing arrived), expected mask -/
  | rejoin (arrived : Word32) (joinIdx : Word32) (expected : Word32)
  deriving DecidableEq, Repr

/-- Which part of an argument word a tag names (R289). -/
inductive Part where
  | full | lo | hi
  deriving DecidableEq, Repr

/-- An origin tag (R289). -/
inductive Tag where
  | plan
  | data
  | arg (k : Nat) (c : Word64) (part : Part)
  deriving DecidableEq, Repr

/-- The three addressed spaces (R21); the accumulator is reached by tile index only. -/
inductive Space where
  | glob | pantry | bench
  deriving DecidableEq, Repr

/-- Bytes named by an access: space, first address, length. A pantry address stands resolved to die × 2^27 + offset, a
global one is the virtual address. -/
structure Foot where
  sp : Space
  a : Nat
  n : Nat
  deriving DecidableEq, Repr

/-- The recipe register with its delayed write (R112, R114): the value matrix instructions see, the value written and how
many issued bundles remain before it takes effect. -/
structure Recipe where
  seen : BitVec 10 := 0#10
  new : BitVec 10 := 0#10
  left : Nat := 0
  deriving DecidableEq, Repr

/-- The loop state of R238, R239, with the bundle index of the `loop` bundle and the admitted iterations still in a stage:
`adm` holds the passes that admitted one, newest first. `slotB` names the slot whose path runs it. -/
structure LoopSt where
  act : Bool := false
  quit : Bool := false
  rem : Nat := 0
  pass : Nat := 0
  n1 : Nat := 0
  k1 : Nat := 0
  q : Nat := 0
  base : Nat := 0
  adm : List Nat := []
  slotB : Bool := false
  /-- the stage predicates' tag of R290 -/
  tag : Tag := .plan
  /-- admission was stopped by a pre-emption request and by no `lquit` (R237) -/
  pre : Bool := false
  /-- drained for a pre-emption: at restoration it refills from its prologue (R215) -/
  refill : Bool := false
  deriving DecidableEq, Repr

/-- An entry of the undo record (R58). -/
inductive Undo where
  /-- a v register's lanes with their tags -/
  | v (r : Nat) (old : List Word32) (tags : List Tag)
  | s (r : Nat) (old : Word64) (tag : Tag)
  | p (r : Nat) (old : Word32) (tags : List Tag)
  /-- a system register by its index (R245) -/
  | sys (idx : Nat) (old : Word64)
  | rcp (old : Recipe)
  /-- a push, a pop or a change in place: the stack as it stood, and the handler's depth mark -/
  | stack (old : List Rec) (depth : Nat)
  /-- the loop state with the predicates as they stood: stage predicates take no entry of their own (R238) -/
  | loop (old : LoopSt) (prs : SMap Word32) (tags : SMap Tag)
  deriving DecidableEq, Repr

/-- One written byte of a withheld store entry, with the issue number of the store that wrote it. -/
structure WByte where
  a : Nat
  v : Byte
  seq : Nat
  deriving DecidableEq, Repr

/-- One lane's part of an atomic (R187): resolved address, operands. -/
structure LaneAtom where
  lane : Nat
  a : Nat
  x : Word64
  y : Word64
  deriving DecidableEq, Repr

/-- What a proofing-buffer entry withholds (R58). -/
inductive EntryKind where
  /-- one store line with its bytes; `remote` is a remote pantry store descriptor -/
  | store (sp : Space) (line : Nat) (colour : Nat) (ord : Nat) (remote : Bool) (bytes : List WByte)
  /-- a non-returning atomic -/
  | atom (sp : Space) (op : Nat) (w8 : Bool) (ord : Nat) (lanes : List LaneAtom)
  | put
  | sig (a : Nat) (x : Word64)
  /-- `wbdrop` of a handle -/
  | drop (handle : Nat)
  /-- the mark of a `fence.rel` among the released entries: scope and colour mask (R163) -/
  | fence (scope : Nat) (mask : BitVec 8)
  deriving DecidableEq, Repr

/-- A withheld or released entry: its identifier, the operations it belongs to, its issue number and the bundle that made
it. `sent` says that the memory system has taken it. -/
structure Entry where
  id : Nat
  ops : List Nat
  seq : Nat
  pc : Word64
  kind : EntryKind
  /-- the span entries it was translated by, by span index (R250, R302) -/
  ents : List (Nat × Word64) := []
  /-- the lanes of the path that made it (R44, R155) -/
  mask : Word32 := 0xFFFFFFFF#32
  /-- the core on which it was made -/
  core : Nat := 0
  sent : Bool := false
  /-- the scope at which it counts as performed (R158) before it is: 1 band, 2 die, 3 device, 0 none -/
  vis : Nat := 0
  deriving DecidableEq, Repr

/-- Where a long-latency result goes (R47). -/
inductive Dest where
  /-- v registers r .. r+k−1 in the lanes of the mask, the values by register then lane -/
  | v (r k : Nat) (mask : Word32)
  | s (r : Nat)
  deriving DecidableEq, Repr

/-- A result still owed (R47): its operation, the counted slots that may still issue before it is written, its destination
and, once it has arrived, the values (one per register and lane, or one for an s register), with the tags of those values. -/
structure Owed where
  o : Nat
  left : Nat
  dst : Dest
  tags : List Tag := []
  val : Option (List Word64) := none
  /-- the destination's undo entry was taken at issue -/
  logged : Bool := true
  deriving DecidableEq, Repr

/-- A restart point (R58, R60): both slots' paths, xstat, and the results still owed as they stood. -/
structure Restart where
  a : Option Path := none
  b : Option Path := none
  stat : Word64 := 0#64
  owed : List Owed := []
  lastB : Bool := true
  /-- operations from this issue number on are undone by a rollback -/
  seq : Nat := 0
  /-- the segment that each slot had entered (R64) -/
  segA : Option Nat := none
  segB : Option Nat := none
  deriving DecidableEq, Repr

/-- An outstanding operation on a path (R49): `back` once its return has arrived and waits to be counted. -/
structure Outst where
  o : Nat
  path : Nat
  back : Bool
  deriving DecidableEq, Repr

/-- A late cause still owed to a string (R212). -/
structure Late where
  /-- ENGINE when true, REMOTE_NEG when false -/
  engine : Bool
  detail : BitVec 16
  pc : Word64
  /-- the job error record to write (R278) -/
  err : Word64 := 0#64
  /-- a cause of the bundle at which it was due came first: it is owed until after `tret` (R212) -/
  after : Bool := false
  deriving DecidableEq, Repr

/-- What a string waits on. -/
inductive Wait where
  | none
  /-- a barrier slot and the generation that must change; `arrive` while an early second arrival waits (R193) -/
  | bar (k : Nat) (gen : BitVec 16) (arrive : Bool)
  /-- `waitc` (R196) -/
  | path (p : Nat) (thr : Nat)
  /-- parked on a ticket (R310) -/
  | ticket (t : BitVec 32)
  /-- not parked for want of a ticket-table entry (R310) -/
  | retry
  /-- an earlier operation of the band to the tile must retire before an `mst` or `mclr` (R264) -/
  | tile
  /-- the queue of 64 matrix operations of the band, or of 64 jobs of the core, is full (R266, R269) -/
  | unit
  /-- the counter of a path that an operation would raise past 255 must fall first (R49) -/
  | full (p : Nat)
  /-- the drain that `fence.full` or a barrier waits for at its scope, or, with scope 0, the drain of its released entries that a
  returning atomic or case 6 of R59 waits for -/
  | drain (scope : Nat) (seq : Nat)
  /-- earlier accesses that the read of a job's card at an address follows (R155, R269) -/
  | card (a : Nat)
  /-- a `jtab` whose table entries have not returned (R228) -/
  | reply (o : Nat)
  deriving DecidableEq, Repr

/-- How far a pre-emption request has come for a string (R213, R214). -/
inductive Stop where
  | none | asked | deferred | late | stopped
  deriving DecidableEq, Repr

/-- A `bar.sync` or `gbar` bundle whose arrival is recorded and whose wait is left (R194): its address and slot, the slots
to install when the wait ends, and what it waits for: barrier slot and generation, or the launch barrier's count. -/
structure Pend where
  pc : Word64
  slotB : Bool
  postA : Option Path
  postB : Option Path
  bar : Option (Nat × BitVec 16)
  gbar : Nat := 0
  /-- issued in a trap handler -/
  inTrap : Bool := false
  deriving DecidableEq, Repr

/-- A patch slot (R284). -/
structure Patch where
  recno : Nat
  off : Nat
  part : Nat
  arg : Nat
  add : Word64
  deriving DecidableEq, Repr

/-- The shadow state of a bench word (R291). -/
inductive Shadow where
  | none | data | engine
  | fill (t : Tag)
  deriving DecidableEq, Repr

/-- What a withheld bench store or atomic of a recording launch does to the shadow states when it is released, and the FILL
records it then makes, each with its patch slots (R291, R292). -/
structure Fill where
  seq : Nat
  shadows : List (Nat × Shadow)
  blocks : List (List Byte × List Patch) := []
  deriving DecidableEq, Repr

/-- A string (R36 to R61). -/
structure Str where
  band : Nat
  num : Nat
  lanes : Nat := 32
  v : SMap Word32 := []
  sr : SMap Word64 := []
  pr : SMap Word32 := []
  slotA : Option Path := none
  slotB : Option Path := none
  lastB : Bool := true
  stack : List Rec := []
  rp : Restart := {}
  buf : List Entry := []
  /-- withheld shadow writes and FILL records, oldest first -/
  fills : List Fill := []
  undo : List Undo := []
  outst : List Outst := []
  owed : List Owed := []
  stat : Word64 := 0#64
  xtvec : Word64 := 0#64
  xtcause : Word64 := 0#64
  xtpc : Word64 := 0#64
  xtbad : Word64 := 0#64
  /-- the handler's slot is B, and the stack depth at handler entry (R208, R211) -/
  hB : Bool := false
  hdepth : Nat := 0
  /-- a trap was entered and not yet left: the other slot is suspended -/
  inTrap : Bool := false
  /-- it was taken inside the body of a hardware loop (R238) -/
  loopTrap : Bool := false
  rcp : Recipe := {}
  wbStrict : Bool := false
  wbOpen : Bool := false
  benchb : Word64 := 0#64
  benchl : Word64 := 0#64
  loop : LoopSt := {}
  xwa : List Word64 := [0#64, 0#64, 0#64, 0#64]
  xwc : List Word64 := [0#64, 0#64, 0#64, 0#64]
  spanSel : BitVec 12 := 0#12
  tkCount : Nat := 0
  tkLast : Nat := 0
  tkId : BitVec 32 := 0#32
  /-- the bundle of the access that drew the ticket -/
  tkPc : Word64 := 0#64
  jobErr : Word64 := 0#64
  tok : SMap (Option (BitVec 16)) := []
  wait : Wait := .none
  /-- what holds back the bundle of one slot, while the other may issue (R45) -/
  holdA : Wait := .none
  holdB : Wait := .none
  late : List Late := []
  /-- last-span registers (R303): lane to (span index, entry) -/
  lspan : SMap (Nat × Word64) := []
  stag : SMap Tag := []
  vtag : SMap Tag := []
  ptag : SMap Tag := []
  /-- residency slot among the strings of its partition (R45); 8 while the band is not resident -/
  rslot : Nat := 8
  stop : Stop := .none
  ended : Bool := false
  /-- acquire marks of `fence.acq`: issue numbers and scopes (R164) -/
  acqMarks : List (Nat × Nat) := []
  /-- the joins after which paths went on (R44): issue number and lanes of the path that went on -/
  joins : List (Nat × Word32) := []
  /-- the segment entered last by each slot, for R63 and R64 -/
  segA : Option Nat := none
  segB : Option Nat := none
  /-- barrier bundles whose arrival stands and whose wait is left (R194), newest first: one of a trap handler stands before
  the one that the trap interrupted -/
  pend : List Pend := []
  /-- `bar.wait` bundles whose wait has begun (R193): the program-counter slot, the address, the barrier slot, and the generation at
  issue -/
  barG : List (Bool × Word64 × Nat × BitVec 16) := []
  /-- an operation of the bundle's X slot that the string waits for: `jtab`, `flush`, `inv`, `spinv`, `hsamp` -/
  waitX : Option Nat := none
  /-- the table entries that a `jtab` has read: its slot; index and entry -/
  jt : Option (Bool × List (Nat × Nat)) := none
  /-- not ready after `yield` (R232) -/
  yielding : Bool := false
  /-- the address of the bundle that it issued last, which becomes a proof point where a later one needs it to (R59) -/
  lastPc : Word64 := 0#64
  /-- slots held by `idle` (R232) -/
  idleA : Bool := false
  idleB : Bool := false
  deriving DecidableEq, Repr

/-- A barrier slot (R192). -/
structure Bar where
  exp : Nat
  arr : Word32 := 0#32
  cnt : Nat := 0
  gen : BitVec 16 := 0#16
  deriving DecidableEq, Repr

/-- Where a band is (R54, R213 to R222). -/
inductive Place where
  /-- at the dispatcher, hashed to its die -/
  | waiting
  /-- in the band queue of a core -/
  | queued (core : Nat)
  | resident (core : Nat)
  /-- saved in a save area; `ready` once its wait is satisfied or it may be taken again -/
  | saved (ready : Bool)
  /-- parked in place by a quarantine (R222) -/
  | parked (core : Nat)
  /-- killed, its returns outstanding (R216) -/
  | killed (core : Nat)
  | ended
  deriving DecidableEq, Repr

/-- The B descriptor that `mload` records (R260). -/
structure BDesc where
  k : Nat
  fmt : Nat
  elem : Nat
  scale : Nat
  deriving DecidableEq, Repr

/-- A seal (R284). -/
structure Seal where
  addr : Word64
  exp : Word64
  mask : Word64
  arg : Nat
  deriving DecidableEq, Repr

/-- A band (R36, R37). -/
structure Band where
  id : Nat
  launch : Nat
  index : Nat
  ctx : Nat
  die : Nat
  prof : Profile
  bx : Nat := 0
  byy : Nat := 0
  bz : Nat := 0
  nstr : Nat := 1
  regs : Nat := 8
  nbars : Nat := 0
  benchBytes : Nat := 0
  ntiles : Nat := 0
  prio : Nat := 0
  bale : Nat := 0
  place : Place := .waiting
  bench : Memory := []
  /-- tile words: key 4,096 × tile + 64 × row + column (R25) -/
  tiles : SMap Word32 := []
  bars : List Bar := []
  xswap : Nat := 16384
  /-- launch barriers the band has arrived at and strings that executed the present one (R195) -/
  gbarCnt : Nat := 0
  gbarArr : List Nat := []
  bdesc : Option BDesc := none
  relaunches : Nat := 0
  shadow : SMap Shadow := []
  /-- recorded records of this band, 64 bytes each, with their patch slots (record indices within the band) -/
  recs : List (List Byte) := []
  patches : List Patch := []
  seals : List Seal := []
  recRcp : Option (BitVec 10) := none
  torn : Bool := false
  tcause : Nat := 0
  /-- replay: the next record to submit, counting the BAND record as 0 -/
  replayAt : Option Nat := none
  replayFault : Bool := false
  /-- this run of the band neither replays nor records (R297) -/
  plain : Bool := false
  /-- a pre-emption request names the band (R213) -/
  preempt : Bool := false
  /-- the order in which the band was dispatched -/
  started : Nat := 0
  /-- the save area that holds the band: domain and first frame (R218) -/
  area : Option (Nat × Nat) := none
  deriving DecidableEq, Repr

/-- What an operation in flight is. -/
inductive OpKind where
  /-- a load: space, width code, destination group, lanes with their addresses -/
  | load (sp : Space) (w : Nat) (d : Nat) (lanes : List (Nat × Nat))
  /-- a store or non-returning descriptor: pieces count down -/
  | store
  /-- a returning atomic -/
  | atom (sp : Space) (op : Nat) (w8 : Bool) (d : Nat) (lanes : List LaneAtom)
  /-- a `get` or `put`: the space read and the space written, source, destination, length; `wr2` once the bytes are read and
  are being written -/
  | copy (rd wr : Space) (src dst len : Nat) (wr2 : Bool)
  /-- a `wbseal` read into an s register -/
  | seal (d : Nat) (a : Nat) (mask : Word64) (tag : Tag)
  /-- a `jtab` read: the slot, the table's address and the distinct indices -/
  | jtab (slotB : Bool) (base : Nat) (idx : List Nat)
  /-- `fdiv`, `fsqrt`, a cross-lane reduction, a long `rdx`: the result stands computed -/
  | calc (vals : List Word64)
  | job (j : Nat)
  | batch (left : List Nat)
  | drop (handle : Nat)
  /-- `flush`, `inv`, `spinv`, `hsamp`: the string waits for the acknowledgement -/
  | ack
  deriving DecidableEq, Repr

/-- An operation in flight (R49). -/
structure Op where
  id : Nat
  b : Nat
  n : Nat
  seq : Nat
  path : Option Nat
  pc : Word64
  kind : OpKind
  acq : Bool := false
  /-- the scope of its acquire side -/
  ascope : Nat := 4
  /-- a returning atomic with a release side: every earlier access is performed first (R158) -/
  rel : Bool := false
  /-- the scope of its release side -/
  scope : Nat := 4
  /-- bytes it reads, for the orders of R155 -/
  foot : List Foot := []
  /-- the span entries it was translated by, by span index (R250, R302) -/
  ents : List (Nat × Word64) := []
  /-- the lanes of the path that issued it (R44, R155) -/
  mask : Word32 := 0xFFFFFFFF#32
  /-- pieces (requests or entries) not yet performed -/
  left : Nat := 0
  /-- bytes gathered so far, by 16 × lane + byte, or by offset -/
  got : SMap Byte := []
  /-- the core that issued it -/
  core : Nat := 0
  /-- it is being sent, or it has been performed where it stands -/
  sent : Bool := false
  /-- bytes that remain to be read: key in the gathered bytes, address (R154, R183) -/
  todo : List (Nat × Nat) := []
  /-- all of it has arrived or been performed: its result and its return may be delivered -/
  fin : Bool := false
  /-- performed, so that later accesses ordered after it may be performed -/
  done : Bool := false
  /-- a rollback undid it: its reply is discarded (R202) -/
  undone : Bool := false
  /-- the scope at which it counts as performed (R158) before it is: 1 band, 2 die, 3 device, 0 none -/
  vis : Nat := 0
  /-- the acknowledgement of a `flush` or `inv` has left the serai: the messages of its channel that stand before it (R318, R319) -/
  behind : Option Nat := none
  deriving DecidableEq, Repr

/-- What a request asks of its home. -/
inductive ReqKind where
  /-- a plain read of bytes: (key in the operation's gathered bytes, byte address) -/
  | read (pieces : List (Nat × Nat))
  | write (bytes : List WByte)
  | rmw (op : Nat) (w8 : Bool) (lanes : List LaneAtom)
  deriving DecidableEq, Repr

/-- A completion that the host endpoint returns (R338, R367). -/
inductive HostReply where
  | data (bs : List Byte)
  /-- Completer Abort -/
  | abort
  /-- Unsupported Request -/
  | unsupported
  deriving DecidableEq, Repr

/-- Who sent a request. -/
inductive Agent where
  /-- a string of a band -/
  | str (b n : Nat)
  /-- an engine job -/
  | job (j : Nat)
  /-- the host through BAR4 -/
  | host (off : Nat)
  /-- the serai itself, for a packet or record: its queue and sequence number -/
  | serai (q sq : Nat)
  /-- the serai's sample record (R308) -/
  | sample
  /-- a read that the hardware made for itself: a span walk, the serai's read of a packet (R301, R308, R341) -/
  | walk
  /-- another module of the pod (R349) -/
  | peer (m : Nat)
  deriving DecidableEq, Repr

/-- A request to a home or an owner (R304, R185). -/
structure Req where
  id : Nat
  who : Agent
  kind : ReqKind
  /-- the operation and the released entry that it serves -/
  op : Option Nat := none
  entry : Option Nat := none
  die : Nat := 15
  core : Nat := 0
  /-- home: module, or 16 for the host -/
  home : Nat := 0
  ctx : Nat := 0
  /-- line number at the home (home address / 128), or pantry line of `pdie` -/
  line : Nat := 0
  pdie : Option Nat := none
  /-- goes through the requester's write-back or read-only cache -/
  cached : Bool := false
  pinned : Bool := false
  /-- the type of R308 -/
  ty : Nat := 0
  /-- a released entry or an engine access that the home holds until the page is serviced -/
  held : Option (BitVec 32) := none
  /-- its arrival at the home, in the order of arrivals there; 0 before it has arrived (R323) -/
  arr : Nat := 0
  /-- of an atomic: it returns the values that it found (R182) -/
  ret : Bool := true
  /-- this arrival has been counted for sampling (R308) -/
  sampled : Bool := false
  /-- context and address of the host's access that it serves (R367) -/
  va : Option (Nat × Nat) := none
  /-- of a cached line of another module: 1 asked of its home, 2 granted by it (R349); 3: the line has been taken away since the grant
  was sent, and its data is not kept (R333) -/
  remote : Nat := 0
  /-- the die whose cache sends the data (R324); 15 the home -/
  src : Nat := 15
  /-- performed: the bytes of the reply that is on its way to the die (R318) -/
  back : Option (List (Nat × Byte)) := none
  deriving DecidableEq, Repr

/-- The MOESI states of a cached line (R320). -/
inductive CState where
  | M | O | E | S
  deriving DecidableEq, Repr

/-- A line in a die's caches (R321): its home key is context and home-side line number. `wb`: in the write-back buffer;
`keep`: kept as a clean copy after the write-back (`flush`); `cores`: the cores whose caches hold it. -/
structure CLine where
  ctx : Nat
  line : Nat
  st : CState
  data : LineData
  wb : Bool := false
  keep : Bool := false
  cores : List Nat := []
  /-- its write-back waits at the home since this arrival there; 0 while none does (R323) -/
  arr : Nat := 0
  deriving DecidableEq, Repr

/-- A directory entry (R322). Holders are dies 0 to 11, and 16 + m for module m. -/
structure DirEnt where
  ctx : Nat
  line : Nat
  st : CState
  owner : Nat
  sharers : BitVec 10
  /-- remote modules that hold the line through a coherent extent (R349) -/
  mods : BitVec 16 := 0#16
  dom : Nat := 0
  /-- the line's content in granary is zero (R122) -/
  zero : Bool := false
  deriving DecidableEq, Repr

/-- What a transaction does when its acknowledgements have arrived. -/
inductive TxnKind where
  | gets | getm | upg
  /-- a read, a write or an atomic performed at the home -/
  | home
  /-- a recall with invalidation: snoop-filter eviction, page move, revocation, destruction -/
  | recall
  deriving DecidableEq, Repr

/-- Whether a transaction's holders answer a read at the home, without losing their copies (R365). -/
abbrev ReadOnly := Bool

/-- A transaction in progress on a line (R323): the request, the dies whose answers are awaited, data that a forwarded
owner has sent. -/
structure Txn where
  ctx : Nat
  line : Nat
  kind : TxnKind
  r : Nat
  await : List Nat
  ro : ReadOnly := false
  fwd : Option LineData := none
  /-- the die that sent `fwd` to the requester; 15 the home -/
  src : Nat := 15
  deriving DecidableEq, Repr

/-- An instruction-memory frame (R62): the measurement of the bale and the segment that it holds; frames stand least recently
entered first. -/
structure Frame where
  meas : BitVec 512
  seg : Nat
  /-- blocks of 16 bundles of the segment whose tag did not match as they were copied (R355) -/
  bad : List Nat := []
  deriving DecidableEq, Repr

/-- An entry of the ticket table (R310): the ticket and the strings parked on it. -/
structure TicketEnt where
  t : BitVec 32
  strs : List (Nat × Nat)
  deriving DecidableEq, Repr

/-- A matrix operation (R258 to R264). -/
structure MOp where
  id : Nat
  b : Nat
  n : Nat
  /-- the core whose unit it was sent to -/
  die : Nat := 0
  core : Nat := 0
  minor : Nat
  tile : Nat
  rcp : BitVec 10
  sa : Word64
  sb : Word64
  msat : Bool
  /-- issue number of the instruction, and the bench regions that it reads and writes (R173, R270) -/
  seq : Nat := 0
  rd : List Foot := []
  wr : List Foot := []
  /-- the B descriptor of the band's latest earlier `mload` (R264) -/
  bd : Option BDesc := none
  started : Bool := false
  /-- an edge of R270: identifiers of earlier jobs that must return first -/
  deps : List Nat := []
  /-- the bench as an `mmul` has met it since it started, for the race of R280 -/
  snaps : List Memory := []
  deriving DecidableEq, Repr

/-- An engine job (R267 to R277). -/
structure Job where
  id : Nat
  b : Nat
  /-- issuing string, none for a replayed record -/
  n : Option Nat
  /-- the core on which it was issued (R269) -/
  die : Nat := 0
  core : Nat := 0
  card : List Byte
  cardAt : Nat
  mn : Nat
  pc : Word64
  /-- issue number of the instruction, and the declared read and write regions (R173, R270) -/
  seq : Nat := 0
  rd : List Foot := []
  wr : List Foot := []
  deps : List Nat := []
  started : Bool := false
  /-- the error found, code and sub-code -/
  err : Option (Nat × Nat) := none
  /-- the next row, and how far the job is: 0 before a row, 1 its reads are out, 2 its bytes wait for others (a collective, a
  multicast send), 3 its writes are out, 4 everything is performed, 5 a receive waits for its fill -/
  row : Nat := 0
  ph : Nat := 0
  /-- bytes read, by offset in the row -/
  got : SMap Byte := []
  /-- bytes that remain to be read or written with the core's own units (offset, address), and the bytes to write (R154) -/
  todo : List (Nat × Nat) := []
  data : List Byte := []
  /-- multicast send: targets already filled or failed -/
  filled : List Nat := []
  /-- collective: instance number; a receive: the send that is filling it -/
  inst : Nat := 0
  /-- the operation that counts on path 4 -/
  op : Nat := 0
  deriving DecidableEq, Repr

/-- A core (R15, R18). -/
structure Core where
  die : Nat
  num : Nat
  frames : List Frame := []
  /-- segment copies in progress (R63) -/
  copies : List Frame := []
  bandQ : List Nat := []
  mhz : Nat := 1200
  lfsr : BitVec 16 := 1#16
  backoff : Bool := false
  /-- the merge pointer of each partition (R45) -/
  mptr : SMap Nat := []
  /-- span cache: (context, span, entry), most recently used first (R303) -/
  spans : List (Nat × Nat × Word64) := []
  tickets : List TicketEnt := []
  notices : List (BitVec 32 × BitVec 8 × Bool) := []
  wbank : Option Nat := none
  /-- the B that the weight banks hold: element plane from 0, scale plane from 2^24 (R260, R265) -/
  wdata : Memory := []
  /-- an executive core halted by a trap (R87) -/
  halted : Bool := false
  deriving DecidableEq, Repr

/-- Site states (R330). -/
inductive SiteSt where
  | absent | training | enumerating | admitted | quiescing | isolated | resetting
  deriving DecidableEq, Repr

/-- Coherence classes (R320). -/
inductive CClass where
  | moesi | ioco | nonco
  deriving DecidableEq, Repr

/-- A chiplet site with its die (R13 to R18, R326 to R336). -/
structure Site where
  die : Nat
  st : SiteSt := .absent
  cap : Option CapTable := none
  cls : Option CClass := none
  gts : Nat := 16
  qids : List Nat := []
  /-- the queue identifiers of its last admission, which it is granted again (R329) -/
  lastQids : List Nat := []
  hbMiss : Nat := 0
  /-- a heartbeat has been sent and not been found missed -/
  hbOut : Bool := false
  trainFail : Nat := 0
  retrainFail : Nat := 0
  retraining : Option Nat := none
  lines : List CLine := []
  pantry : Memory := []
  hot : Bool := false
  /-- pantry capacity in MiB and upper die as recorded at the last admission (R23, R27) -/
  capMiB : Nat := 128
  upper : Bool := true
  /-- the core that took the previous band (R54); 63 while none has, so that the first round starts at core 0 (log 2) -/
  lastCore : Nat := 63
  deriving DecidableEq, Repr

/-- Queue states (R340). -/
inductive QSt where
  | off | on | error
  deriving DecidableEq, Repr

/-- A packet or record in progress: its sequence number and 64 bytes. -/
structure Pkt where
  sq : Nat
  bytes : List Byte
  done : Bool := false
  deriving DecidableEq, Repr

/-- A queue window (R340, R341). -/
structure Queue where
  q : Nat
  qbase : Word64 := 0#64
  ctx : Nat := 0
  mask : BitVec 10 := 0#10
  log2 : Nat := 0
  widx : BitVec 32 := 0#32
  ridx : BitVec 32 := 0#32
  errcnt : BitVec 32 := 0#32
  st : QSt := .off
  /-- packets fetched and not yet completed, oldest first, and the last sequence number given -/
  pkts : List Pkt := []
  lastSq : Nat := 0
  deriving DecidableEq, Repr

/-- Sampling set by `hsamp` (R252, R308). -/
structure Sampler where
  log2n : Nat
  units : Nat
  base : Nat
  cnt : Nat := 0
  seq : Nat := 0
  deriving DecidableEq, Repr

/-- A context (R339 to R344, R356). -/
structure Ctx where
  id : Nat
  conf : Bool := false
  pinned : Bool := false
  /-- key store: the key block's bytes (R344) -/
  keys : List Byte := []
  nsign : Nat := 0
  keygen : Nat := 0
  spanBase : Word64 := 0#64
  spangen : Nat := 0
  achain : BitVec 512 := 0#512
  /-- save pool in bytes (R219) -/
  pool : Nat := 0
  quarantined : Bool := false
  frozen : Bool := false
  sampler : Option Sampler := none
  deriving DecidableEq, Repr

/-- A segment table entry (R352). -/
structure Segment where
  first : Nat
  len : Nat
  benchb : Nat
  benchl : Nat
  deriving DecidableEq, Repr

/-- A loaded bale (R352 to R354). Its code words stand opened here, four words a bundle; its ciphertext stands in pages of the
context, and `tags` holds the tag of each block of 16 bundles: segment, block, tag. -/
structure Bale where
  id : Nat
  ctx : Nat
  code : Nat
  base : Word64
  len : Nat
  words : SMap (BitVec 32) := []
  segs : List Segment
  entry : Nat := 0
  nargs : Nat := 0
  strings : Nat := 1
  regs : Nat := 8
  bench : Nat := 0
  tiles : Nat := 0
  bars : Nat := 0
  meas : BitVec 512 := 0#512
  /-- replaced by a later LOAD and kept until no band of it remains -/
  old : Bool := false
  tags : List (Nat × Nat × BitVec 64) := []
  deriving DecidableEq, Repr

/-- An owner page entry (R305). -/
structure Page where
  ctx : Nat
  page : Nat
  v : Bool := true
  pin : Bool := false
  mov : Bool := false
  hostres : Bool := false
  prim : Nat := 0
  rmask : BitVec 8 := 1#8
  frame : Nat := 0
  /-- replicas dropped under R169 -/
  dropped : BitVec 8 := 0#8
  /-- the request whose store or atomic is being committed, and the replicas locked for it (R168) -/
  storing : Option Nat := none
  /-- the die and line whose write-back is being committed (R168) -/
  putting : Option (Nat × Nat) := none
  lock : BitVec 8 := 0#8
  /-- the move in progress: the new entry's PRIM, RMASK, HOSTRES, host address, and the management record -/
  move : Option (Nat × BitVec 8 × Bool × Nat) := none
  deriving DecidableEq, Repr

/-- An allocation of the device operating system, page by page: its die-affinity mask (R20, R362). -/
structure Alloc where
  ctx : Nat
  page : Nat
  mask : BitVec 8
  deriving DecidableEq, Repr

/-- A ticket slot (R309). -/
structure TSlot where
  slot : Nat
  used : Bool := false
  gen : BitVec 12 := 0#12
  ctx : Nat := 0
  page : Nat := 0
  /-- waiting cores: module, die, core -/
  cores : List (Nat × Nat × Nat) := []
  bcast : Option (BitVec 16) := none
  deriving DecidableEq, Repr

/-- A replay notice on its way: the cores that its slot listed, or the modules of its broadcast form (R311). -/
structure NoticeTo where
  ticket : BitVec 32
  cores : List (Nat × Nat × Nat)
  bcast : Option (BitVec 16)
  deriving DecidableEq, Repr

/-- A forfeit log record (R334). -/
structure Forfeit where
  addr : Word64
  die : Nat
  st : Nat
  time : Word64
  seq : Nat
  deriving DecidableEq, Repr

/-- An extent (R349 to R351). -/
structure Extent where
  n : Nat
  ctx : Nat
  coherent : Bool
  base : Nat
  len : Nat
  /-- module, R, W, A -/
  peers : List (Nat × Bool × Bool × Bool)
  revoked : Bool := false
  log : List Forfeit := []
  logSeq : Nat := 0
  deriving DecidableEq, Repr

/-- A member of a collective group (R275). -/
structure Member where
  m : Nat
  die : Nat
  meas : Option (BitVec 512) := none
  /-- jobs of this member issued since numbering last restarted -/
  issued : Nat := 0
  /-- its die was readmitted: the next job's measurement is compared (R276) -/
  recheck : Bool := false
  deriving DecidableEq, Repr

/-- What a member on another module has sent for an instance (R275): member index, instance, OP with TYPE, W1 and its bytes. -/
structure Sent where
  idx : Nat
  inst : Nat
  op : Nat
  w1 : Nat
  bytes : List Byte
  deriving DecidableEq, Repr

/-- A collective group (R275, R276). -/
structure Group where
  ctx : Nat
  id : Nat
  members : List Member
  /-- jobs of members on other modules that have reached this serai -/
  sent : List Sent := []
  broken : Bool := false
  /-- the member that was readmitted with another measurement (R276) -/
  changed : Nat := 0
  deriving DecidableEq, Repr

/-- A waybill (R281 to R284). -/
structure Waybill where
  ctx : Nat
  handle : Nat
  die : Nat
  code : Nat
  meas : BitVec 128
  x : Nat
  y : Nat
  z : Nat
  bench : Nat
  tiles : Nat
  strings : Nat
  rcp : BitVec 10
  spangen : Nat
  keygen : Nat
  recs : List (List Byte)
  patches : List Patch
  seals : List Seal
  /-- moved to the save pool (R281) -/
  spilled : Bool := false
  /-- order of the last replay -/
  used : Nat := 0
  /-- in the store of a die that left ADMITTED since (R335) -/
  valid : Bool := true
  deriving DecidableEq, Repr

/-- A launch in progress (R32 to R36). -/
structure Launch where
  id : Nat
  q : Nat
  sq : Nat
  ctx : Nat
  bale : Nat
  code : Nat
  idem : Bool := false
  recording : Bool := false
  replay : Bool := false
  fallback : Bool := false
  /-- the waybill that a replaying launch found valid at its checks -/
  wb : Option Waybill := none
  busy : Bool := false
  pinned : Bool := false
  steal : Bool := false
  retry : Nat := 0
  prio : Nat := 0
  nstr : Nat := 1
  regs : Nat := 8
  nbars : Nat := 0
  entry : Nat := 0
  x : Nat := 1
  y : Nat := 1
  z : Nat := 1
  bench : Nat := 0
  tiles : Nat := 0
  dies : List Nat := []
  args : List Word64 := []
  handle : Nat := 0
  done : Word64 := 0#64
  stride : Nat := 0
  placeIdx : Nat := 255
  /-- the next band index to make, for launches whose bands are made as they are dispatched -/
  next : Nat := 0
  relaunched : Nat := 0
  msat : Bool := false
  status : Nat := 0
  stopped : Bool := false
  started : Nat := 0
  gbarCnt : Nat := 0
  /-- the cores (die, core) on which a band has arrived at the launch barrier in progress, by their last arrival (R55) -/
  gbarCores : List (Nat × Nat) := []
  complete : Bool := false
  /-- completes at once, whatever its bands do, and relaunches none (R222, R316, R366) -/
  atOnce : Bool := false
  /-- tear of the recording as a whole (R293): first cause -/
  torn : Bool := false
  deriving DecidableEq, Repr

/-- What a message to another module carries. -/
inductive FabKind where
  /-- a request of this module, by its identifier -/
  | request (r : Nat)
  /-- the answer to a request of the peer: its identifier, and the line, the bytes or the code that it carries -/
  | data (r : Nat) (bytes : List Byte)
  | negative (r : Nat) (code : BitVec 8)
  | noPage (r : Nat) (ticket : BitVec 32)
  /-- a write-back of a line of the peer -/
  | put (ctx line : Nat) (d : LineData) (keep : Bool)
  /-- the acknowledgement of a recall or a forward, with the line's data when it is dirty -/
  | invAck (ctx line : Nat) (dirty : Option LineData)
  /-- a message that takes the copy of a holder there: FwdGetM where it owns the line, Inv or BackInv elsewhere -/
  | take (ctx line : Nat) (own : Bool)
  /-- FwdGetS to an owner there -/
  | share (ctx line : Nat)
  | notice (ticket : BitVec 32) (code : BitVec 8)
  /-- this module's part of a collective instance -/
  | sent (ctx grp : Nat) (x : Sent)
  | heartbeat
  deriving DecidableEq, Repr

/-- A message in a link's replay buffer (R346, R347): its channel (R318), and whether it has gone over a relay. -/
structure FabMsg where
  vc : Nat
  kind : FabKind
  relayed : Bool := false
  deriving DecidableEq, Repr

/-- A fabric link to a peer (R345 to R348). -/
structure Link where
  m : Nat
  /-- messages sent and not acknowledged, oldest first, and messages held until the relayed ones are (R347) -/
  out : List FabMsg := []
  held : List FabMsg := []
  up : Bool := true
  retraining : Bool := false
  fails : Nat := 0
  relay : Option Nat := none
  hbMiss : Nat := 0
  /-- a heartbeat has fallen inside the retraining window: the next finds the window over (R346, log 51) -/
  skipped : Bool := false
  dead : Bool := false
  deriving DecidableEq, Repr

/-- A record of the serai's error log: what happened, with the numbers that the rule names; `who` is the requester of R316:
65,536 × module + 256 × die + core. -/
structure ErrRec where
  what : Nat
  x : Nat
  y : Nat
  who : Nat := 0
  deriving DecidableEq, Repr

/-- The bundle being issued: the string's registers as its slots read them (R84), its address and slot, which slot of the
bundle acts, whether a slot has stopped it (a trap, a kill, a wait that holds it), whether a slot has moved the path,
the flags its slots raise (R246), the commands that its release sends (R60), and the loop
state and path mask at its start. -/
structure Bun where
  lat : Str
  pc : Word64 := 0#64
  slotB : Bool := false
  islot : Nat := 0
  mask : Word32 := 0#32
  ended : Bool := false
  moved : Bool := false
  flags : BitVec 5 := 0#5
  /-- the issue number at the bundle's start -/
  seq : Nat := 0
  /-- a `bar.sync` or `gbar` whose arrival is recorded and whose wait is left: barrier slot and generation, launch barrier count -/
  pend : Option (Option (Nat × BitVec 16) × Nat) := none
  /-- a `waitc` on path 4, 5 or 6: path, threshold, the threshold's tag (R292) -/
  recWait : Option (Nat × Nat × Tag) := none
  /-- a `wbseal`: the seal to record, its value not yet read -/
  recSeal : Option (Seal × Nat) := none
  mops : List MOp := []
  jobs : List Job := []
  batch : Option Nat := none
  /-- the bundle cannot issue yet (R45) -/
  held : Bool := false
  /-- system registers that other slots may change through the band or the context, as the bundle found them (R84, R243) -/
  regs : List (Nat × Word64) := []
  deriving DecidableEq, Repr

/-- The state of the module and of what is in flight around it. -/
structure State where
  strs : List Str
  bun : Option Bun
  bands : List Band
  cores : List Core
  sites : List Site
  ops : List Op
  reqs : List Req
  /-- released entries not yet performed: band, string, entry, oldest first -/
  rels : List (Nat × Nat × Entry)
  mops : List MOp
  jobs : List Job
  launches : List Launch
  queues : List Queue
  ctxs : List Ctx
  bales : List Bale
  pages : List Page
  /-- the page cache (R14): context and page of the entries that it holds, most recently used first -/
  pageCache : List (Nat × Nat)
  /-- allocations that the device operating system has made (R20) -/
  allocs : List Alloc
  tslots : List TSlot
  /-- notices that have been sent and not delivered (R311) -/
  notes : List NoticeTo
  dir : List DirEnt
  txns : List Txn
  waybills : List Waybill
  groups : List Group
  extents : List Extent
  links : List Link
  gran : Memory
  host : Memory
  /-- lines of granary whose stored copy is damaged: physical line, error of R357 (0 uncorrectable, 1 corrected, 2 clean),
  and whether its MAC matches -/
  lineFault : List (Nat × Nat × Bool)
  forfeit : List Forfeit
  forfeitSeq : Nat
  errlog : List ErrRec
  aperture : SMap (Nat × Word64)
  /-- the host address at which the host has placed BAR 2, once it has (R338, R341) -/
  bar2 : Option Nat
  /-- the polling tables (R342): executive core, slot and queue -/
  polls : List (Nat × Nat × Nat)
  /-- completions returned to the host: BAR4 offset and completion, oldest first -/
  replies : List (Nat × HostReply)
  mgmtBusy : Option (Nat × MgmtRec)
  stage : Nat
  fail : Nat
  smode : Nat
  alarm : BitVec 4
  stepping : Nat
  dev : Nat
  podN : Nat
  clk : Word64
  agenda : List Instr
  nchoice : Nat
  nfree : Nat
  nextId : Nat
  nseq : Nat
  deriving DecidableEq, Repr

/-- What stops the machine. -/
inductive Fault where
  /-- Raised by every slot instruction when no string heads the run list: the instruction has no string to act for. Safe:
  the step function never issues a slot instruction in such a state. -/
  | noString
  deriving DecidableEq, Repr

/-- Why an instruction has no meaning here. -/
inductive Refusal where
  /-- Raised by an arm of `exec` whose meaning is not written. Safe. -/
  | notModelled (mnemonic : String)
  deriving DecidableEq, Repr

/-- The core numbers of one die as its kind gives them (R1, R15, R18): 48 lane, 64 array, 16 control, 0 network. -/
def coresOfDie (d : Nat) : Nat := if d < 4 then 48 else if d < 8 then 64 else if d < 10 then 16 else 0

/-- The module right after reset (R339): STAGE 0, SMODE start-up, STATUS and the queue windows zero, every site ABSENT, no
core listed until its die is admitted, no string, and every memory with nothing listed. Bring-up stands to be run. -/
def State.reset : State :=
  { strs := [], bun := none, bands := [], cores := [],
    sites := (List.range 12).map (fun d => { die := d }),
    ops := [], reqs := [], rels := [], mops := [], jobs := [], launches := [], queues := [],
    ctxs := [{ id := 0, pool := 268435456 }], bales := [], pages := [], pageCache := [], allocs := [], tslots := [], notes := [], dir := [], txns := [], waybills := [],
    groups := [], extents := [], links := (List.range 7).map (fun m => { m := m + 1 }), gran := [], host := [], lineFault := [], forfeit := [], forfeitSeq := 0,
    errlog := [], aperture := [], bar2 := none, polls := [], replies := [], mgmtBusy := none, stage := 0, fail := 0, smode := 1, alarm := 0#4, stepping := 0, dev := 0,
    podN := 8, clk := 0#64, agenda := [.moduleReset], nchoice := 0, nfree := 0, nextId := 1, nseq := 0 }

end Sys2Proof.Machine
end

