-- ==== Sys2Proof/Machine/Cells.lean ====
section
/-! DEFINITION. The named operations on sparse maps and on memories: reading, writing in canonical form, and the byte order
(R6). -/

namespace Sys2Proof.Machine
open Sys2Proof

/-- Read a sparse map. -/
def smGet {α : Type} (d : α) : SMap α → Nat → α
  | [], _ => d
  | (k, x) :: m, i => if k = i then x else smGet d m i

/-- Forget a key. -/
def smErase {α : Type} (m : SMap α) (i : Nat) : SMap α := m.filter (fun x => x.1 != i)

/-- Put a key that is not listed where it belongs. -/
def smInsert {α : Type} (i : Nat) (x : α) : SMap α → SMap α
  | [] => [(i, x)]
  | (k, y) :: m => if i < k then (i, x) :: (k, y) :: m else (k, y) :: smInsert i x m

/-- Write a sparse map, keeping keys rising and no default listed. -/
def smPut {α : Type} [DecidableEq α] (d : α) (m : SMap α) (i : Nat) (x : α) : SMap α :=
  if x = d then smErase m i else smInsert i x (smErase m i)

/-- The canonical form: keys above `lo`, rising, no default. -/
def smWfFrom {α : Type} [DecidableEq α] (d : α) : Nat → SMap α → Bool
  | _, [] => true
  | lo, (k, x) :: m => decide (lo ≤ k) && decide (x ≠ d) && smWfFrom d (k + 1) m

/-- A sparse map in canonical form. -/
abbrev smWf {α : Type} [DecidableEq α] (d : α) (m : SMap α) : Bool := smWfFrom d 0 m

/-- A memory in canonical form. -/
abbrev Memory.wf (m : Memory) : Bool := smWf (0#8) m

/-- One byte of a memory; a byte that nothing has written reads 0 (log 3). -/
abbrev memGet (m : Memory) (a : Nat) : Byte := smGet 0#8 m a

/-- Write one byte. -/
abbrev memPut (m : Memory) (a : Nat) (b : Byte) : Memory := smPut 0#8 m a b

/-- `n` bytes from `a`. -/
def memBytes (m : Memory) (a n : Nat) : List Byte := (List.range n).map (fun i => memGet m (a + i))

/-- Write bytes from `a` on. -/
def memWrite (m : Memory) (a : Nat) : List Byte → Memory
  | [] => m
  | b :: bs => memWrite (memPut m a b) (a + 1) bs

/-- The number that bytes hold, least significant first (R6). -/
def leNat : List Byte → Nat
  | [] => 0
  | b :: bs => b.toNat + 256 * leNat bs

/-- The low `n` bytes of a number, least significant first (R6). -/
def leBytes : Nat → Nat → List Byte
  | 0, _ => []
  | n + 1, x => BitVec.ofNat 8 x :: leBytes n (x / 256)

/-- A little-endian field of a byte list. -/
def field (bs : List Byte) (off n : Nat) : Nat := leNat ((bs.drop off).take n)

/-- Replace bytes of a list from `off` on. -/
def setBytes (bs : List Byte) (off : Nat) (new : List Byte) : List Byte :=
  bs.take off ++ new ++ bs.drop (off + new.length)

end Sys2Proof.Machine
end

