-- ==== Sys2Proof/Machine/Numbers.lean ====
section
/-! DEFINITION. Number formats and exact arithmetic (R100 to R111, R115 to R120): decoding a pattern into an exact value,
rounding an exact value into a format with its flags, and the operations that the lane and matrix chapters build on. -/

namespace Sys2Proof.Machine
open Sys2Proof

/-- How a format treats values beyond its finite range (R100, R104). -/
inductive FKind where
  | ieee | e4m3 | e2m1
  deriving DecidableEq, Repr

/-- A floating-point element format (R100): exponent bits, fraction bits, bias. emin is 1 − bias. -/
structure Fmt where
  eb : Nat
  mb : Nat
  bias : Nat
  kind : FKind
  deriving DecidableEq, Repr

/-- FP32 (R100) -/
def fp32 : Fmt := { eb := 8, mb := 23, bias := 127, kind := .ieee }
/-- FP16 (R100) -/
def fp16 : Fmt := { eb := 5, mb := 10, bias := 15, kind := .ieee }
/-- BF16 (R100) -/
def bf16 : Fmt := { eb := 8, mb := 7, bias := 127, kind := .ieee }
/-- E4M3 (R100) -/
def e4m3 : Fmt := { eb := 4, mb := 3, bias := 7, kind := .e4m3 }
/-- E5M2 (R100) -/
def e5m2 : Fmt := { eb := 5, mb := 2, bias := 15, kind := .ieee }
/-- E2M1 (R100) -/
def e2m1 : Fmt := { eb := 2, mb := 1, bias := 1, kind := .e2m1 }

/-- Width in bits. -/
def Fmt.bits (f : Fmt) : Nat := 1 + f.eb + f.mb
/-- emin (R100) -/
def Fmt.emin (f : Fmt) : Int := 1 - (f.bias : Int)

/-- An exact value: a NaN with its sign, quiet bit and the rest of its fraction as a fraction of `w` bits; an infinity; or
(−1)^neg · m · 2^e, a signed zero when m is 0. -/
inductive FVal where
  | nan (neg quiet : Bool) (w pay : Nat)
  | inf (neg : Bool)
  | fin (neg : Bool) (m : Nat) (e : Int)
  deriving DecidableEq, Repr

/-- The value of a pattern (R100). -/
def Fmt.dec (f : Fmt) (x : Nat) : FVal :=
  let m := x % 2 ^ f.mb
  let e := (x / 2 ^ f.mb) % 2 ^ f.eb
  let neg := (x / 2 ^ (f.mb + f.eb)) % 2 == 1
  let finite : FVal := if e = 0 then .fin neg m (f.emin - f.mb) else .fin neg (2 ^ f.mb + m) ((e : Int) - f.bias - f.mb)
  match f.kind with
  | .e2m1 => finite
  | .e4m3 => if e = 15 ∧ m = 7 then .nan neg true 0 0 else finite
  | .ieee =>
    if e = 2 ^ f.eb - 1 then
      (if m = 0 then .inf neg else .nan neg (decide (2 ^ (f.mb - 1) ≤ m)) (f.mb - 1) (m % 2 ^ (f.mb - 1)))
    else finite

/-- The sign bit of a pattern. -/
def Fmt.sgn (f : Fmt) (neg : Bool) : Nat := if neg then 2 ^ (f.eb + f.mb) else 0
/-- An infinity's pattern. -/
def Fmt.infBits (f : Fmt) (neg : Bool) : Nat := f.sgn neg + (2 ^ f.eb - 1) * 2 ^ f.mb
/-- The largest finite magnitude's pattern (R100). -/
def Fmt.maxBits (f : Fmt) (neg : Bool) : Nat :=
  match f.kind with
  | .ieee => f.sgn neg + (2 ^ f.eb - 1) * 2 ^ f.mb - 1
  | .e4m3 => f.sgn neg + 0x7E
  | .e2m1 => f.sgn neg + 7
/-- A NaN of E4M3 with a sign, and the canonical NaN of a format (R106). -/
def Fmt.nanBits (f : Fmt) (neg : Bool) : Nat :=
  match f.kind with
  | .ieee => f.sgn neg + (2 ^ f.eb - 1) * 2 ^ f.mb + 2 ^ (f.mb - 1)
  | .e4m3 => f.sgn neg + 0x7F
  | .e2m1 => 0

/-- Flags, NV bit 4 to NX bit 0 (R246). -/
abbrev Flags := BitVec 5
/-- NV -/
abbrev flNV : Flags := 16#5
/-- DZ -/
abbrev flDZ : Flags := 8#5
/-- OF -/
abbrev flOF : Flags := 4#5
/-- UF -/
abbrev flUF : Flags := 2#5
/-- NX -/
abbrev flNX : Flags := 1#5

/-- A result pattern with the flags it sets. -/
structure FRes where
  x : Nat
  fl : Flags := 0#5
  deriving DecidableEq, Repr

/-- Rounding modes (R102). -/
inductive RMode where
  | rne | rtz | rup | rdn
  deriving DecidableEq, Repr

/-- The mode of a 2-bit code (R102). -/
def rmode (c : Nat) : RMode := if c = 0 then .rne else if c = 1 then .rtz else if c = 2 then .rup else .rdn

/-- floor(log2 m) + 1, 0 for 0. -/
def bitLen (m : Nat) : Nat := if m = 0 then 0 else Nat.log2 m + 1

/-- m · 2^e rounded to a multiple of 2^q: the multiple, and whether it is inexact. -/
def roundTo (mode : RMode) (neg : Bool) (m : Nat) (e q : Int) : Nat × Bool :=
  if q ≤ e then (m * 2 ^ (e - q).toNat, false)
  else
    let s := (q - e).toNat
    let k := m / 2 ^ s
    let r := m % 2 ^ s
    let half := 2 ^ (s - 1)
    let up := match mode with
      | .rne => decide (half < r) || (r == half && k % 2 == 1)
      | .rtz => false
      | .rup => !neg && r != 0
      | .rdn => neg && r != 0
    (if up then k + 1 else k, r != 0)

/-- Overflow results and whether an infinity or a NaN stands for them (R104). -/
def overflow (f : Fmt) (mode : RMode) (neg sat : Bool) : Nat :=
  if sat || f.kind == .e2m1 then f.maxBits neg
  else
    let big := match mode with
      | .rne => true
      | .rtz => false
      | .rup => !neg
      | .rdn => neg
    if big then (if f.kind == .e4m3 then f.nanBits neg else f.infBits neg) else f.maxBits neg

/-- The pattern of the finite magnitude k · 2^q, where 2^q is the quantum. -/
def packFin (f : Fmt) (neg : Bool) (k : Nat) (q : Int) : Nat :=
  if k < 2 ^ f.mb then f.sgn neg + k
  else if k < 2 ^ (f.mb + 1) then f.sgn neg + ((q + f.mb + f.bias).toNat * 2 ^ f.mb + (k - 2 ^ f.mb))
  else f.sgn neg + (q + 1 + f.mb + f.bias).toNat * 2 ^ f.mb

/-- Whether k · 2^q exceeds the largest finite magnitude (R100). -/
def tooBig (f : Fmt) (k : Nat) (q : Int) : Bool :=
  -- the largest finite magnitude is (2^(mb+1) − 1 − t) · 2^(emax − mb), t = 1 for E4M3
  let emax : Int := match f.kind with
    | .ieee => (2 ^ f.eb - 2 : Nat) - (f.bias : Int)
    | .e4m3 => 8
    | .e2m1 => 2
  let top := 2 ^ (f.mb + 1) - 1 - (if f.kind == .e4m3 then 1 else 0)
  let lim := emax - f.mb
  if q ≤ lim then decide (top * 2 ^ (lim - q).toNat < k) else decide (top < k * 2 ^ (q - lim).toNat)

/-- Round(x, fmt, mode) of a finite x, with the flags of R105. `sat` is a saturating conversion (R139). -/
def roundFin (f : Fmt) (mode : RMode) (sat neg : Bool) (m : Nat) (e : Int) : FRes :=
  if m = 0 then { x := f.sgn neg }
  else
    let top : Int := e + (bitLen m : Int) - 1
    let q := (if top < f.emin then f.emin else top) - f.mb
    let (k, inx) := roundTo mode neg m e q
    if tooBig f k q then
      { x := overflow f mode neg sat, fl := if sat || f.kind == .e2m1 then flNX else flOF ||| flNX }
    else
      -- tiny after rounding: the result rounded without a least exponent lies below 2^emin
      let (k', _) := roundTo mode neg m e (top - f.mb)
      let tiny := decide (top < f.emin) && !(top == f.emin - 1 && k' == 2 ^ (f.mb + 1))
      { x := packFin f neg k q, fl := (if inx then flNX else 0#5) ||| (if inx && tiny then flUF else 0#5) }

/-- A NaN value carried into a format: sign kept, quiet bit set, the payload's high bits kept (R106, R107). -/
def nanInto (f : Fmt) (neg : Bool) (w pay : Nat) : Nat :=
  match f.kind with
  | .ieee =>
    let pw := f.mb - 1
    f.sgn neg + (2 ^ f.eb - 1) * 2 ^ f.mb + 2 ^ pw + (if w ≤ pw then pay * 2 ^ (pw - w) else pay / 2 ^ (w - pw))
  | .e4m3 => f.nanBits neg
  | .e2m1 => 0

/-- The payload of a value read from E4M3 has no bits below the quiet bit that it keeps: every fraction bit is set. -/
def Fmt.decNan (f : Fmt) (x : Nat) : FVal :=
  match f.dec x with
  | .nan neg q _ _ => if f.kind = .e4m3 then .nan neg q 2 3 else f.dec x
  | v => v

/-- A conversion of a value into a format (R103, R104, R105, R107, R139). -/
def convInto (f : Fmt) (mode : RMode) (sat : Bool) (v : FVal) : FRes :=
  match v with
  | .nan neg quiet w pay =>
    if f.kind = .e2m1 then { x := 0, fl := flNV } else { x := nanInto f neg w pay, fl := if quiet then 0#5 else flNV }
  | .inf neg =>
    if f.kind = .e2m1 then { x := f.maxBits neg, fl := flNV }
    else if sat then { x := f.maxBits neg }
    else if f.kind = .e4m3 then { x := f.nanBits neg, fl := flNV }
    else { x := f.infBits neg }
  | .fin neg m e => roundFin f mode sat neg m e

/-- NaN -/
def FVal.isNan : FVal → Bool
  | .nan .. => true
  | _ => false
/-- signalling NaN -/
def FVal.isSnan : FVal → Bool
  | .nan _ q _ _ => !q
  | _ => false
/-- infinity -/
def FVal.isInf : FVal → Bool
  | .inf _ => true
  | _ => false
/-- zero -/
def FVal.isZero : FVal → Bool
  | .fin _ 0 _ => true
  | _ => false
/-- sign -/
def FVal.neg? : FVal → Bool
  | .nan n _ _ _ => n
  | .inf n => n
  | .fin n _ _ => n
/-- the value with its sign inverted -/
def FVal.flip : FVal → FVal
  | .nan n q w p => .nan n q w p
  | .inf n => .inf (!n)
  | .fin n m e => .fin (!n) m e

/-- The first NaN of a list of operands, made quiet (R106); the flags say whether any operand signals. -/
def firstNan (f : Fmt) (vs : List FVal) : Option FRes :=
  match vs.find? FVal.isNan with
  | some (.nan neg _ w pay) => some { x := nanInto f neg w pay, fl := if vs.any FVal.isSnan then flNV else 0#5 }
  | _ => none

/-- An invalid operation on operands that are no NaN (R105, R106). -/
def invalid (f : Fmt) : FRes := { x := f.nanBits false, fl := flNV }

/-- A signed integer multiple of 2^e as a sign and a magnitude. -/
def signedInt (neg : Bool) (m : Nat) : Int := if neg then -(m : Int) else m

/-- The exact sum of two finite values as a multiple of the smaller quantum. -/
def exactAdd (n1 : Bool) (m1 : Nat) (e1 : Int) (n2 : Bool) (m2 : Nat) (e2 : Int) : Int × Int :=
  let e := if e1 ≤ e2 then e1 else e2
  (signedInt n1 m1 * 2 ^ (e1 - e).toNat + signedInt n2 m2 * 2 ^ (e2 - e).toNat, e)

/-- Round an exact sum; `sn` is the sign of a zero sum. -/
def roundSum (f : Fmt) (mode : RMode) (sn : Bool) (s : Int × Int) : FRes :=
  if s.1 = 0 then { x := f.sgn sn } else roundFin f mode false (decide (s.1 < 0)) s.1.natAbs s.2

/-- The sign of a zero sum (R104). -/
def zeroSign (mode : RMode) (n1 n2 : Bool) : Bool := if n1 == n2 then n1 else mode == .rdn

/-- a + b (R132), NaNs by R106; `nans` are the operands in the order in which their payloads are taken. -/
def fAdd (f : Fmt) (mode : RMode) (a b : FVal) : FRes :=
  match firstNan f [a, b] with
  | some r => r
  | none =>
    match a, b with
    | .inf n1, .inf n2 => if n1 == n2 then { x := f.infBits n1 } else invalid f
    | .inf n, _ => { x := f.infBits n }
    | _, .inf n => { x := f.infBits n }
    | .fin n1 m1 e1, .fin n2 m2 e2 => roundSum f mode (zeroSign mode n1 n2) (exactAdd n1 m1 e1 n2 m2 e2)
    | _, _ => invalid f

/-- a − b: a + (−b), a NaN operand keeping its sign (R106). -/
def fSub (f : Fmt) (mode : RMode) (a b : FVal) : FRes := fAdd f mode a b.flip

/-- a × b (R132). -/
def fMul (f : Fmt) (mode : RMode) (a b : FVal) : FRes :=
  match firstNan f [a, b] with
  | some r => r
  | none =>
    let n := xor a.neg? b.neg?
    if (a.isInf && b.isZero) || (a.isZero && b.isInf) then invalid f
    else if a.isInf || b.isInf then { x := f.infBits n }
    else
      match a, b with
      | .fin _ m1 e1, .fin _ m2 e2 => roundFin f mode false n (m1 * m2) (e1 + e2)
      | _, _ => invalid f

/-- a × b + d, rounded once; 0 × ∞ sets NV even beside a NaN addend (R132). -/
def fFma (f : Fmt) (mode : RMode) (a b d : FVal) : FRes :=
  let bad := (a.isInf && b.isZero) || (a.isZero && b.isInf)
  match firstNan f [a, b, d] with
  | some r => if bad then { r with fl := r.fl ||| flNV } else r
  | none =>
    let n := xor a.neg? b.neg?
    if bad then invalid f
    else if a.isInf || b.isInf then
      (match d with
        | .inf n2 => if n == n2 then { x := f.infBits n } else invalid f
        | _ => { x := f.infBits n })
    else
      match a, b, d with
      | _, _, .inf n2 => { x := f.infBits n2 }
      | .fin _ m1 e1, .fin _ m2 e2, .fin n3 m3 e3 =>
        roundSum f mode (zeroSign mode n n3) (exactAdd n (m1 * m2) (e1 + e2) n3 m3 e3)
      | _, _, _ => invalid f

/-- a / b (R132): the exact quotient is carried to enough bits, with a last bit that stands for what is left. -/
def fDiv (f : Fmt) (mode : RMode) (a b : FVal) : FRes :=
  match firstNan f [a, b] with
  | some r => r
  | none =>
    let n := xor a.neg? b.neg?
    match a, b with
    | .inf _, .inf _ => invalid f
    | .inf _, _ => { x := f.infBits n }
    | _, .inf _ => { x := f.sgn n }
    | .fin _ m1 e1, .fin _ m2 e2 =>
      if m2 = 0 then (if m1 = 0 then invalid f else { x := f.infBits n, fl := flDZ })
      else if m1 = 0 then { x := f.sgn n }
      else
        let s := 2 * f.mb + 8 + bitLen m2
        let num := m1 * 2 ^ s
        let q := num / m2
        let k := 2 * q + (if num % m2 = 0 then 0 else 1)
        roundFin f mode false n k (e1 - e2 - s - 1)
    | _, _ => invalid f

/-- The largest k with k² ≤ m, by bits from `i` down. -/
def isqrtFrom : Nat → Nat → Nat → Nat
  | 0, _, k => k
  | i + 1, m, k =>
    let k' := k + 2 ^ i
    isqrtFrom i m (if k' * k' ≤ m then k' else k)

/-- √a (R132). -/
def fSqrt (f : Fmt) (mode : RMode) (a : FVal) : FRes :=
  match firstNan f [a] with
  | some r => r
  | none =>
    match a with
    | .inf n => if n then invalid f else { x := f.infBits false }
    | .fin n m e =>
      if m = 0 then { x := f.sgn n }
      else if n then invalid f
      else
        -- m · 2^e = (m · 2^s) · 2^(e − s) with e − s even and enough bits in m · 2^s
        let s0 := 2 * f.mb + 8
        let s := if (e - s0) % 2 = 0 then s0 else s0 + 1
        let v := m * 2 ^ s
        let r := isqrtFrom (bitLen v / 2 + 1) v 0
        let k := 2 * r + (if r * r = v then 0 else 1)
        roundFin f mode false false k ((e - s) / 2 - 1)
    | _ => invalid f

/-- The order of two values that are no NaN: −1, 0, 1; zeros are equal. -/
def fCmp (a b : FVal) : Int :=
  match a, b with
  | .inf n1, .inf n2 => if n1 == n2 then 0 else if n1 then -1 else 1
  | .inf n, _ => if n then -1 else 1
  | _, .inf n => if n then 1 else -1
  | .fin n1 m1 e1, .fin n2 m2 e2 =>
    let e := if e1 ≤ e2 then e1 else e2
    let x := signedInt n1 m1 * 2 ^ (e1 - e).toNat
    let y := signedInt n2 m2 * 2 ^ (e2 - e).toNat
    if x < y then -1 else if x = y then 0 else 1
  | _, _ => 0

/-- RoundInt(x, mode) of a finite value (R103), with whether it is inexact. -/
def roundInt (mode : RMode) (neg : Bool) (m : Nat) (e : Int) : Int × Bool :=
  let (k, inx) := roundTo mode neg m e 0
  (signedInt neg k, inx)

/-- Clamp(x, lo, hi) (R103). -/
def clampInt (x lo hi : Int) : Int := if x < lo then lo else if hi < x then hi else x

end Sys2Proof.Machine
end

