-- ==== Sys2Proof/Machine/Ops.lean ====
section
/-! DEFINITION. The named operations on strings, bands and the module's tables: finding and changing them, register reads
and writes with their undo entries (R58), path counters (R49), the two program-counter slots and the divergence stack (R39
to R43), rollback (R202), taking a trap and returning from one (R208, R211), and killing a band (R216). -/

namespace Sys2Proof.Machine
open Sys2Proof

/-! ### Tables -/

/-- The string `n` of band `b`. -/
def State.str? (s : State) (b n : Nat) : Option Str := s.strs.find? (fun t => t.band == b && t.num == n)
/-- Change the string `n` of band `b`. -/
def State.modStr (s : State) (b n : Nat) (f : Str → Str) : State :=
  { s with strs := s.strs.map (fun t => if t.band == b && t.num == n then f t else t) }
/-- Change the string that heads the run list. -/
def State.modHead (s : State) (f : Str → Str) : State :=
  match s.strs with
  | [] => s
  | t :: ts => { s with strs := f t :: ts }
/-- Change the bundle being issued. -/
def State.modBun (s : State) (f : Bun → Bun) : State := { s with bun := s.bun.map f }
/-- The band `b`. -/
def State.band? (s : State) (b : Nat) : Option Band := s.bands.find? (fun x => x.id == b)
/-- Change the band `b`. -/
def State.modBand (s : State) (b : Nat) (f : Band → Band) : State :=
  { s with bands := s.bands.map (fun x => if x.id == b then f x else x) }
/-- The core `c` of die `d`. -/
def State.core? (s : State) (d c : Nat) : Option Core := s.cores.find? (fun x => x.die == d && x.num == c)
/-- Change the core `c` of die `d`. -/
def State.modCore (s : State) (d c : Nat) (f : Core → Core) : State :=
  { s with cores := s.cores.map (fun x => if x.die == d && x.num == c then f x else x) }
/-- The site `d`. -/
def State.site? (s : State) (d : Nat) : Option Site := s.sites.find? (fun x => x.die == d)
/-- Change the site `d`. -/
def State.modSite (s : State) (d : Nat) (f : Site → Site) : State :=
  { s with sites := s.sites.map (fun x => if x.die == d then f x else x) }
/-- The context `c`. -/
def State.ctx? (s : State) (c : Nat) : Option Ctx := s.ctxs.find? (fun x => x.id == c)
/-- Change the context `c`. -/
def State.modCtx (s : State) (c : Nat) (f : Ctx → Ctx) : State :=
  { s with ctxs := s.ctxs.map (fun x => if x.id == c then f x else x) }
/-- The launch `l`. -/
def State.launch? (s : State) (l : Nat) : Option Launch := s.launches.find? (fun x => x.id == l)
/-- Change the launch `l`. -/
def State.modLaunch (s : State) (l : Nat) (f : Launch → Launch) : State :=
  { s with launches := s.launches.map (fun x => if x.id == l then f x else x) }
/-- The queue `q`. -/
def State.queue? (s : State) (q : Nat) : Option Queue := s.queues.find? (fun x => x.q == q)
/-- Change the queue `q`; a queue that is not listed has every field at reset. -/
def State.modQueue (s : State) (q : Nat) (f : Queue → Queue) : State :=
  match s.queue? q with
  | some _ => { s with queues := s.queues.map (fun x => if x.q == q then f x else x) }
  | none => { s with queues := s.queues ++ [f { q := q }] }
/-- The bale `i`. -/
def State.bale? (s : State) (i : Nat) : Option Bale := s.bales.find? (fun x => x.id == i)
/-- The operation `o`. -/
def State.op? (s : State) (o : Nat) : Option Op := s.ops.find? (fun x => x.id == o)
/-- Change the operation `o`. -/
def State.modOp (s : State) (o : Nat) (f : Op → Op) : State :=
  { s with ops := s.ops.map (fun x => if x.id == o then f x else x) }
/-- Remove the operation `o`. -/
def State.dropOp (s : State) (o : Nat) : State := { s with ops := s.ops.filter (fun x => x.id != o) }
/-- The request `r`. -/
def State.req? (s : State) (r : Nat) : Option Req := s.reqs.find? (fun x => x.id == r)
/-- Change the request `r`. -/
def State.modReq (s : State) (r : Nat) (f : Req → Req) : State :=
  { s with reqs := s.reqs.map (fun x => if x.id == r then f x else x) }
/-- Remove the request `r`. -/
def State.dropReq (s : State) (r : Nat) : State := { s with reqs := s.reqs.filter (fun x => x.id != r) }
/-- The job `j`. -/
def State.job? (s : State) (j : Nat) : Option Job := s.jobs.find? (fun x => x.id == j)
/-- Change the job `j`. -/
def State.modJob (s : State) (j : Nat) (f : Job → Job) : State :=
  { s with jobs := s.jobs.map (fun x => if x.id == j then f x else x) }
/-- Post events: they are taken later, in any order that their channels allow. -/
def State.post (s : State) (es : List Instr) : State := { s with agenda := s.agenda ++ es }
/-- Write a record of the serai's error log. -/
def State.logErr (s : State) (what x y : Nat) : State := { s with errlog := s.errlog ++ [{ what := what, x := x, y := y }] }

/-! ### Registers -/

/-- v[r] of lane l. -/
def readV (t : Str) (r l : Nat) : Word32 := smGet 0#32 t.v (32 * r + l)
/-- V64(r, l) (R90). -/
def readV64 (t : Str) (r l : Nat) : Word64 := readV t (r + 1) l ++ readV t r l
/-- s[r]; s0 reads zero (R240). -/
def readS (t : Str) (r : Nat) : Word64 := if r = 0 then 0#64 else smGet 0#64 t.sr r
/-- p[r] as a lane mask; p0 is constant true (R82). -/
def readP (t : Str) (r : Nat) : Word32 := if r = 0 then 0xFFFFFFFF#32 else smGet 0#32 t.pr r
/-- The tag of s[r]; s0 is PLAN. -/
def tagS (t : Str) (r : Nat) : Tag := if r = 0 then .plan else smGet .plan t.stag r
/-- The tag of v[r] of lane l. -/
def tagV (t : Str) (r l : Nat) : Tag := smGet .plan t.vtag (32 * r + l)
/-- The tag of p[r] of lane l; p0 is PLAN. -/
def tagP (t : Str) (r l : Nat) : Tag := if r = 0 then .plan else smGet .plan t.ptag (32 * r + l)
/-- The lanes of a mask, ascending. -/
def lanesOf (m : Word32) : List Nat := (List.range 32).filter (fun l => m.getLsbD l)
/-- The mask of a list of lanes. -/
def maskOf (ls : List Nat) : Word32 := ls.foldl (fun m l => m ||| (1#32 <<< l)) 0#32
/-- The mask of every lane of the string. -/
def allLanes (t : Str) : Word32 := if t.lanes = 1 then 1#32 else 0xFFFFFFFF#32

/-- Write lanes of v[r] without an undo entry. -/
def putV (t : Str) (r : Nat) (ls : List Nat) (f : Nat → Word32) : Str :=
  { t with v := ls.foldl (fun m l => smPut 0#32 m (32 * r + l) (f l)) t.v }
/-- Set the tags of lanes of v[r]. -/
def putVTag (t : Str) (r : Nat) (ls : List Nat) (f : Nat → Tag) : Str :=
  { t with vtag := ls.foldl (fun m l => smPut .plan m (32 * r + l) (f l)) t.vtag }
/-- Write s[r] without an undo entry; writes to s0 are discarded (R240). -/
def putS (t : Str) (r : Nat) (x : Word64) (tag : Tag) : Str :=
  if r = 0 then t else { t with sr := smPut 0#64 t.sr r x, stag := smPut .plan t.stag r tag }
/-- Set the tags of lanes of p[r]. -/
def putPTag (t : Str) (r : Nat) (ls : List Nat) (f : Nat → Tag) : Str :=
  { t with ptag := ls.foldl (fun m l => smPut .plan m (32 * r + l) (f l)) t.ptag }
/-- The undo entry of v[r] (R58). -/
def undoV (t : Str) (r : Nat) : Undo := .v r ((List.range 32).map (readV t r)) ((List.range 32).map (tagV t r))
/-- Add an undo entry. -/
def logUndo (t : Str) (u : Undo) : Str := { t with undo := u :: t.undo }
/-- Write lanes of v[r], with its undo entry. -/
def writeV (t : Str) (r : Nat) (ls : List Nat) (f : Nat → Word32) : Str := putV (logUndo t (undoV t r)) r ls f
/-- Write s[r], with its undo entry; s0 takes neither (R240). -/
def writeS (t : Str) (r : Nat) (x : Word64) (tag : Tag) : Str :=
  if r = 0 then t else putS (logUndo t (.s r (readS t r) (tagS t r))) r x tag
/-- Write lanes of p[r], with its undo entry; p0 takes neither (R82). -/
def writeP (t : Str) (r : Nat) (ls : List Nat) (f : Nat → Bool) : Str :=
  if r = 0 then t
  else
    let t := logUndo t (.p r (readP t r) ((List.range 32).map (tagP t r)))
    { t with pr := smPut 0#32 t.pr r (ls.foldl (fun m l => if f l then m ||| (1#32 <<< l) else m &&& ~~~(1#32 <<< l)) (readP t r)) }

/-! ### xstat (R207, R246) -/

/-- TM[0]: traps masked. -/
def tm0 (t : Str) : Bool := t.stat.getLsbD 18
/-- FEN, the FP trap enables: NV bit 4 to NX bit 0. -/
def fen (t : Str) : BitVec 5 := t.stat.extractLsb' 13 5
/-- RM, the default rounding. -/
def rmOf (t : Str) : BitVec 2 := t.stat.extractLsb' 5 2
/-- MODE, the rights. -/
def modeOf (t : Str) : Bool := t.stat.getLsbD 4
/-- Replace the field of `w` bits at `lo`. -/
def setField (x : Word64) (lo w v : Nat) : Word64 :=
  (x &&& ~~~(BitVec.ofNat 64 (2 ^ w - 1) <<< lo)) ||| (BitVec.ofNat 64 (v % 2 ^ w) <<< lo)
/-- OR flags into FLG; bit 4 NV to bit 0 NX. -/
def orFlags (x : Word64) (f : BitVec 5) : Word64 := x ||| (f.zeroExtend 64 <<< 8)

/-! ### Path counters (R49) -/

/-- The counter of path `p`. -/
def pathCount (t : Str) (p : Nat) : Nat := (t.outst.filter (fun x => x.path == p)).length
/-- Count the returns that no older outstanding operation of their path holds back. -/
def settle : List Outst → List Nat → List Outst
  | [], _ => []
  | x :: xs, held => if x.back && !held.contains x.path then settle xs held else x :: settle xs (x.path :: held)
/-- A slot's wait for a full counter is over once the counter has fallen (R49). -/
def fullOver (t : Str) : Wait → Wait
  | .full p => if pathCount t p < 255 then .none else .full p
  | w => w
/-- After counters fell: a `waitc` that is met ends, a slot that a full counter held goes on, and `idle` wakes (R49, R196, R232). -/
def wakePaths (old t : Str) : Str :=
  let fell := decide (t.outst.length < old.outst.length)
  let t := if fell then { t with idleA := false, idleB := false } else t
  let t := { t with holdA := fullOver t t.holdA, holdB := fullOver t t.holdB }
  match t.wait with
  | .path p thr => if pathCount t p ≤ thr then { t with wait := .none } else t
  | _ => t
/-- The return of an operation arrives. -/
def pathReturn (t : Str) (o : Nat) : Str :=
  wakePaths t { t with outst := settle (t.outst.map (fun x => if x.o == o then { x with back := true } else x)) [] }
/-- An operation's withheld entry is discarded: its counter falls at once. -/
def pathDrop (t : Str) (os : List Nat) : Str :=
  wakePaths t { t with outst := settle (t.outst.filter (fun x => !os.contains x.o)) [] }

/-! ### Slots and the divergence stack (R39 to R43) -/

/-- The path of a slot. -/
def slotOf (t : Str) (b : Bool) : Option Path := if b then t.slotB else t.slotA
/-- Set a slot. -/
def setSlot (t : Str) (b : Bool) (p : Option Path) : Str := if b then { t with slotB := p } else { t with slotA := p }
/-- A suspended slot (R208). A handler that unmasks lets the other slot go on, and one that masks again suspends it again (log
70). -/
def suspended (t : Str) (b : Bool) : Bool := t.inTrap && tm0 t && b != t.hB
/-- Replace the stack, with one undo entry for one push, pop or change in place (R58). The depth mark of a handler follows
the stack down, so that `tret` sees records pushed since handler entry (R211). -/
def setStack (t : Str) (st : List Rec) : Str :=
  { logUndo t (.stack t.stack t.hdepth) with stack := st, hdepth := min t.hdepth st.length }
/-- Push a record. -/
def pushRec (t : Str) (r : Rec) : Str := setStack t (r :: t.stack)
/-- Rejoin records whose expected mask is empty are popped as they reach the top (R231); `n` bounds them. -/
def popEmpty : Nat → Str → Str
  | 0, t => t
  | n + 1, t =>
    match t.stack with
    | .rejoin _ _ e :: st => if e = 0#32 then popEmpty n (setStack t st) else t
    | _ => t
/-- A change of the stack may bring such records to the top. -/
def settleTop (t : Str) : Str := popEmpty t.stack.length t
/-- A slot that is empty takes the path record on the top of the stack (R43); a suspended slot takes none. -/
def takeTop (t : Str) (b : Bool) : Str :=
  if (slotOf t b).isSome || suspended t b then t
  else
    match t.stack with
    | .path pc m :: st => setSlot (setStack t st) b (some { pc := pc, mask := m })
    | _ => t
/-- A slot that is empty looks at the stack (R43): what stands empty on the top goes first, and what the taking of a path
record brings to the top after it. -/
def popInto (t : Str) (b : Bool) : Str := settleTop (takeTop (settleTop t) b)
/-- A slot frees (R43). -/
def freeSlot (t : Str) (b : Bool) : Str := popInto (setSlot t b none) b
/-- The stack holds a path record. -/
def hasPath (st : List Rec) : Bool := st.any (fun r => match r with | .path .. => true | .rejoin .. => false)
/-- The string has ended (R43, R231). -/
def atEnd (t : Str) : Bool := t.slotA.isNone && t.slotB.isNone && !hasPath t.stack

/-! ### Rollback (R202) -/

/-- Undo one entry. -/
def undoOne (t : Str) : Undo → Str
  | .v r old tags =>
    putVTag (putV t r (List.range 32) (fun l => old.getD l 0#32)) r (List.range 32) (fun l => tags.getD l .plan)
  | .s r old tag => putS t r old tag
  | .p r old tags => putPTag { t with pr := smPut 0#32 t.pr r old } r (List.range 32) (fun l => tags.getD l .plan)
  | .sys 0x000 old => { t with stat := old }
  | .sys 0x001 old => { t with xtvec := old }
  | .sys 0x003 old => { t with xtpc := old }
  | .sys 0x009 old => { t with wbStrict := old.getLsbD 4 }
  | .sys 0x00A old => { t with benchb := old }
  | .sys 0x00B old => { t with benchl := old }
  | .sys 0x041 old => { t with spanSel := old.extractLsb' 0 12 }
  | .sys i old =>
    if 0x020 ≤ i ∧ i ≤ 0x023 then { t with xwa := t.xwa.set (i - 0x020) old }
    else if 0x024 ≤ i ∧ i ≤ 0x027 then { t with xwc := t.xwc.set (i - 0x024) old }
    else t
  | .rcp old => { t with rcp := old }
  | .stack old d => { t with stack := old, hdepth := d }
  | .loop old prs tags => { t with loop := old, pr := prs, ptag := tags }

/-- No delay of the recipe register survives (R114). -/
def settleRcp (r : Recipe) : Recipe := if r.left = 0 then r else { seen := r.new, new := r.new, left := 0 }

/-- An operation that a rollback to issue number `q` undoes. -/
def undoneBy (b n q : Nat) (o : Op) : Bool := o.b == b && o.n == n && decide (q ≤ o.seq)

/-- The string as a rollback leaves it; `gone` are the operations whose counters fall at once (R49, R202). -/
def rollStr (t : Str) (gone : List Nat) : Str :=
  let u := t.undo.foldl undoOne t
  let u := { u with undo := [], buf := [], fills := [], slotA := t.rp.a, slotB := t.rp.b, lastB := t.rp.lastB,
                    stat := t.rp.stat, rcp := settleRcp u.rcp,
                    owed := t.rp.owed, wait := .none, holdA := .none, holdB := .none, waitX := none, jt := none, yielding := false, idleA := false, idleB := false,
                    barG := [], segA := t.rp.segA, segB := t.rp.segB,
                    acqMarks := u.acqMarks.filter (fun (m : Nat × Nat) => decide (m.1 < t.rp.seq)),
                    joins := u.joins.filter (fun (j : Nat × Word32) => decide (j.1 < t.rp.seq)) }
  pathDrop u gone

/-- Rollback of string `n` of band `b` to its last proof point (R202). -/
def rollback (s : State) (b n : Nat) : State :=
  match s.str? b n with
  | none => s
  | some t =>
    let gone := (s.ops.filter (fun (o : Op) => undoneBy b n t.rp.seq o && !o.sent)).map (fun (o : Op) => o.id)
    let s := { s with ops := (s.ops.filter (fun (o : Op) => !gone.contains o.id)).map
                               (fun (o : Op) => if undoneBy b n t.rp.seq o then { o with undone := true } else o) }
    s.modStr b n (fun t => rollStr t gone)

/-! ### Killing a band (R216) -/

/-- A string of a killed band: it issues nothing more and its withheld entries are discarded. -/
def killStr (t : Str) : Str :=
  { t with ended := true, buf := [], fills := [], undo := [], wait := .none, holdA := .none, holdB := .none, waitX := none, jt := none, yielding := false, pend := [], owed := [], late := [], stop := .none,
           idleA := false, idleB := false }

/-- The core that a place names. -/
def Place.core? : Place → Option Nat
  | .queued c | .resident c | .parked c | .killed c => some c
  | _ => none

/-- The core whose resources a band holds when it is killed; 64, which no die has, for a band that holds none. -/
def Place.holds : Place → Nat
  | .resident c | .parked c | .killed c => c
  | _ => 64

/-- A core's ticket table without the strings of band `b`; an entry whose mask becomes empty is freed (R310). -/
def dropBandTickets (b : Nat) (c : Core) : Core :=
  { c with tickets := (c.tickets.map (fun (e : TicketEnt) => { e with strs := e.strs.filter (fun x => x.1 != b) })).filter
                        (fun (e : TicketEnt) => !e.strs.isEmpty) }

/-- An operation that a kill ends at once: nothing of it has been sent, and it is no released entry's. -/
def killedBy (s : State) (b : Nat) (o : Op) : Bool :=
  o.b == b && !o.sent && !s.rels.any (fun (x : Nat × Nat × Entry) => x.2.2.ops.contains o.id) &&
    (match o.kind with | .job _ | .batch _ => false | _ => true)

/-- KillBand (R216): nothing more issues; what a recording had of the band is discarded and its tear stands (R292); the
settlement follows once every return has arrived (R217). -/
def killBand (s : State) (b : Nat) : State :=
  match s.band? b with
  | none => s
  | some bd =>
    match bd.place with
    | .killed _ | .ended => s
    | _ =>
      let gone := (s.ops.filter (killedBy s b)).map (fun (o : Op) => o.id)
      let s := { s with ops := (s.ops.filter (fun (o : Op) => !gone.contains o.id)).map (fun (o : Op) => if o.b == b && !(match o.kind with | .store | .job _ | .batch _ | .drop _ => true | .copy _ wr _ _ _ _ => wr == Space.pantry | _ => false) then { o with undone := true } else o),
                        strs := s.strs.map (fun (t : Str) => if t.band == b then pathDrop (killStr t) gone else t),
                        cores := s.cores.map (dropBandTickets b) }
      let s := s.modBand b (fun x => { x with place := .killed x.place.holds, recs := [], patches := [], seals := [],
                                               recRcp := none, preempt := false })
      s.post [.bandSettle b]

/-! ### Traps (R203 to R212) -/

/-- The trap causes (R203). -/
inductive Cause where
  | opcode | illegalOrder | align | benchBound | spanFault | remoteNeg | tableRange | divergeOverflow | fp | privilege
  | watch | break_ | recipe | accRange | engine | waybillTorn | pantryDie
  deriving DecidableEq, Repr

/-- The cause codes of R203. -/
def Cause.code : Cause → Nat
  | .opcode => 0x01 | .illegalOrder => 0x02 | .align => 0x03 | .benchBound => 0x04 | .spanFault => 0x05 | .remoteNeg => 0x06
  | .tableRange => 0x07 | .divergeOverflow => 0x08 | .fp => 0x0A | .privilege => 0x0B | .watch => 0x0C | .break_ => 0x0D
  | .recipe => 0x0E | .accRange => 0x0F | .engine => 0x10 | .waybillTorn => 0x11 | .pantryDie => 0x12

/-- A trap as it is raised: cause, slot of the bundle, lane, detail, trapping bundle, late, FP conditions. -/
structure TrapInfo where
  cause : Cause
  islot : Nat := 0
  lane : Nat := 0
  detail : Nat := 0
  bad : Word64 := 0#64
  late : Bool := false
  fpconds : BitVec 5 := 0#5
  deriving DecidableEq, Repr

/-- The value of xtcause (R205). -/
def causeWord (mask : Word32) (i : TrapInfo) : Word64 :=
  mask ++ BitVec.ofNat 16 i.detail ++ BitVec.ofNat 5 i.lane ++ BitVec.ofBool i.late ++ BitVec.ofNat 2 i.islot ++
    BitVec.ofNat 8 i.cause.code

/-- `idx` is a bundle of a loop's body (R235). -/
def inBodyAt (lp : LoopSt) (idx : Nat) : Bool := decide (lp.base + 1 ≤ idx) && decide (idx ≤ lp.base + 1 + lp.n1)

/-- The string that enters its handler (R208): the handler slot takes xtvec with its mask, the other slot is suspended,
and the handler's first bundle becomes the proof point, from issue number `q` on. `base` is the bale's: a trap is taken inside the
body of a running loop when its bundle lies there, or, of a late cause, whenever the loop runs (R238, log 91). -/
def enterHandler (base : Word64) (t : Str) (i : TrapInfo) (q : Nat) : Str :=
  let hB := t.slotA.isNone
  match slotOf t hB with
  | none => t
  | some h =>
    let stat := setField (setField t.stat 18 1 1) 19 5 i.fpconds.toNat
    let t := { t with xtcause := causeWord h.mask i, xtpc := h.pc &&& ~~~15#64, xtbad := i.bad &&& ~~~15#64, stat := stat,
                      hB := hB, hdepth := t.stack.length, inTrap := true,
                      loopTrap := t.inTrap && t.loopTrap || t.loop.act && (i.late || inBodyAt t.loop ((i.bad - base) >>> 4).toNat) }
    let t := setSlot t hB (some { pc := t.xtvec, mask := h.mask })
    { t with rp := { a := t.slotA, b := t.slotB, stat := stat, owed := t.owed, lastB := t.lastB, seq := q,
                      segA := t.segA, segB := t.segB } }

/-- xtvec is a bundle of the bale (R208). -/
def inBale (s : State) (bale : Nat) (pc : Word64) : Bool :=
  match s.bale? bale with
  | none => false
  | some bl => decide (bl.base.toNat ≤ pc.toNat) && decide (pc.toNat < bl.base.toNat + 16 * bl.len)

/-- TakeTrap (R208), with the fates of R210. In the executive profile the core halts and the cause is logged (R87, R254). -/
def takeTrap (s : State) (b n : Nat) (i : TrapInfo) : State :=
  match s.str? b n, s.band? b with
  | some t, some bd =>
    if bd.prof = .executive then
      let s := s.modStr b n (fun t => { killStr t with slotA := none, slotB := none })
      let s := match bd.place.core? with
        | some c => s.modCore 15 c (fun k => { k with halted := true })
        | none => s
      s.logErr (256 + i.cause.code) (if i.cause = .break_ then i.detail else 0) i.bad.toNat
    else
      let s := rollback s b n
      if tm0 t then killBand s b
      else
        match s.str? b n with
        | none => s
        | some u =>
          if u.xtvec = 0#64 || !inBale s bd.bale u.xtvec then killBand s b
          else s.modStr b n (fun u => enterHandler (((s.bale? bd.bale).map (fun (x : Bale) => x.base)).getD 0#64) u i s.nseq)
  | _, _ => s

/-! ### The string that issues -/

/-- The bundle being issued, or, where no bundle stands, the one that the string's own slots name. -/
def State.bunOf (s : State) (t : Str) : Bun :=
  match s.bun with
  | some bu => bu
  | none =>
    let sb := t.slotA.isNone
    let p := (slotOf t sb).getD { pc := 0#64, mask := 0#32 }
    { lat := t, pc := p.pc, slotB := sb, mask := p.mask, seq := s.nseq }

/-- Run a meaning on the string that heads the run list, with the bundle being issued. -/
def State.onHead (s : State) (k : Str → Bun → State) : Host.Outcome State Fault Refusal :=
  match s.strs with
  | [] => .fault .noString
  | t :: _ => .next (k t (s.bunOf t))

/-- The bundle has ended early: its remaining slots have no effect. -/
def State.endBun (s : State) : State := s.modBun (fun bu => { bu with ended := true })

/-- A slot raises a trap: the bundle has no effect of its own (R86), and the trap is taken. -/
def State.raise (s : State) (t : Str) (bu : Bun) (i : TrapInfo) : State :=
  let s := s.modHead (fun _ => bu.lat)
  (takeTrap s t.band t.num { i with islot := bu.islot, bad := bu.pc }).endBun

/-- What holds back the bundle of one slot alone (R45): a full queue, a full counter, the drain of its released entries, the accesses that
a card's read follows. In the others the string waits. -/
def Wait.ofSlot : Wait → Bool
  | .unit | .full _ | .card _ => true
  | .drain scope _ => scope == 0
  | _ => false

/-- The string waits, or its bundle in one slot does. -/
def putWait (b : Bool) (w : Wait) (t : Str) : Str :=
  if !w.ofSlot then { t with wait := w } else if b then { t with holdB := w } else { t with holdA := w }

/-- A bundle that waited for a place in a queue, or for a tile, looks again. -/
def unitFree (t : Str) : Str :=
  { t with wait := if t.wait = .tile then .none else t.wait, holdA := if t.holdA = .unit then .none else t.holdA,
           holdB := if t.holdB = .unit then .none else t.holdB }

/-- A bundle cannot issue yet: it has no effect, and it waits. -/
def State.hold (s : State) (bu : Bun) (w : Wait) : State :=
  let s := { s with ops := s.ops.filter (fun (o : Op) => !undoneBy bu.lat.band bu.lat.num bu.seq o) }
  ((s.modHead (fun _ => putWait bu.slotB w bu.lat)).modBun (fun bu => { bu with held := true })).endBun

/-- The lanes of the path that issues (R44). -/
def State.issueMask (s : State) : Word32 := (s.bun.map (fun (b : Bun) => b.mask)).getD 0xFFFFFFFF#32

/-- Paths of these lanes go on after a `join`: every access that they made before it is ordered before every later one (R44,
R155). -/
def State.markJoins (s : State) (ms : List Word32) : State :=
  if ms.isEmpty then s
  else ({ s with nseq := s.nseq + 1 }).modHead (fun t => { t with joins := t.joins ++ ms.map (fun m => (s.nseq, m)) })

/-- ActiveLanes() as a mask (R82). -/
def activeMask (bu : Bun) (g : PReg) : Word32 := bu.mask &&& readP bu.lat g.toNat

/-- The launch of a band records this run of it (R292). -/
def State.records (s : State) (b : Nat) : Bool :=
  match s.band? b with
  | none => false
  | some bd => !bd.plain && (s.launch? bd.launch).any (fun l => l.recording && !l.replay)

/-! ### Return from a trap (R211) -/

/-- The barrier bundle whose wait is left and at which the string stands (R194). -/
def pendHere (t : Str) : Option Pend :=
  t.pend.find? (fun (p : Pend) => p.inTrap == t.inTrap && (slotOf t p.slotB).any (fun (x : Path) => x.pc == p.pc))

/-- The string after `tret`: the issuing slot takes xtpc with MASK, TM clears, and the suspended slot resumes. A loop whose
body does not hold xtpc is abandoned (R238). -/
def leaveHandler (t : Str) (slotB : Bool) (loopKept : Bool) : Str :=
  let t := setSlot t slotB (some { pc := t.xtpc, mask := t.xtcause.extractLsb' 32 32 })
  let t := { t with stat := setField t.stat 18 6 0, inTrap := false, loopTrap := false }
  let t := { t with pend := t.pend.filter (fun (p : Pend) => !p.inTrap && (slotOf t p.slotB).any (fun (x : Path) => x.pc == p.pc)) }
  if t.loop.act && !loopKept then { t with loop := { t.loop with act := false } } else t

end Sys2Proof.Machine
end

