-- ==== Sys2Proof/Machine/Flags.lean ====
section
/-! DEFINITION. The flag rules: collecting the IEEE flags of a bundle into xstat, and raising FP where a flag's trap is
enabled (R105, R124, R210, R246). -/

namespace Sys2Proof.Machine
open Sys2Proof

/-- The flags that raise FP: enabled, and traps not masked (R105, R210). -/
def fpTraps (lat : Str) (fl : Flags) : Flags := if tm0 lat then 0#5 else fl &&& fen lat

/-- The first lane whose flags raise FP. -/
def fpLane (lat : Str) (fls : List (Nat × Flags)) : Nat :=
  ((fls.find? (fun x => fpTraps lat x.2 != 0#5)).map (fun x => x.1)).getD 0

/-- Every flag that the lanes set. -/
def orAll (fls : List (Nat × Flags)) : Flags := fls.foldl (fun a x => a ||| x.2) 0#5

/-- Collect flags into xstat and into the bundle (R246). -/
def State.setFlags (s : State) (fl : Flags) : State :=
  (s.modHead (fun t => { t with stat := orFlags t.stat fl })).modBun (fun bu => { bu with flags := bu.flags ||| fl })

/-- Either FP is raised, or the flags are set and `k` goes on. -/
def State.withFlags (s : State) (t : Str) (bu : Bun) (fls : List (Nat × Flags)) (k : State → State) : State :=
  let tr := fpTraps bu.lat (orAll fls)
  if tr ≠ 0#5 then s.raise t bu { cause := .fp, lane := fpLane bu.lat fls, detail := tr.toNat, fpconds := tr }
  else k (if orAll fls = 0#5 then s else s.setFlags (orAll fls))

end Sys2Proof.Machine
end

