-- ==== Sys2Proof/Machine/Operands.lean ====
section
/-! DEFINITION. The operand forms of the lane instructions: active lanes (R82), operands read from the latch of the bundle
(R84, R123), origin tags of results (R289, R290), and writing a result to v lanes, predicates or an s register. -/

namespace Sys2Proof.Machine
open Sys2Proof

/-- "Any other operation whose every source is PLAN" is PLAN, every other result DATA (R290). -/
def joinTags (ts : List Tag) : Tag := if ts.all (fun t => t == .plan) then .plan else .data

/-- The lanes of the path whose guard lane is not PLAN (R290). -/
def guardTaint (bu : Bun) (g : PReg) : List Nat :=
  if g = 0#3 then [] else (lanesOf bu.mask).filter (fun l => tagP bu.lat g.toNat l != .plan)

/-- Write lanes of v[d] with tags; lanes that a guard taints take DATA (R290). -/
def State.writeLanes (s : State) (bu : Bun) (g : PReg) (d : Nat) (ls : List Nat) (f : Nat → Word32) (tag : Nat → Tag) : State :=
  let rec' := s.records bu.lat.band
  let taint := if rec' then guardTaint bu g else []
  if ls.isEmpty && taint.isEmpty then s
  else s.modHead (fun t =>
    let t := writeV t d ls f
    if rec' then putVTag (putVTag t d ls tag) d taint (fun _ => .data) else t)

/-- Write lanes of p[d] with tags. -/
def State.writePreds (s : State) (bu : Bun) (g : PReg) (d : Nat) (ls : List Nat) (f : Nat → Bool) (tag : Nat → Tag) : State :=
  let rec' := s.records bu.lat.band
  let taint := if rec' then guardTaint bu g else []
  if d = 0 || (ls.isEmpty && taint.isEmpty) then s
  else s.modHead (fun t =>
    let t := writeP t d ls f
    if rec' then putPTag (putPTag t d ls tag) d taint (fun _ => .data) else t)

/-- Write s[d] with its tag. -/
def State.writeScalar (s : State) (bu : Bun) (d : Nat) (x : Word64) (tag : Tag) : State :=
  s.modHead (fun t => writeS t d x (if s.records bu.lat.band then tag else .plan))

/-- A per-lane instruction whose result and flags are `f` of the lane, read from the latch. -/
def State.laneOp (s : State) (g : PReg) (d : VReg) (f : Str → Nat → FRes) (tag : Str → Nat → Tag) :
    Host.Outcome State Fault Refusal :=
  s.onHead (fun t bu =>
    let ls := lanesOf (activeMask bu g)
    s.withFlags t bu (ls.map (fun l => (l, (f bu.lat l).fl)))
      (fun s => s.writeLanes bu g d.toNat ls (fun l => BitVec.ofNat 32 (f bu.lat l).x) (tag bu.lat)))

/-- A per-lane integer instruction: no flag. -/
def State.laneInt (s : State) (g : PReg) (d : VReg) (f : Str → Nat → Word32) (tag : Str → Nat → Tag) :
    Host.Outcome State Fault Refusal :=
  s.onHead (fun _ bu => s.writeLanes bu g d.toNat (lanesOf (activeMask bu g)) (f bu.lat) (tag bu.lat))

/-- Two sources a and b (R125). -/
def State.lane2 (s : State) (g : PReg) (d a b : VReg) (f : Word32 → Word32 → Word32) : Host.Outcome State Fault Refusal :=
  s.laneInt g d (fun t l => f (readV t a.toNat l) (readV t b.toNat l)) (fun t l => joinTags [tagV t a.toNat l, tagV t b.toNat l])

/-- One source a (R126). -/
def State.lane1 (s : State) (g : PReg) (d a : VReg) (f : Word32 → Word32) : Host.Outcome State Fault Refusal :=
  s.laneInt g d (fun t l => f (readV t a.toNat l)) (fun t l => joinTags [tagV t a.toNat l])

/-- Three sources: a, b and the old d (R126, R127, R143). -/
def State.lane3 (s : State) (g : PReg) (d a b : VReg) (f : Word32 → Word32 → Word32 → Word32) :
    Host.Outcome State Fault Refusal :=
  s.laneInt g d (fun t l => f (readV t a.toNat l) (readV t b.toNat l) (readV t d.toNat l))
    (fun t l => joinTags [tagV t a.toNat l, tagV t b.toNat l, tagV t d.toNat l])

/-- Two FP32 sources. -/
def State.fp2 (s : State) (g : PReg) (d a b : VReg) (f : RMode → Nat → Nat → FRes) : Host.Outcome State Fault Refusal :=
  s.laneOp g d (fun t l => f (rmode (rmOf t).toNat) (readV t a.toNat l).toNat (readV t b.toNat l).toNat)
    (fun t l => joinTags [tagV t a.toNat l, tagV t b.toNat l])

/-- One FP32 source. -/
def State.fp1 (s : State) (g : PReg) (d a : VReg) (f : RMode → Nat → FRes) : Host.Outcome State Fault Refusal :=
  s.laneOp g d (fun t l => f (rmode (rmOf t).toNat) (readV t a.toNat l).toNat) (fun t l => joinTags [tagV t a.toNat l])

/-- Sources a, b and the old d. -/
def State.fp3 (s : State) (g : PReg) (d a b : VReg) (f : RMode → Nat → Nat → Nat → FRes) : Host.Outcome State Fault Refusal :=
  s.laneOp g d
    (fun t l => f (rmode (rmOf t).toNat) (readV t a.toNat l).toNat (readV t b.toNat l).toNat (readV t d.toNat l).toNat)
    (fun t l => joinTags [tagV t a.toNat l, tagV t b.toNat l, tagV t d.toNat l])

/-- A compare into a predicate (R130); the flags of a float compare are `fl`. -/
def State.laneCmp (s : State) (g p : PReg) (a b : VReg) (f : Word32 → Word32 → Bool) (fl : Word32 → Word32 → Flags) :
    Host.Outcome State Fault Refusal :=
  s.onHead (fun t bu =>
    let ls := lanesOf (activeMask bu g)
    let A := fun l => readV bu.lat a.toNat l
    let B := fun l => readV bu.lat b.toNat l
    s.withFlags t bu (ls.map (fun l => (l, fl (A l) (B l))))
      (fun s => s.writePreds bu g p.toNat ls (fun l => f (A l) (B l))
        (fun l => joinTags [tagV bu.lat a.toNat l, tagV bu.lat b.toNat l])))

/-- Predicate logic (R131). -/
def State.lanePred (s : State) (g d : PReg) (srcs : List PReg) (f : List Bool → Bool) : Host.Outcome State Fault Refusal :=
  s.onHead (fun _ bu =>
    let ls := lanesOf (activeMask bu g)
    s.writePreds bu g d.toNat ls (fun l => f (srcs.map (fun p => (readP bu.lat p.toNat).getLsbD l)))
      (fun l => joinTags (srcs.map (fun p => tagP bu.lat p.toNat l))))

/-- A per-string scalar instruction writing s[d] (R240). -/
def State.scalarOp (s : State) (d : SReg) (f : Str → Word64) (tag : Str → Tag) : Host.Outcome State Fault Refusal :=
  s.onHead (fun _ bu => s.writeScalar bu d.toNat (f bu.lat) (tag bu.lat))

/-- The undo entries of a long-latency destination, taken at issue (R58, R85). -/
def logDest (t : Str) : Dest → Str
  | .v r k _ => (List.range k).foldl (fun t i => logUndo t (undoV t (r + i))) t
  | .s r => if r = 0 then t else logUndo t (.s r (readS t r) (tagS t r))

/-- A long-latency result that is computed at issue (R47, R135, R148): the destination's undo entry is taken, the operation
is in flight, and its result is owed under the lookahead. -/
def State.oweCalc (s : State) (bu : Bun) (la : Nat) (dst : Dest) (tags : List Tag) (vals : List Word64) : State :=
  let o := s.nextId
  let op : Op := { id := o, b := bu.lat.band, n := bu.lat.num, seq := s.nseq, path := none, pc := bu.pc, kind := .calc vals,
                   sent := true, fin := true, done := true }
  let s := { s with nextId := s.nextId + 1, nseq := s.nseq + 1, ops := s.ops ++ [op] }
  let ow : Owed := { o := o, left := la, dst := dst, tags := tags }
  (s.modHead (fun t => let t := logDest t dst; { t with owed := t.owed ++ [ow] })).post
    [.longLatencyResult bu.lat.band bu.lat.num o]

/-- A long-latency lane instruction (R135, R148): result and flags by lane; the flags are set at issue. -/
def State.laneLong (s : State) (g : PReg) (d : VReg) (la : BitVec 4) (f : Str → Word32 → Nat → FRes)
    (tag : Str → Word32 → Nat → Tag) : Host.Outcome State Fault Refusal :=
  s.onHead (fun t bu =>
    let m := activeMask bu g
    let ls := lanesOf m
    if ls.isEmpty then s.writeLanes bu g d.toNat [] (fun _ => 0#32) (fun _ => .plan)
    else
      s.withFlags t bu (ls.map (fun l => (l, (f bu.lat m l).fl)))
        (fun s =>
          let taint := if s.records bu.lat.band then guardTaint bu g else []
          let tg := ls.map (fun l => if taint.contains l then .data else tag bu.lat m l)
          let s := s.oweCalc bu la.toNat (.v d.toNat 1 m) tg (ls.map (fun l => BitVec.ofNat 64 (f bu.lat m l).x))
          if taint.isEmpty then s else s.modHead (fun t => putVTag t d.toNat taint (fun _ => .data))))

end Sys2Proof.Machine
end

