-- ==== Sys2Proof/Machine/Contain.lean ====
section
/-! DEFINITION. Save areas, saving a band, quarantine of a context and a fatal context error (R218 to R222, R316). -/

namespace Sys2Proof.Machine
open Sys2Proof

/-- x rounded up to a multiple of m. -/
def roundUp (x m : Nat) : Nat := (x + m - 1) / m * m

/-- The size of a band's save area (R218). -/
def saveSize (bd : Band) : Nat :=
  roundUp (4096 + bd.nstr * (5120 + 128 * bd.regs) + bd.benchBytes + 16384 * bd.ntiles) 65536

/-- The pages of the device-OS region (R361). -/
def osPages : Nat := 262144

/-- Frames of a domain (R305: [37:16] of the device physical address). -/
def frameCount : Nat := 4194304

/-- The frames that save areas take, one domain after another. -/
def areaFrames (s : State) : Nat := (s.bands.map (fun (b : Band) => if b.area.isSome then saveSize b / 65536 else 0)).sum

/-- A frame that is taken in one of the domains: by a page, by a dropped replica, which keeps its frame, by a move that has reserved its
new one, or by a save area. -/
def frameUsed (s : State) (m : BitVec 8) (f : Nat) : Bool :=
  s.pages.any (fun (p : Page) => (!p.hostres && p.frame == f && ((p.rmask ||| p.dropped) &&& m) != 0#8) ||
    p.move.any (fun x => !x.2.2.1 && x.2.2.2 == f && (x.2.1 &&& m) != 0#8)) ||
  s.bands.any (fun (b : Band) => b.area.any (fun (x : Nat × Nat) =>
    m.getLsbD x.1 && decide (x.2 ≤ f) && decide (f < x.2 + saveSize b / 65536)))

/-- Where the save area of a band lies (R218): consecutive frames above every frame of its domain that is taken; which domain of the
band's module holds it is open (log 81). -/
def areaPlace (s : State) (bd : Band) : Nat × Nat :=
  let d := (Config.freeWord s.nfree).toNat % 8
  let top := (s.pages.map (fun (p : Page) => max (p.frame + 1) ((p.move.map (fun x => if x.2.2.1 then 0 else x.2.2.2 + 1)).getD 0))).foldl max osPages
  let top := (s.bands.map (fun (b : Band) => (b.area.map (fun (x : Nat × Nat) => x.2 + saveSize b / 65536)).getD 0)).foldl max top
  (d, if top + saveSize bd / 65536 ≤ frameCount then top else osPages)

/-- Lines of granary written anew are whole again (R122, R357): `n` bytes from physical address `a`. -/
def clearFaults (s : State) (a n : Nat) : State :=
  { s with lineFault := s.lineFault.filter (fun (x : Nat × Nat × Bool) => decide (x.1 < a / 128) || decide ((a + n - 1) / 128 < x.1)) }

/-- The first physical address and the size of a band's save area. -/
def areaAt (bd : Band) : Option (Nat × Nat) := bd.area.map (fun (x : Nat × Nat) => (x.1 * 2 ^ 38 + x.2 * 65536, saveSize bd))

/-- The damaged lines of a save area: ECC error, and whether the MAC matches (R357). -/
def areaFaults (s : State) (bd : Band) : List (Nat × Bool) :=
  match areaAt bd with
  | some (a, n) => (s.lineFault.filter (fun (x : Nat × Nat × Bool) => decide (a / 128 ≤ x.1) && decide (x.1 < (a + n) / 128))).map (fun x => x.2)
  | none => []

/-- The bytes of a waybill (R282). -/
def waybillSize (w : Waybill) : Nat := 64 + 64 * w.recs.length + 16 * w.patches.length + 32 * w.seals.length

/-- The save pool in use: areas of saved bands and spilled waybills (R219, R281). -/
def poolUsed (s : State) (c : Nat) : Nat :=
  ((s.bands.filter (fun (b : Band) => b.ctx == c && (match b.place with | .saved _ => true | _ => false))).map saveSize).foldl (· + ·) 0 +
  ((s.waybills.filter (fun (w : Waybill) => w.ctx == c && w.spilled)).map waybillSize).foldl (· + ·) 0

/-- The pool of a context. -/
def poolOf (s : State) (c : Nat) : Nat := ((s.ctx? c).map (fun x => x.pool)).getD 0

/-- The least recently replayed of some waybills; one that was never replayed counts from its commit (log 100). -/
def oldestWaybill : List Waybill → Option Waybill
  | [] => none
  | w :: ws =>
    match oldestWaybill ws with
    | none => some w
    | some v => if v.used < w.used then some v else some w

/-- The pool of context `c` has room for `n` bytes. -/
def roomFor (s : State) (c n : Nat) : Bool := decide (poolUsed s c + n ≤ poolOf s c)

/-- Forget a waybill. -/
def dropWaybill (s : State) (w : Waybill) : State :=
  { s with waybills := s.waybills.filter (fun (v : Waybill) => !(v.ctx == w.ctx && v.handle == w.handle)) }

/-- Make room for `n` bytes in the pool of context `c`: spilled waybills yield, least recently replayed first, until there is
room or none is left (R219); `fuel` bounds them. -/
def makeRoomIn : Nat → State → Nat → Nat → State
  | 0, s, _, _ => s
  | fuel + 1, s, c, n =>
    if roomFor s c n then s
    else
      match oldestWaybill (s.waybills.filter (fun (w : Waybill) => w.ctx == c && w.spilled)) with
      | none => s
      | some w => makeRoomIn fuel (dropWaybill s w) c n
/-- Every spilled waybill may be asked to yield. -/
def makeRoom (s : State) (c n : Nat) : State := makeRoomIn s.waybills.length s c n

/-- A string as a save leaves it: no span translation, no delay of the recipe (R114, R250). -/
def saveStr (t : Str) : Str := { t with lspan := [], rcp := settleRcp t.rcp, yielding := false, stop := .none, rslot := 8 }

/-- Save a band (R218, R219): its strings and memory stay with it, its core's resources are free. -/
def saveBand (s : State) (b : Nat) : State :=
  match s.band? b with
  | none => s
  | some bd =>
    let s := { s with strs := s.strs.map (fun (t : Str) => if t.band == b then saveStr t else t) }
    let s := match bd.place.core? with
      | some c => s.modCore bd.die c (fun k => { dropBandTickets b k with wbank := if k.wbank == some b then none else k.wbank })
      | none => s
    let area := areaPlace s bd
    let s := clearFaults { s with nfree := s.nfree + 1 } (area.1 * 2 ^ 38 + area.2 * 65536) (saveSize bd)
    (s.modBand b (fun x => { x with place := .saved false, preempt := false, area := some area })).post [.bandDispatch bd.die]

/-- A string waits on nothing that a save keeps. -/
def Str.waitsLong (t : Str) : Bool :=
  (pendHere t).isSome || (match t.wait with | .bar .. | .path .. | .ticket _ => true | _ => false)

/-- Roll back every string of a band. -/
def rollBand (s : State) (b : Nat) : State :=
  (s.strs.filter (fun (t : Str) => t.band == b && !t.ended)).foldl (fun s t => if t.waitsLong && t.buf.isEmpty then s else rollback s b t.num) s

/-- Park a band for a quarantine (R222): rolled back and saved, or, with no area to be found, parked in place. A replaying band
stops submitting and is saved once what it has submitted has returned (R364); a band in a core's queue goes back to the
dispatcher, which takes no band of a frozen context. -/
def parkBand (s : State) (b : Nat) : State :=
  match s.band? b with
  | none => s
  | some bd =>
    match bd.place with
    | .queued c =>
      (s.modCore bd.die c (fun k => { k with bandQ := k.bandQ.filter (fun x => x != b) })).modBand b (fun x => { x with place := .waiting })
    | .resident c =>
      if bd.replayAt.isSome then (s.modBand b (fun x => { x with preempt := true })).post [.bandSave b]
      else
      let s := makeRoom (rollBand s b) bd.ctx (saveSize bd)
      if roomFor s bd.ctx (saveSize bd) then saveBand s b else s.modBand b (fun x => { x with place := .parked c })
    | _ => s

/-- A launch completes at once with status CONTEXT (R222, R316, R366). -/
def endLaunches (s : State) (c : Nat) : State :=
  let ls := s.launches.filter (fun (l : Launch) => l.ctx == c && !l.complete)
  ({ s with launches := s.launches.map (fun (l : Launch) =>
      if l.ctx == c && !l.complete then { l with atOnce := true, stopped := true, status := if l.status = 0 then 7 else l.status } else l) }).post
    (ls.map (fun (l : Launch) => Instr.launchComplete l.id))

/-- Quarantine of context `c` (R222). -/
def quarantine (s : State) (c : Nat) : State :=
  match s.ctx? c with
  | none => s
  | some x =>
    if x.quarantined then s
    else
      let s := s.modCtx c (fun x => { x with quarantined := true, frozen := true })
      let s := (s.bands.filter (fun (b : Band) => b.ctx == c)).foldl (fun s b => parkBand s b.id) s
      endLaunches s c

/-- A fatal context error (R316): every band of the context is killed without relaunch, every open launch completes with
CONTEXT; the context is not quarantined. -/
def contextFatal (s : State) (c : Nat) : State :=
  let s := (s.bands.filter (fun (b : Band) => b.ctx == c)).foldl (fun s b => killBand s b.id) s
  endLaunches s c

/-- An access violation in a confidential context quarantines it (R221). -/
def violation (s : State) (c : Nat) : State :=
  match s.ctx? c with
  | some x => if x.conf then quarantine s c else s
  | none => s

/-- The context of a band. -/
def ctxOf (s : State) (b : Nat) : Nat := ((s.band? b).map (fun x => x.ctx)).getD 0

end Sys2Proof.Machine
end

