-- ==== Sys2Proof/Machine/Record.lean ====
section
/-! DEFINITION. Waybill recording as strings meet it: tears found at issue and at release (R293), the records of a band with
their patch slots, shadow states and FILL records (R283, R284, R291, R292). -/

namespace Sys2Proof.Machine
open Sys2Proof

/-- Band `b` tears the recording with cause `k`: its first cause stands, and the launch's recording is lost (R293). -/
def markTear (s : State) (b k : Nat) : State :=
  match s.band? b with
  | none => s
  | some bd =>
    (s.modBand b (fun x => { x with torn := true, tcause := if x.torn then x.tcause else k })).modLaunch bd.launch
      (fun l => { l with torn := true })

/-- The launch of band `b` has already been torn. -/
def isTorn (s : State) (b : Nat) : Bool :=
  match s.band? b with
  | none => false
  | some bd => (s.launch? bd.launch).any (fun (l : Launch) => l.torn)

/-- A tear found at issue: with STRICT set the first tear raises WAYBILL_TORN, otherwise the bundle goes on (R293). -/
def State.tearAt (s : State) (t : Str) (bu : Bun) (tears : Bool) (k : Nat) (go : State → State) : State :=
  if !(tears && s.records bu.lat.band) then go s
  else
    let first := !isTorn s bu.lat.band
    let s := markTear s bu.lat.band k
    if first && bu.lat.wbStrict then s.raise t bu { cause := .waybillTorn } else go s

/-- Records of a launch so far, the BAND record of every band that has started included (R282). -/
def recordCount (s : State) (l : Nat) : Nat :=
  ((s.bands.filter (fun (x : Band) => x.launch == l && (match x.place with | .waiting | .queued _ => false | _ => true))).map
    (fun (x : Band) => x.recs.length + 1)).foldl (· + ·) 0

/-- Patch slots of a launch so far. -/
def patchCount (s : State) (l : Nat) : Nat :=
  ((s.bands.filter (fun (x : Band) => x.launch == l)).map (fun (x : Band) => x.patches.length)).foldl (· + ·) 0

/-- Seals of a launch so far. -/
def sealCount (s : State) (l : Nat) : Nat :=
  ((s.bands.filter (fun (x : Band) => x.launch == l)).map (fun (x : Band) => x.seals.length)).foldl (· + ·) 0

/-- Seals of a launch whose value has not been read. -/
def sealsOut (s : State) (l : Nat) : Nat :=
  (s.ops.filter (fun (o : Op) => (match o.kind with | .seal .. => true | _ => false) && !o.done && !o.undone &&
    (s.band? o.b).any (fun (b : Band) => b.launch == l))).length

/-- The bytes of a waybill store (R26). -/
def storeBytesMax : Nat := 8388608

/-- The valid waybills that lie in a die's store. -/
def inStore (s : State) (die : Nat) : List Waybill := s.waybills.filter (fun (w : Waybill) => w.die == die && !w.spilled && w.valid)

/-- A die's store has room for `n` bytes once the least recently replayed of its waybills have been moved to the save pool
(R281); `none` where it has not. `fuel` bounds the waybills moved. -/
def storeRoom : Nat → State → Nat → Nat → Option State
  | fuel, s, die, n =>
    if ((inStore s die).map waybillSize).sum + n ≤ storeBytesMax then some s
    else
      match fuel with
      | 0 => none
      | fuel + 1 =>
        match oldestWaybill (inStore s die) with
        | none => none
        | some w =>
          if roomFor s w.ctx (waybillSize w) then
            storeRoom fuel { s with waybills := s.waybills.map (fun (v : Waybill) => if v.ctx == w.ctx && v.handle == w.handle then { v with spilled := true } else v) } die n
          else none

/-- The store of its die can take what the launch has recorded so far, the seals whose values are still to be read included, its older
waybill of the handle replaced (R281). -/
def recordFits (s : State) (l : Nat) : Bool :=
  match s.launch? l with
  | none => true
  | some ln =>
    let s0 := { s with waybills := s.waybills.filter (fun (v : Waybill) => !(v.ctx == ln.ctx && v.handle == ln.handle)) }
    (storeRoom s0.waybills.length s0 (ln.dies.headD 0) (64 + 64 * recordCount s l + 16 * patchCount s l + 32 * (sealCount s l + sealsOut s l))).isSome

/-- The BAND record of a band that starts (R283, R292): one that is the launch's 65,537th, or finds no room, tears (R293). -/
def recordBand (s : State) (b : Nat) : State :=
  match s.band? b with
  | none => s
  | some bd =>
    if !s.records b || isTorn s b then s
    else if 65536 < recordCount s bd.launch then markTear s b 5
    else if !recordFits s bd.launch then markTear s b 8
    else s

/-- Append a record to band `b`; a 65,537th record, a 257th patch slot or want of room in the store tears (R293, causes 5, 6
and 8). -/
def addRecord (s : State) (b : Nat) (img : List Byte) (ps : List Patch) : State :=
  match s.band? b with
  | none => s
  | some bd =>
    if isTorn s b then s
    else
      let s := s.modBand b (fun x =>
        { x with recs := x.recs ++ [img],
                 patches := x.patches ++ ps.map (fun (p : Patch) => { p with recno := x.recs.length }) })
      if 65536 < recordCount s bd.launch then markTear s b 5
      else if 256 < patchCount s bd.launch then markTear s b 6
      else if !recordFits s bd.launch then markTear s b 8
      else s

/-- The shadow state of a bench word. -/
def shadowOf (bd : Band) (w : Nat) : Shadow := smGet .none bd.shadow w

/-- Set shadow states. -/
def setShadows (bd : Band) (ws : List (Nat × Shadow)) : Band :=
  { bd with shadow := ws.foldl (fun m x => smPut .none m x.1 x.2) bd.shadow }

/-- The bench words that `n` bytes from `a` touch. -/
def wordsOf (a n : Nat) : List Nat := if n = 0 then [] else (List.range ((a + n - 1) / 4 - a / 4 + 1)).map (a / 4 + ·)

/-- A word may be read by a recorded command: FILL or ENGINE (R293, cause 2). -/
def shadowReadable (bd : Band) (w : Nat) : Bool :=
  match shadowOf bd w with
  | .fill _ | .engine => true
  | _ => false

/-- A word is FILL. -/
def shadowFill (bd : Band) (w : Nat) : Bool :=
  match shadowOf bd w with
  | .fill _ => true
  | _ => false

/-- A released store's or atomic's shadow writes and FILL records. -/
def applyFill (s : State) (b : Nat) (f : Fill) : State :=
  if !s.records b then s
  else f.blocks.foldl (fun s x => addRecord s b x.1 x.2) (s.modBand b (fun bd => setShadows bd f.shadows))

/-- A recorded command (R292): torn outside the bracket (cause 4), by a declared read region with a NONE or DATA word or a
card word that is not FILL (cause 2); otherwise, if it `makes` one, its record is made and its write regions become ENGINE. -/
def recordCmd (s : State) (b : Nat) (openB makes : Bool) (img : List Byte) (ps : List Patch) (fillWords readWords writeWords : List Nat) :
    State :=
  if !s.records b then s
  else
    match s.band? b with
    | none => s
    | some bd =>
      if !openB then markTear s b 4
      else if !(fillWords.all (shadowFill bd) && readWords.all (shadowReadable bd)) then markTear s b 2
      else if !makes then s
      else (addRecord s b img ps).modBand b (fun x => setShadows x (writeWords.map (fun w => (w, Shadow.engine))))

/-- The patch part code of R284. -/
def Part.code : Part → Nat
  | .full => 0 | .lo => 1 | .hi => 2

/-- The patch slot of a field at byte `off` whose source carries this tag. -/
def patchOf (off : Nat) : Tag → List Patch
  | .arg k c p => [{ recno := 0, off := off, part := p.code, arg := k, add := c }]
  | _ => []

end Sys2Proof.Machine
end

