-- ==== Sys2Proof/Machine/Flow.lean ====
section
/-! DEFINITION. Control flow: targets (R224), branches and calls (R226, R227), marks, joins and exits (R42, R230, R231),
`yield`, `idle` and `trap` (R232, R233), hardware loops (R234 to R239), and `tret` (R211). -/

namespace Sys2Proof.Machine
open Sys2Proof

/-! ### Targets -/

/-- The bale that a string runs. -/
def State.baleOf (s : State) (t : Str) : Option Bale := (s.band? t.band).bind (fun (b : Band) => s.bale? b.bale)
/-- The address of the string's bundle 0. -/
def State.baseOf (s : State) (t : Str) : Word64 := ((s.baleOf t).map (fun (b : Bale) => b.base)).getD 0#64
/-- The number of bundles of the string's bale. -/
def State.lenOf (s : State) (t : Str) : Nat := ((s.baleOf t).map (fun (b : Bale) => b.len)).getD 0
/-- The bundle index of an address. -/
def State.idxOf (s : State) (t : Str) (pc : Word64) : Word64 := (pc - s.baseOf t) >>> 4
/-- The path at bundle index `idx`; an index not below the bale's length is a fetch that raises OPCODE (R224). -/
def State.pathAt (s : State) (t : Str) (idx : Word64) (mask : Word32) : Path :=
  { pc := s.baseOf t + (idx <<< 4), mask := mask, bad := decide (s.lenOf t ≤ idx.toNat) }
/-- The address of the next bundle. -/
def Bun.next (bu : Bun) : Word64 := bu.pc + 16#64
/-- The issuing path moves. -/
def State.moveTo (s : State) (bu : Bun) (p : Path) : State :=
  (s.modHead (fun t => setSlot t bu.slotB (some p))).modBun (fun x => { x with moved := true })
/-- The slot of the issuing path changes by `f`. -/
def State.moveBy (s : State) (f : Str → Str) : State := (s.modHead f).modBun (fun x => { x with moved := true })

/-! ### Loops -/

/-- `idx` lies in the active loop's body on this slot (R235). -/
def inBody (t : Str) (slotB : Bool) (idx : Nat) : Bool := t.loop.act && t.loop.slotB == slotB && inBodyAt t.loop idx
/-- The string is in its hardware loop (R213): the loop's slot runs the body, and no handler has taken its place. -/
def State.inLoop (s : State) (t : Str) : Bool :=
  !suspended t t.loop.slotB && (slotOf t t.loop.slotB).any (fun (p : Path) => inBody t t.loop.slotB (s.idxOf t p.pc).toNat)

/-- A form that the string's context forbids (R236), or `tret` outside a handler (R211): OPCODE. -/
def contextBad (t : Str) (slotB : Bool) (idx : Nat) : Instr → Bool
  | .loop .. => t.loop.act
  | .lquit _ => !inBody t slotB idx
  | .tret => !tm0 t
  | .bra .. | .call .. | .ret .. | .brx .. | .jtab .. | .mark | .join | .exit .. | .idle => inBody t slotB idx
  | _ => false

/-- The undo entry of the loop state: one in a span (R238). -/
def logLoop (t : Str) : Str :=
  if t.undo.any (fun u => match u with | .loop .. => true | _ => false) then t else logUndo t (.loop t.loop t.pr t.ptag)

/-- Stage j of the present pass runs an admitted iteration (R235). -/
def stageOn (lp : LoopSt) (j : Nat) : Bool := decide (j ≤ lp.pass) && lp.adm.contains (lp.pass - j)

/-- Write a stage predicate in every lane of the path. -/
def putStage (rec : Bool) (mask : Word32) (lp : LoopSt) (on : Bool) (t : Str) (j : Nat) : Str :=
  let r := lp.q + j
  let old := readP t r
  let t := { t with pr := smPut 0#32 t.pr r (if on then old ||| mask else old &&& ~~~mask) }
  if rec then putPTag t r (lanesOf mask) (fun _ => lp.tag) else t

/-- Pass start: admission first, then the stage predicates (R235). -/
def passStart (rec : Bool) (mask : Word32) (t : Str) : Str :=
  let lp := t.loop
  let lp := if lp.rem ≠ 0 ∧ lp.quit = false then { lp with adm := lp.pass :: lp.adm, rem := lp.rem - 1 } else lp
  let lp := { lp with adm := lp.adm.filter (fun i => decide (lp.pass - i ≤ lp.k1)) }
  (List.range (lp.k1 + 1)).foldl (fun t j => putStage rec mask lp (stageOn lp j) t j) { t with loop := lp }

/-- The address of body bundle 1. -/
def bodyPc (base : Word64) (lp : LoopSt) : Word64 := base + BitVec.ofNat 64 (16 * (lp.base + 1))
/-- The address of the bundle after the body. -/
def afterPc (base : Word64) (lp : LoopSt) : Word64 := base + BitVec.ofNat 64 (16 * (lp.base + 2 + lp.n1))

/-- The end of a pass (R235). A pre-emption request acts as `lquit`, and the iterations that remain are kept for it, also where
an `lquit` came first (R213, R237, R255; log 13). A drained loop ends, or, drained for a request with iterations remaining, refills
from its prologue: on restoration, or at once where the string need not stop here (R215). The flag says that a drain point for a
request was reached. -/
def passEnd (rec : Bool) (base : Word64) (mask : Word32) (t : Str) : Str × Bool :=
  let t := logLoop t
  let asked := t.stop == .asked
  let lp := { t.loop with pass := t.loop.pass + 1 }
  let lp := if asked then { lp with quit := true, pre := true } else lp
  let left := lp.adm.any (fun i => decide (lp.pass - i ≤ lp.k1))
  if (lp.rem ≠ 0 ∧ lp.quit = false) ∨ left then
    (setSlot (passStart rec mask { t with loop := lp }) lp.slotB (some { pc := bodyPc base lp, mask := mask }), false)
  else
    let t := (List.range (lp.k1 + 1)).foldl (putStage rec mask lp false) t
    if lp.pre = true ∧ lp.rem ≠ 0 then
      let lp := { lp with quit := false, pre := false, refill := asked, pass := 0, adm := [] }
      (setSlot (if asked then { t with loop := lp } else passStart rec mask { t with loop := lp }) lp.slotB
        (some { pc := bodyPc base lp, mask := mask }), asked)
    else
      (setSlot { t with loop := { lp with act := false, adm := [] } } lp.slotB (some { pc := afterPc base lp, mask := mask }), asked)

/-- A restored string whose loop was drained refills it from its prologue (R215). -/
def refillLoop (rec : Bool) (t : Str) : Str :=
  if t.loop.refill then
    match slotOf t t.loop.slotB with
    | some p => passStart rec p.mask { t with loop := { t.loop with refill := false } }
    | none => t
  else t

/-- LOOP (R234, R235): a count of zero goes on after the body; otherwise the state is set up and the first pass starts. -/
def execLoop (a : SReg) (n1 : BitVec 6) (k1 q : BitVec 3) (s : State) : Host.Outcome State Fault Refusal :=
  s.onHead (fun t bu =>
    if t.loop.act then s.raise t bu { cause := .opcode }
    else
      s.tearAt t bu (bu.lat.wbOpen && tagS bu.lat a.toNat != .plan) 1 (fun s =>
        let c := ((readS bu.lat a.toNat).extractLsb' 0 32).toNat
        let rec' := s.records bu.lat.band
        if c = 0 then s.moveTo bu { pc := bu.pc + BitVec.ofNat 64 (16 * (n1.toNat + 2)), mask := bu.mask }
        else
          let lp : LoopSt :=
            { act := true, rem := c, n1 := n1.toNat, k1 := k1.toNat, q := q.toNat, base := (s.idxOf t bu.pc).toNat,
              slotB := bu.slotB, tag := if tagS bu.lat a.toNat == .plan then .plan else .data }
          s.moveBy (fun t =>
            setSlot (passStart rec' bu.mask { logLoop t with loop := lp }) bu.slotB (some { pc := bu.next, mask := bu.mask }))))

/-- LQUIT (R237): with its guard true in some lane of the path, no iteration is admitted after this pass. -/
def execLquit (g : PReg) (s : State) : Host.Outcome State Fault Refusal :=
  s.onHead (fun t bu =>
    if !inBody t bu.slotB (s.idxOf t bu.pc).toNat then s.raise t bu { cause := .opcode }
    else
      s.tearAt t bu (bu.lat.wbOpen && !(guardTaint bu g).isEmpty) 1 (fun s =>
        if activeMask bu g = 0#32 then s
        else s.modHead (fun t => let t := logLoop t; { t with loop := { t.loop with quit := true } })))

/-! ### Branches and calls -/

/-- A push would make the 257th record (R41). -/
def stackFull (t : Str) : Bool := decide (256 ≤ t.stack.length)

/-- The taken group of a split goes to the other slot if it is empty and not suspended, or else is pushed (R40, R209). -/
def takeOther (t : Str) (slotB : Bool) (p : Path) : Str :=
  if (slotOf t (!slotB)).isNone && !suspended t (!slotB) then setSlot t (!slotB) (some p) else pushRec t (.path p.pc p.mask)

/-- A split needs a push. -/
def splitPushes (t : Str) (slotB : Bool) : Bool := (slotOf t (!slotB)).isSome || suspended t (!slotB)

/-- BRA (R226). -/
def execBra (g : PReg) (disp : BitVec 23) (s : State) : Host.Outcome State Fault Refusal :=
  s.onHead (fun t bu =>
    let act := activeMask bu g
    let rest := bu.mask &&& ~~~act
    s.tearAt t bu (bu.lat.wbOpen && !(guardTaint bu g).isEmpty) 1 (fun s =>
      let dest := s.pathAt t (s.idxOf t bu.pc + disp.signExtend 64)
      if act = 0#32 then s
      else if rest = 0#32 then s.moveTo bu (dest bu.mask)
      else if splitPushes t bu.slotB && stackFull t then s.raise t bu { cause := .divergeOverflow }
      else s.moveBy (fun t => takeOther (setSlot t bu.slotB (some { pc := bu.next, mask := rest })) bu.slotB (dest act))))

/-- CALL (R227): s63 takes the index of the next bundle, tagged PLAN (R290). -/
def execCall (disp : BitVec 23) (s : State) : Host.Outcome State Fault Refusal :=
  s.onHead (fun t bu =>
    let idx := s.idxOf t bu.pc
    (s.writeScalar bu 63 (idx + 1#64) .plan).moveTo bu (s.pathAt t (idx + disp.signExtend 64) bu.mask))

/-- A move to the bundle index in s[a] (R227). -/
def State.goReg (s : State) (a : SReg) : Host.Outcome State Fault Refusal :=
  s.onHead (fun t bu =>
    s.tearAt t bu (bu.lat.wbOpen && tagS bu.lat a.toNat != .plan) 1 (fun s =>
      s.moveTo bu (s.pathAt t (readS bu.lat a.toNat) bu.mask)))

/-- RET (R227). -/
def execRet (a : SReg) (s : State) : Host.Outcome State Fault Refusal := s.goReg a

/-- BRX (R227). -/
def execBrx (a : SReg) (s : State) : Host.Outcome State Fault Refusal := s.goReg a

/-! ### Marks, joins, exits -/

/-- MARK (R230). -/
def execMark (s : State) : Host.Outcome State Fault Refusal :=
  s.onHead (fun t bu =>
    if stackFull t then s.raise t bu { cause := .divergeOverflow }
    else s.modHead (fun t => pushRec t (.rejoin 0#32 0#32 bu.mask)))

/-- What a path of mask `m` does to the topmost rejoin record (R42): the new stack, whether the record completed, and its
expected mask; `none` when the stack holds no rejoin record. -/
def joinTop (m : Word32) (idx : Word32) : List Rec → Option (List Rec × Bool × Word32)
  | [] => none
  | .path pc pm :: st => (joinTop m idx st).map (fun x => (.path pc pm :: x.1, x.2))
  | .rejoin arr j e :: st =>
    let arr' := arr ||| (m &&& e)
    if arr' = e then some (st, true, e)
    else some (.rejoin arr' (if m &&& e = 0#32 then j else idx) e :: st, false, e)

/-- A path's arrival at a `join` (R42, R230). -/
def joinStr (m : Word32) (idx : Word32) (slotB : Bool) (next : Word64) (t : Str) : Str :=
  match joinTop m idx t.stack with
  | none => setSlot t slotB (some { pc := next, mask := m })
  | some (st, complete, e) =>
    let t := if st = t.stack then t else setStack t st
    if complete then settleTop (setSlot t slotB (some { pc := next, mask := e ||| m }))
    else if m &&& ~~~e = 0#32 then freeSlot t slotB
    else setSlot t slotB (some { pc := next, mask := m &&& ~~~e })

/-- The lanes of the path that goes on after a `join` (R42, R44). -/
def joinGoes (m : Word32) (idx : Word32) (st : List Rec) : List Word32 :=
  match joinTop m idx st with
  | none => [m]
  | some (_, true, e) => [e ||| m]
  | some (_, false, e) => if m &&& ~~~e = 0#32 then [] else [m &&& ~~~e]

/-- JOIN (R230, R44). -/
def execJoin (s : State) : Host.Outcome State Fault Refusal :=
  s.onHead (fun t bu =>
    (s.markJoins (joinGoes bu.mask ((s.idxOf t bu.pc).extractLsb' 0 32) t.stack)).moveBy (joinStr bu.mask ((s.idxOf t bu.pc).extractLsb' 0 32) bu.slotB bu.next))

/-- A rejoin record that loses exiting lanes (R42): whether it changed, and whether it became a path. -/
def exitRec (base : Word64) (gone : Word32) : Rec → Rec × Bool × Bool
  | .path pc m => (.path pc m, false, false)
  | .rejoin arr j e =>
    let e' := e &&& ~~~gone
    if arr = e' ∧ e' ≠ 0#32 then (.path (base + ((j.zeroExtend 64 + 1#64) <<< 4)) e', true, true)
    else (.rejoin arr j e', decide (e' ≠ e), false)

/-- The lanes of `gone` leave every rejoin record, one undo entry for each record changed (R42, R58). -/
def leaveRecords (base : Word64) (gone : Word32) (t : Str) : Str :=
  let rs := t.stack.map (exitRec base gone)
  let n := (rs.filter (fun x => x.2.1)).length
  if n = 0 then t
  else { (List.range n).foldl (fun t' _ => logUndo t' (.stack t.stack t.hdepth)) t with stack := rs.map (fun x => x.1) }

/-- The lanes of the rejoin records that the leaving of `gone` completes: their paths go on after a `join` (R42, R44). -/
def exitGoes (base : Word64) (gone : Word32) (st : List Rec) : List Word32 :=
  st.filterMap (fun r =>
    match exitRec base gone r with
    | (.path _ m, true, true) => some m
    | _ => none)

/-- Lanes `gone` of a path of mask `m` leave the string (R231). -/
def exitStr (base : Word64) (m gone : Word32) (slotB : Bool) (next : Word64) (t : Str) : Str :=
  let top := (t.stack.head?.map (fun r => (exitRec base gone r).2.2)).getD false
  let t := leaveRecords base gone t
  let t := setSlot t slotB (if m &&& ~~~gone = 0#32 then none else some { pc := next, mask := m &&& ~~~gone })
  if m &&& ~~~gone = 0#32 then popInto t slotB
  else if top then popInto t (!slotB)
  else settleTop t

/-- EXIT (R231); with traps masked the whole string ends (R210), as does an executive core's task (R254). -/
def execExit (g : PReg) (s : State) : Host.Outcome State Fault Refusal :=
  s.onHead (fun t bu =>
    s.tearAt t bu (bu.lat.wbOpen && !(guardTaint bu g).isEmpty) 1 (fun s =>
      let gone := activeMask bu g
      if gone = 0#32 then s
      else if tm0 bu.lat then s.moveBy (fun t => { t with slotA := none, slotB := none, stack := [] })
      else (s.markJoins (exitGoes (s.baseOf t) gone t.stack)).moveBy (exitStr (s.baseOf t) bu.mask gone bu.slotB bu.next)))

/-! ### Yield, idle, trap -/

/-- YIELD (R232): not ready for 8 clocks, which the event YIELD_EXPIRY ends. -/
def execYield (s : State) : Host.Outcome State Fault Refusal :=
  s.onHead (fun t _ => (s.modHead (fun t => { t with yielding := true })).post [.yieldExpiry t.band t.num])

/-- IDLE (R232): the slot is not ready until one of the events of R232. -/
def execIdle (s : State) : Host.Outcome State Fault Refusal :=
  s.onHead (fun t bu =>
    (s.modHead (fun t => if bu.slotB then { t with idleB := true } else { t with idleA := true })).post
      [.idleTimeout t.band t.num])

/-- TRAP (R233): BREAK with the code in DETAIL. -/
def execTrap (code : BitVec 12) (s : State) : Host.Outcome State Fault Refusal :=
  s.onHead (fun t bu => s.raise t bu { cause := .break_, detail := code.toNat })

/-- TRET (R211). A loop is abandoned when the trap was taken inside its body and xtpc does not lie there (R238). -/
def execTret (s : State) : Host.Outcome State Fault Refusal :=
  s.onHead (fun t bu =>
    if !tm0 bu.lat then s.raise t bu { cause := .opcode }
    else if bu.mask ≠ bu.lat.xtcause.extractLsb' 32 32 ∨ bu.lat.hdepth < bu.lat.stack.length then
      (killBand s t.band).endBun
    else
      s.moveBy (fun t => leaveHandler t bu.slotB
        (inBodyAt t.loop (s.idxOf t bu.lat.xtpc).toNat || !t.loopTrap)))

end Sys2Proof.Machine
end

