-- ==== Sys2Proof/Machine/Translate.lean ====
section
/-! DEFINITION. Where a global address leads: the page at its owner (R305, R306), the value a line holds (R167, R324), spans
(R300 to R303, R361), and CheckAccess in the three spaces (R22 to R24, R181, R199). -/

namespace Sys2Proof.Machine
open Sys2Proof

/-! ### Pages and lines at the home -/

/-- A place of memory: a device physical address, or a host address. -/
inductive Loc where
  | gran (a : Nat)
  | host (a : Nat)
  deriving DecidableEq, Repr

/-- The owner entry of a page; the pages of context 0's region are resident and pinned, spread over the domains (R361). -/
def State.page? (s : State) (ctx page : Nat) : Option Page :=
  if ctx = 0 then
    if page < osPages then
      some { ctx := 0, page := page, pin := true, prim := Config.domainOf page % 8,
             rmask := 1#8 <<< (Config.domainOf page % 8), frame := page }
    else none
  else s.pages.find? (fun (p : Page) => p.ctx == ctx && p.page == page)

/-- Change an owner entry. -/
def State.modPage (s : State) (ctx page : Nat) (f : Page → Page) : State :=
  { s with pages := s.pages.map (fun (p : Page) => if p.ctx == ctx && p.page == page then f p else p) }

/-- Where a byte of a page lies (R305): in its primary copy. -/
def locOf (p : Page) (va : Nat) : Loc :=
  if p.hostres then .host (p.frame * 65536 + va % 65536) else .gran (p.prim * 2 ^ 38 + p.frame * 65536 + va % 65536)

/-- The domains of a mask. -/
def domainsOf (m : BitVec 8) : List Nat := (List.range 8).filter (fun d => m.getLsbD d)

/-- Where a byte of a page lies in its other copies (R168, R305): at the same offset of every other stack of its mask. -/
def replicasOf (p : Page) (va : Nat) : List Loc :=
  if p.hostres then []
  else ((domainsOf p.rmask).filter (fun d => d != p.prim)).map (fun d => .gran (d * 2 ^ 38 + p.frame * 65536 + va % 65536))

/-- Bytes at a place. -/
def State.readLoc (s : State) (l : Loc) (n : Nat) : List Byte :=
  match l with
  | .gran a => memBytes s.gran a n
  | .host a => memBytes s.host a n

/-- Write bytes at a place. -/
def State.writeLoc (s : State) (l : Loc) (bs : List Byte) : State :=
  match l with
  | .gran a => clearFaults { s with gran := memWrite s.gran a bs } a bs.length
  | .host a => { s with host := memWrite s.host a bs }

/-- The bytes of a line in memory at its home. -/
def State.memLine (s : State) (ctx line : Nat) : LineData :=
  match s.page? ctx (line / 512) with
  | some p => s.readLoc (locOf p (line * 128)) 128
  | none => List.replicate 128 0#8

/-- The zero-line bit of a line's directory entry is that of its granary content (R122, R322). -/
def State.markZero (s : State) (ctx line : Nat) : State :=
  { s with dir := s.dir.map (fun (e : DirEnt) =>
      if e.ctx == ctx && e.line == line then { e with zero := (s.memLine ctx line).all (fun b => b == 0#8) } else e) }

/-- Write bytes of a line at its home, in every copy of the page (R168); the directory's zero-line bit follows (R122). -/
def State.writeHome (s : State) (ctx va : Nat) (bs : List Byte) : State :=
  match s.page? ctx (va / 65536) with
  | some p => (s.writeLoc (locOf p va) bs |> fun s => (replicasOf p va).foldl (fun s l => s.writeLoc l bs) s).markZero ctx (va / 128)
  | none => s

/-- A state in which the holder answers for the line's value. -/
def CState.owns : CState → Bool
  | .S => false
  | _ => true

/-- The line's copy at a die. -/
def Site.line? (st : Site) (ctx line : Nat) : Option CLine := st.lines.find? (fun (c : CLine) => c.ctx == ctx && c.line == line)

/-- A grant's data that is on its way to a requester (R324). -/
def State.dataOut (s : State) (ctx line : Nat) : Option LineData :=
  s.agenda.findSome? (fun e => match e with
    | .dataMsg i d => (s.reqs.find? (fun (r : Req) => r.id == i)).bind (fun (r : Req) => if r.ctx == ctx && r.line == line && r.home == s.dev then d else none)
    | _ => none)

/-- The value that some holder answers for: the owner's copy, or data that an owner has sent. -/
def State.heldLine (s : State) (ctx line : Nat) : Option LineData :=
  match s.sites.findSome? (fun (st : Site) => (st.line? ctx line).bind (fun (c : CLine) => if c.st.owns then some c.data else none)) with
  | some d => some d
  | none =>
    match s.txns.findSome? (fun (x : Txn) => if x.ctx == ctx && x.line == line then x.fwd else none) with
    | some d => some d
    | none => s.dataOut ctx line

/-- The value of a line: a holder's, or memory's. -/
def State.lineNow (s : State) (ctx line : Nat) : LineData := (s.heldLine ctx line).getD (s.memLine ctx line)

/-- The transaction in progress on a line (R323). -/
def State.txn? (s : State) (ctx line : Nat) : Option Txn := s.txns.find? (fun (x : Txn) => x.ctx == ctx && x.line == line)

/-- What reading the stored line gives, other than data (R357): NR_ECC_UNCORR or NR_MAC, and whether the context is
quarantined. A zero line, and a line in host memory, has no fault. The stored bits are not kept, but what their checks find (log 102). -/
def State.lineErr (s : State) (ctx line : Nat) : Option (Nat × Bool) :=
  match s.page? ctx (line / 512) with
  | none => none
  | some p =>
    match locOf p (line * 128) with
    | .host _ => none
    | .gran a =>
      if (memBytes s.gran a 128).all (fun b => b == 0#8) then none
      else
        match s.lineFault.find? (fun (x : Nat × Nat × Bool) => x.1 == a / 128) with
        | none => none
        | some (_, e, macOk) => if e = 0 then some (7, false) else if macOk then none else some (8, e == 1)

/-! ### Code (R354, R355) -/

/-- A bundle as LOAD places it: its ciphertext under the context's key, with its index as tweak. -/
def sealBundle (keys : List Byte) (i : Nat) (plain : List Byte) : List Byte :=
  let c := Config.aesXts (keys.take 64) i plain
  (List.range 16).map (fun k => c.getD k 0#8)

/-- The `nop` bundle that pads a last block. -/
def nopBundle : List Byte := List.replicate 16 0#8

/-- The tag of a block of a segment, over the ciphertext of its 16 bundles and its first bundle index. -/
def blockTag (keys : List Byte) (first : Nat) (bytes : List Byte) : BitVec 64 := Config.kmac64 ((keys.drop 64).take 32) (leBytes 4 first ++ bytes)

/-- The blocks of a segment: number, first bundle index, bundles. -/
def blocksOf (sg : Segment) : List (Nat × Nat × Nat) :=
  (List.range ((sg.len + 15) / 16)).map (fun k => (k, sg.first + 16 * k, min 16 (sg.len - 16 * k)))

/-- The bytes of a context's memory at an address, as they are read now: `n` of them. -/
def State.bytesNow (s : State) (ctx a n : Nat) : List Byte :=
  (List.range n).map (fun i => (s.lineNow ctx ((a + i) / 128)).getD ((a + i) % 128) 0#8)

/-- The ciphertext of a block as it is read for its check: what stands in the context's pages, the `nop` bundles that pad a last block
too; where another segment's bundles stand in the padding's place, it is the padding that LOAD covered (R354, log 93). -/
def readBlock (s : State) (bl : Bale) (keys : List Byte) (first n : Nat) : List Byte :=
  (List.range 16).flatMap (fun i =>
    if n ≤ i ∧ bl.segs.any (fun g => decide (g.first ≤ first + i) && decide (first + i < g.first + g.len)) = true then
      sealBundle keys (first + i) nopBundle
    else s.bytesNow bl.ctx (bl.base.toNat + 16 * (first + i)) 16)

/-- The blocks of a bale's segment whose tag does not match what stands in the context's pages (R355). -/
def badBlocks (s : State) (bl : Bale) (seg : Nat) : List Nat :=
  match bl.segs[seg]?, s.ctx? bl.ctx with
  | some sg, some c =>
    ((blocksOf sg).filter (fun (x : Nat × Nat × Nat) => bl.tags.any (fun (y : Nat × Nat × BitVec 64) => y.1 == seg && y.2.1 == x.1 &&
      y.2.2 != blockTag c.keys x.2.1 (readBlock s bl c.keys x.2.1 x.2.2)))).map (fun x => x.1)
  | _, _ => []

/-! ### Spans -/

/-- Span entry fields (R302). -/
def entHome (e : Word64) : Nat := (e.extractLsb' 58 5).toNat
/-- HCTX -/
def entHctx (e : Word64) : Nat := (e.extractLsb' 46 12).toNat
/-- UC -/
def entUc (e : Word64) : Bool := e.getLsbD 45
/-- A -/
def entA (e : Word64) : Bool := e.getLsbD 42
/-- W -/
def entW (e : Word64) : Bool := e.getLsbD 41
/-- R -/
def entR (e : Word64) : Bool := e.getLsbD 40
/-- TGT -/
def entTgt (e : Word64) : Nat := (e.extractLsb' 0 40).toNat
/-- A valid entry: V, zero bits, a HOME that is a member of the pod or the host, a module span index of 27 bits (R302). -/
def entOk (s : State) (e : Word64) : Bool :=
  e.getLsbD 63 && e.extractLsb' 43 2 == 0#2 &&
    (entHome e == 16 || (decide (entHome e < s.podN) && e.extractLsb' 27 13 == 0#13))

/-- The home, home context and home address of a virtual address under its span entry (R302). -/
def homeOf (e : Word64) (va : Nat) : Nat × Nat × Nat := (entHome e, entHctx e, entTgt e * 2 ^ 21 + va % 2 ^ 21)
/-- The key of a line in a die's caches: home context, and the home's line number, with the module joined where the home is
another module. -/
def lineKey (s : State) (e : Word64) (va : Nat) : Nat × Nat :=
  let h := homeOf e va
  (h.2.1, (if h.1 = s.dev then 0 else h.1 * 2 ^ 41) + h.2.2 / 128)
/-- The span entry of an address among those that an access was translated by. -/
def entFor (ents : List (Nat × Word64)) (va : Nat) : Word64 := ((ents.find? (fun e => e.1 == va / 2 ^ 21)).map (fun e => e.2)).getD 0#64

/-- The key under which a lane's span entry stands among those of its access: the span index, and the entry itself above its 27 bits, since two
lanes can hold different entries of one span (R303). -/
def spanKey (e : Nat × Word64) : Nat := e.1 + e.2.toNat * 2 ^ 27
/-- A lane's address as its access keeps it: the virtual address below 2^48, and above it the entry that translated it, so that its span index is
the key. -/
def atSpan (a : Nat) (e : Word64) : Nat := a + e.toNat * 2 ^ 48
/-- The entries of an access with one more. -/
def withSpan (ents : List (Nat × Word64)) (e : Nat × Word64) : List (Nat × Word64) :=
  if ents.any (fun x => x.1 == spanKey e) then ents else ents ++ [(spanKey e, e.2)]

/-- The fixed map of context 0 (R361). -/
def osSpan (s : State) (span : Nat) : Option Word64 :=
  if span < 8192 then
    some ((1#64 <<< 63) ||| (BitVec.ofNat 64 s.dev <<< 58) ||| (7#64 <<< 40) ||| BitVec.ofNat 64 span)
  else if 2 ^ 26 ≤ span then
    some ((1#64 <<< 63) ||| (16#64 <<< 58) ||| (7#64 <<< 40) ||| BitVec.ofNat 64 (span - 2 ^ 26))
  else none

/-- A message to another module goes into its link's replay buffer until it is acknowledged; where messages that went over a relay
are not all acknowledged, it is held behind them (R347). A dead module is sent nothing. -/
def sendOn (vc : Nat) (k : FabKind) (l : Link) : Link :=
  if l.dead then l
  else if !l.held.isEmpty || (l.up && l.out.any (fun (x : FabMsg) => x.relayed)) then { l with held := l.held ++ [{ vc := vc, kind := k }] }
  else { l with out := l.out ++ [{ vc := vc, kind := k, relayed := !l.up }] }
/-- Send a message to module `m`. -/
def State.toPeer (s : State) (m vc : Nat) (k : FabKind) : State :=
  { s with links := s.links.map (fun (l : Link) => if l.m == m then sendOn vc k l else l) }

/-- Add a request; the home's answer is an event of this module, or comes from outside: a request that no cache of this module
takes part in crosses the fabric at once (R304). -/
def State.addReq (s : State) (r : Req) (ev : Nat → List Instr) : State :=
  let i := s.nextId
  let s := { s with nextId := s.nextId + 1, reqs := s.reqs ++ [{ r with id := i }] }
  let s := if r.home = s.dev ∨ r.home = 16 ∨ r.pdie.isSome ∨ r.cached then s else s.toPeer r.home 0 (.request i)
  s.post (ev i)

/-- A read that the hardware makes for itself (a walk, the serai's reads) has its value at once; its request goes to the home
after it, where it is counted (R308) and, from a core's cache, leaves the line there (R301, R324). -/
def shadowRead (s : State) (die core ctx ha : Nat) : State :=
  let r : Req := { id := 0, who := .walk, kind := .read [(0, ha)], die := die, core := core, home := s.dev, ctx := ctx, line := ha / 128,
                   cached := die != 15 }
  s.addReq r (fun i => [if die = 15 then Instr.homeRequest i else Instr.gets i])

/-- A line's copy that a core holds. -/
def State.coreLine (s : State) (die core ctx line : Nat) : Option CLine :=
  (s.sites.find? (fun (x : Site) => x.die == die)).bind (fun st => (st.line? ctx line).bind (fun c => if c.cores.contains core then some c else none))

/-- Eight bytes that a walk reads in context 0 through a core's cache (R301, R361); `none` where the read draws a negative reply:
a damaged line, which may quarantine the context (R221), or a completion of the host, which is open. -/
def peekWalk (s : State) (die core va : Nat) : State × Option Word64 :=
  if 2 ^ 47 ≤ va then
    ({ s with nfree := s.nfree + 1 },
     if Config.freeBool s.nfree then none else some (BitVec.ofNat 64 (leNat (memBytes s.host (va - 2 ^ 47) 8))))
  else if va / 65536 < osPages then
    match s.coreLine die core 0 (va / 128) with
    | some c => (s, some (BitVec.ofNat 64 (field c.data (va % 128) 8)))
    | none =>
      match if (s.heldLine 0 (va / 128)).isSome then none else s.lineErr 0 (va / 128) with
      | some e => (if e.2 then quarantine s 0 else s, none)
      | none => (shadowRead s die core 0 va, some (BitVec.ofNat 64 (field (s.lineNow 0 (va / 128)) (va % 128) 8)))
  else (s, none)

/-- A first-level entry names a second-level table (R301). -/
def rootOk (e : Word64) : Bool := e.getLsbD 63 && e.extractLsb' 48 15 == 0#15 && e.extractLsb' 0 16 == 0#16

/-- The walk of R301: the span's entry, or a fault; context 0 has its fixed map (R361). -/
def walkSpan (s : State) (die core ctx span : Nat) : State × Option Word64 :=
  if ctx = 0 then (s, osSpan s span)
  else
    match s.ctx? ctx with
    | none => (s, none)
    | some c =>
      let base := c.spanBase.toNat
      if base = 0 then (s, none)
      else
        match peekWalk s die core (base + 8 * (span / 8192)) with
        | (s, none) => (s, none)
        | (s, some e1) =>
          if !rootOk e1 then (s, none)
          else
            match peekWalk s die core ((e1.extractLsb' 16 32).toNat * 65536 + 8 * (span % 8192)) with
            | (s, none) => (s, none)
            | (s, some e2) => (s, if entOk s e2 then some e2 else none)

/-- Put a used translation at the front of a core's span cache of 256 (R303). -/
def touchSpan (ctx span : Nat) (e : Word64) (c : Core) : Core :=
  { c with spans := ((ctx, span, e) :: c.spans.filter (fun (x : Nat × Nat × Word64) => !(x.1 == ctx && x.2.1 == span))).take 256 }

/-- The span's entry through the core's span cache, or the walk (R303). -/
def lookupSpan (s : State) (die core ctx span : Nat) : State × Option Word64 :=
  let hit := (s.core? die core).bind (fun (c : Core) => (c.spans.find? (fun (x : Nat × Nat × Word64) => x.1 == ctx && x.2.1 == span)).map (fun x => x.2.2))
  match hit with
  | some e => (s.modCore die core (touchSpan ctx span e), some e)
  | none =>
    match walkSpan s die core ctx span with
    | (s, some e) => (s.modCore die core (touchSpan ctx span e), some e)
    | (s, none) => (s, none)

/-- The die and core of a string. -/
def State.seat (s : State) (t : Str) : Nat × Nat :=
  match s.band? t.band with
  | some bd => (bd.die, bd.place.core?.getD 0)
  | none => (15, 0)

/-- The profile of a string. -/
def State.profOf (s : State) (t : Str) : Profile := ((s.band? t.band).map (fun (b : Band) => b.prof)).getD .executive

/-- The span's entry for a lane: its last-span register first (R303). -/
def laneSpan (s : State) (t : Str) (lane : Nat) (span : Nat) : State × Option Word64 :=
  let ctx := ctxOf s t.band
  let last := ((s.str? t.band t.num).map (fun (u : Str) => smGet (0, 0#64) u.lspan lane)).getD (0, 0#64)
  if last.1 = span ∧ last.2 ≠ 0#64 then (s, some last.2)
  else
    let r := lookupSpan s (s.seat t).1 (s.seat t).2 ctx span
    match r.2 with
    | none => r
    | some e => (r.1.modStr t.band t.num (fun u => { u with lspan := smPut (0, 0#64) u.lspan lane (span, e) }), some e)

/-- Invalidate the translations of `count` spans of a context from `first` on, everywhere on the module; a count of 0 means
every span (R250). The span-table generation rises (R282). -/
def invalSpans (s : State) (ctx first count : Nat) : State :=
  let hit : Nat → Bool := fun sp => count == 0 || (decide (first ≤ sp) && decide (sp < first + count))
  let s := { s with cores := s.cores.map (fun (c : Core) => { c with spans := c.spans.filter (fun (x : Nat × Nat × Word64) => !(x.1 == ctx && hit x.2.1)) }),
                    strs := s.strs.map (fun (t : Str) =>
                      if ctxOf s t.band = ctx then { t with lspan := t.lspan.filter (fun x => !hit x.2.1) } else t) }
  s.modCtx ctx (fun c => { c with spangen := c.spangen + 1 })

/-! ### CheckAccess -/

/-- A failed check: cause, and whether it is a want of rights, which in a confidential context is an access violation
(R221). -/
abbrev Bad := Cause × Bool

/-- Reads need R, writes W, atomics A; a host home takes only the atomics that PCIe has: add, xchg and cas (R190, R302). -/
def needR (e : Word64) : Option Bad := if entR e then none else some (.spanFault, true)
/-- W -/
def needW (e : Word64) : Option Bad := if entW e then none else some (.spanFault, true)
/-- A -/
def needA (op : Nat) (e : Word64) : Option Bad :=
  if !entA e then some (.spanFault, true)
  else if entHome e = 16 ∧ ¬(op = 0 ∨ op = 8 ∨ op = 9) then some (.spanFault, false)
  else none

/-- Check 2 and 3 of R181 for a global access of `n` bytes at `a` (R22, R302). -/
def checkGlobal (s : State) (t : Str) (lane : Nat) (a : Word64) (n : Nat) (need : Word64 → Option Bad) :
    State × Except Bad (Nat × Word64) :=
  if a.toNat % n ≠ 0 then (s, .error (.align, false))
  else if 2 ^ 48 ≤ a.toNat then (s, .error (.spanFault, false))
  else
    let r := laneSpan s t lane (a.toNat / 2 ^ 21)
    match r.2 with
    | none => (r.1, .error (.spanFault, false))
    | some e =>
      match need e with
      | none => (r.1, .ok (a.toNat / 2 ^ 21, e))
      | some b => (r.1, .error b)

/-- The pantry capacity of a die that the check uses, in bytes less the waybill store (R23, R26). -/
def pantryReach (s : State) (die : Nat) : Nat := (((s.site? die).map (fun (x : Site) => x.capMiB)).getD 128 - 8) * 1048576

/-- A pantry access of `n` bytes at `a` from a string: its resolved address die × 2^27 + offset (R23, R26). -/
def resolvePantry (s : State) (t : Str) (a : Word64) (n : Nat) : Except Bad Nat :=
  let x := a.toNat
  let die := x / 2 ^ 27 % 16
  let own := match s.profOf t with
    | .lane | .array => true
    | _ => false
  if 2 ^ 31 ≤ x then .error (.pantryDie, false)
  else if 8 ≤ die ∧ die ≤ 14 then .error (.pantryDie, false)
  else if die = 15 ∧ own = false then .error (.pantryDie, false)
  else
    let d := if die = 15 then (s.seat t).1 else die
    if pantryReach s d < x % 2 ^ 27 + n then .error (.pantryDie, false)
    else .ok (d * 2 ^ 27 + x % 2 ^ 27)

/-- A bench access in bounds (R24). -/
def checkBench (lat : Str) (a : Word64) (n : Nat) : Except Bad Nat :=
  if lat.benchb.toNat ≤ a.toNat ∧ a.toNat + n ≤ lat.benchl.toNat then .ok a.toNat else .error (.benchBound, false)

/-- What the checked lanes of an access name: lane with resolved address, and the span entries used. -/
structure Checked where
  lanes : List (Nat × Nat) := []
  ents : List (Nat × Word64) := []
  deriving DecidableEq, Repr

/-- CheckAccess of one lane (R181). -/
def checkLane (s : State) (t lat : Str) (sp : Space) (n : Nat) (need : Word64 → Option Bad) (lane : Nat) (a : Word64) :
    State × Except Bad (Nat × List (Nat × Word64)) :=
  match sp with
  | .glob =>
    match checkGlobal s t lane a n need with
    | (s, .error e) => (s, .error e)
    | (s, .ok e) => (s, .ok (a.toNat, [e]))
  | .pantry =>
    if a.toNat % n ≠ 0 then (s, .error (.align, false))
    else match resolvePantry s t a n with
      | .error e => (s, .error e)
      | .ok x => (s, .ok (x, []))
  | .bench =>
    if a.toNat % n ≠ 0 then (s, .error (.align, false))
    else match checkBench lat a n with
      | .error e => (s, .error e)
      | .ok x => (s, .ok (x, []))

/-- CheckAccess of the active lanes in ascending order; the lowest lane's cause stands (R181). Each lane goes by the entry that its own hit
or walk gave it (R303). -/
def checkLanes (s : State) (t lat : Str) (sp : Space) (n : Nat) (need : Word64 → Option Bad) :
    List (Nat × Word64) → Checked → State × Except (Nat × Bad) Checked
  | [], c => (s, .ok c)
  | (l, a) :: ls, c =>
    match checkLane s t lat sp n need l a with
    | (s, .error e) => (s, .error (l, e))
    | (s, .ok (x, [])) => checkLanes s t lat sp n need ls { c with lanes := c.lanes ++ [(l, x)] }
    | (s, .ok (x, e :: _)) =>
      checkLanes s t lat sp n need ls { lanes := c.lanes ++ [(l, atSpan x e.2)], ents := withSpan c.ents e }

/-- Every span of a byte range of a per-string access: valid, and with the rights needed. -/
def checkSpans (s : State) (t : Str) (need : Word64 → Option Bad) : List Nat → List (Nat × Word64) →
    State × Except Bad (List (Nat × Word64))
  | [], es => (s, .ok es)
  | sp :: sps, es =>
    let r := lookupSpan s (s.seat t).1 (s.seat t).2 (ctxOf s t.band) sp
    match r.2 with
    | none => (r.1, .error (.spanFault, false))
    | some e =>
      match need e with
      | none => checkSpans r.1 t need sps (es ++ [(sp, e)])
      | some b => (r.1, .error b)

/-- The spans that `n` bytes from `a` touch. -/
def spansOf (a n : Nat) : List Nat :=
  if n = 0 then [] else (List.range ((a + n - 1) / 2 ^ 21 - a / 2 ^ 21 + 1)).map (a / 2 ^ 21 + ·)

/-- Raise the cause of a failed check; a want of rights in a confidential context quarantines it (R221). -/
def State.raiseBad (s : State) (t : Str) (bu : Bun) (lane : Nat) (b : Bad) : State :=
  let c := ctxOf s t.band
  let s := s.raise t bu { cause := b.1, lane := lane }
  if b.2 then violation s c else s

/-! ### Watchpoints (R248) -/

/-- The space code of a watchpoint. -/
def Space.code : Space → Nat
  | .glob => 0 | .pantry => 1 | .bench => 2

/-- log2 of the watched range. -/
def watchLen (c : Word64) : Nat :=
  let l := (c.extractLsb' 8 8).toNat
  if l < 3 then 3 else if 21 < l then 21 else l

/-- A watchpoint's address in the form that resolved accesses use: DIE = 15 in a pantry address is the issuing die. -/
def watchAddr (s : State) (t : Str) (sp : Space) (a : Word64) : Nat :=
  if sp = .pantry ∧ a.toNat / 2 ^ 27 = 15 then (s.seat t).1 * 2 ^ 27 + a.toNat % 2 ^ 27 else a.toNat

/-- Watchpoint `k` matches an access. -/
def watchHit (s : State) (t lat : Str) (sp : Space) (ld st : Bool) (a n : Nat) (k : Nat) : Bool :=
  let c := lat.xwc.getD k 0#64
  let w := watchAddr s t sp (lat.xwa.getD k 0#64)
  let len := 2 ^ watchLen c
  c.getLsbD 0 && ((ld && c.getLsbD 1) || (st && c.getLsbD 2)) && (c.extractLsb' 3 2).toNat == Space.code sp &&
    decide (w / len * len < a + n) && decide (a < w / len * len + len)

/-- The lowest matching watchpoint of some accesses, with the lowest lane that touches that one (R248, log 109). -/
def watchAny (s : State) (t lat : Str) (accs : List (Nat × Space × Bool × Bool × Nat × Nat)) : Option (Nat × Nat) :=
  if s.profOf t = .executive then none
  else
    (List.range 4).findSome? (fun k =>
      (accs.find? (fun x => watchHit s t lat x.2.1 x.2.2.1 x.2.2.2.1 x.2.2.2.2.1 x.2.2.2.2.2 k)).map (fun x => (k, x.1)))

end Sys2Proof.Machine
end

