-- ==== Sys2Proof/Machine/System.lean ====
section
/-! DEFINITION. System registers (R243 to R248, R253, R294, R300, R317), recipe delay (R114, R257), and the translation,
cache and sampling instructions (R249 to R252). -/

namespace Sys2Proof.Machine
open Sys2Proof

/-! ### Reading system registers -/

/-- A field of a register value. -/
def bitsAt (v lo : Nat) : Word64 := BitVec.ofNat 64 v <<< lo

/-- xpath (R50), packed. -/
def xpathOf (t : Str) : Word64 := (List.range 7).foldl (fun x p => x ||| bitsAt (pathCount t p % 256) (8 * p)) 0#64

/-- xloop (R239). -/
def xloopOf (lp : LoopSt) : Word64 :=
  bitsAt (lp.rem % 2 ^ 32) 32 ||| bitsAt lp.act.toNat 31 ||| bitsAt lp.quit.toNat 30 ||| bitsAt (lp.n1 % 64) 24 |||
    bitsAt (lp.k1 % 8) 21 ||| bitsAt (lp.q % 8) 18 ||| bitsAt (lp.pass % 2 ^ 18) 0

/-- xwb (R294); a launch that found the handle being recorded reads REC 0, TORN 0, TCAUSE 9 (R292). The normal run of a faulted replay
band (R297) reads FALLBACK 1: it too asked for replay and runs normally (log 111). -/
def xwbOf (s : State) (t : Str) : Word64 :=
  match s.band? t.band with
  | none => 0#64
  | some bd =>
    match s.launch? bd.launch with
    | none => 0#64
    | some l =>
      let torn := bd.torn && !l.busy
      let cause := if l.busy then 9 else if bd.torn then bd.tcause else 0
      bitsAt l.handle 32 ||| bitsAt (cause % 256) 8 ||| bitsAt t.wbStrict.toNat 4 ||| bitsAt torn.toNat 3 |||
        bitsAt t.wbOpen.toNat 2 ||| bitsAt (l.fallback || bd.plain).toNat 1 ||| bitsAt (s.records t.band).toNat 0

/-- xpanc (R27); zero on a control or an executive core. -/
def xpancOf (s : State) (t : Str) : Word64 :=
  match s.profOf t with
  | .lane | .array =>
    match s.site? (s.seat t).1 with
    | some st => bitsAt st.upper.toNat 16 ||| bitsAt 8 8 ||| bitsAt (st.capMiB % 256) 0
    | none => 0#64
  | _ => 0#64

/-- xctx (R247). -/
def xctxOf (s : State) (t : Str) : Word64 :=
  let c := ctxOf s t.band
  match s.ctx? c with
  | some x => bitsAt x.pinned.toNat 17 ||| bitsAt x.conf.toNat 16 ||| bitsAt (c % 4096) 0
  | none => bitsAt (c % 4096) 0

/-- xspan (R300): the SEL last written and that context's BASE. -/
def xspanOf (s : State) (t : Str) : Word64 :=
  bitsAt t.spanSel.toNat 52 ||| (((s.ctx? t.spanSel.toNat).map (fun (c : Ctx) => c.spanBase)).getD 0#64)

/-- xtk (R317). -/
def xtkOf (s : State) (t : Str) : Word64 :=
  let occ := ((s.core? (s.seat t).1 (s.seat t).2).map (fun (c : Core) => c.tickets.length)).getD 0
  bitsAt (min t.tkCount 0xFFFF) 48 ||| bitsAt (occ % 256) 40 ||| bitsAt (t.tkLast % 256) 32 ||| t.tkId.zeroExtend 64

/-- A core's reading of xclk: within 8 ticks of the module's clock (R247). -/
def xclkOf (s : State) : Word64 := s.clk + BitVec.ofNat 64 ((Config.freeWord s.nfree).toNat % 17) - 8#64

/-- The value of a system register for a string (R245), read from the bundle's operand latch; what R254 makes zero reads
zero. -/
def sysRead (s : State) (t : Str) (idx : Nat) : Word64 :=
  let p := s.profOf t
  let bd := s.band? t.band
  match idx with
  | 0x000 => t.stat
  | 0x001 => t.xtvec
  | 0x002 => t.xtcause
  | 0x003 => t.xtpc
  | 0x004 => t.xtbad
  | 0x005 => t.rcp.seen.zeroExtend 64
  | 0x006 => bitsAt ((bd.map (fun (b : Band) => b.xswap)).getD 0) 0
  | 0x007 => xpathOf t
  | 0x008 => if p = .executive then 0#64 else bitsAt (t.undo.length % 256) 8 ||| bitsAt (t.buf.length % 256) 0
  | 0x009 => xwbOf s t
  | 0x00A => if p = .lane ∨ p = .array then t.benchb else 0#64
  | 0x00B => if p = .lane ∨ p = .array then t.benchl else 0#64
  | 0x00C => if p = .executive then 0#64 else xloopOf t.loop
  | 0x010 => bitsAt t.num 0
  | 0x011 => bitsAt ((bd.map (fun (b : Band) => b.nstr)).getD 0) 0
  | 0x012 => bitsAt ((bd.map (fun (b : Band) => b.bx)).getD 0) 0
  | 0x013 => bitsAt ((bd.map (fun (b : Band) => b.byy)).getD 0) 0
  | 0x014 => bitsAt ((bd.map (fun (b : Band) => b.bz)).getD 0) 0
  | 0x015 => bitsAt ((s.seat t).2 % 64) 0
  | 0x016 => bitsAt (s.dev % 16) 8 ||| bitsAt ((s.seat t).1 % 16) 0
  | 0x018 => xclkOf s
  | 0x019 => xpancOf s t
  | 0x01A => ((s.band? t.band).bind (fun (b : Band) => (s.bale? b.bale).map (fun (x : Bale) => x.base &&& ~~~0xFFFF#64))).getD 0#64
  | 0x040 => xctxOf s t
  | 0x041 => xspanOf s t
  | 0x042 => xtkOf s t
  | i =>
    if p = .executive then 0#64
    else if 0x020 ≤ i ∧ i ≤ 0x023 then t.xwa.getD (i - 0x020) 0#64
    else if 0x024 ≤ i ∧ i ≤ 0x027 then t.xwc.getD (i - 0x024) 0#64
    else 0#64

/-- The registers that belong to the band, the launch or the context, as a bundle reads them with its operands (R84, R243): xswap, xwb
and xspan. -/
def latchRegs (s : State) (t : Str) : List (Nat × Word64) := [0x006, 0x009, 0x041].map (fun i => (i, sysRead s t i))

/-- The registers whose `rdx` is tagged PLAN (R290). -/
def sysPlan (idx : Nat) : Bool := decide (0x010 ≤ idx ∧ idx ≤ 0x014) || idx == 0x017

/-- A register beyond the string's rights: PRIVILEGE with the index in DETAIL (R244); in a confidential context also an
access violation (R221). -/
def State.privilege (s : State) (t : Str) (bu : Bun) (detail : Nat) : State :=
  let c := ctxOf s t.band
  violation (s.raise t bu { cause := .privilege, detail := detail }) c

/-- RDX (R243, R245). -/
def execRdx (d : BitVec 7) (idx : BitVec 10) (la : BitVec 4) (s : State) : Host.Outcome State Fault Refusal :=
  s.onHead (fun t bu =>
    let i := idx.toNat
    if i = 0x041 ∧ modeOf bu.lat = false then s.privilege t bu i
    else if i = 0x017 then
      s.writeLanes bu 0#3 d.toNat (lanesOf bu.mask)
        (fun l => if s.profOf t = .lane ∨ s.profOf t = .array then BitVec.ofNat 32 l else 0#32) (fun _ => .plan)
    else
      let v := (bu.regs.lookup i).getD (sysRead s bu.lat i)
      let tag : Tag := if s.records bu.lat.band && !sysPlan i then .data else .plan
      if sysLong i then
        ({ s with nfree := s.nfree + 1 }).oweCalc bu la.toNat (.s d.toNat) [tag] [v]
      else s.writeScalar bu d.toNat v tag)

/-! ### Writing system registers -/

/-- The writable bits of xstat: TM[0], FEN, FLG, MSAT, RM (R246). -/
def statMask : Word64 := 0x7FFE0#64

/-- The new xstat: RW fields from the written value, with the bundle's own flags ORed in (R246). -/
def statWrite (old v : Word64) (fl : BitVec 5) : Word64 := orFlags ((old &&& ~~~statMask) ||| (v &&& statMask)) fl

/-- Write one system register of the string, with its undo entry (R58). Registers that are not written here are RO or belong
elsewhere. -/
def sysWrite (t : Str) (bench : Nat) (noLanes noWatch : Bool) (fl : BitVec 5) (idx : Nat) (v : Word64) : Str :=
  let clip : Word64 := if v.toNat ≤ bench then v else BitVec.ofNat 64 bench
  match idx with
  | 0x000 => { logUndo t (.sys 0 t.stat) with stat := statWrite t.stat v fl }
  | 0x001 => { logUndo t (.sys 1 t.xtvec) with xtvec := v &&& ~~~15#64 }
  | 0x003 => { logUndo t (.sys 3 t.xtpc) with xtpc := v &&& ~~~15#64 }
  | 0x005 => { logUndo t (.rcp t.rcp) with rcp := { seen := t.rcp.seen, new := v.extractLsb' 0 10, left := 6 } }
  | 0x009 => { logUndo t (.sys 9 (bitsAt t.wbStrict.toNat 4)) with wbStrict := v.getLsbD 4 }
  | 0x00A => if noLanes then t else { logUndo t (.sys 0x00A t.benchb) with benchb := clip }
  | 0x00B => if noLanes then t else { logUndo t (.sys 0x00B t.benchl) with benchl := clip }
  | i =>
    if noWatch then t
    else if 0x020 ≤ i ∧ i ≤ 0x023 then
      { logUndo t (.sys i (t.xwa.getD (i - 0x020) 0#64)) with xwa := t.xwa.set (i - 0x020) v }
    else if 0x024 ≤ i ∧ i ≤ 0x027 then
      { logUndo t (.sys i (t.xwc.getD (i - 0x024) 0#64)) with xwc := t.xwc.set (i - 0x024) (v &&& 0xFF1F#64) }
    else t

/-- The clamp of xswap (R52). -/
def swapClamp (v : Word64) : Nat :=
  if v.toNat < 2 ^ 10 then 2 ^ 10 else if 2 ^ 24 < v.toNat then 2 ^ 24 else v.toNat

/-- WRX (R243, R245): RO registers and fields ignore it; xswap is the band's and takes no undo entry (R52); xspan stores the
base at the serai and acts as `spinv` with count 0 (R300). -/
def execWrx (d : SReg) (idx : BitVec 10) (s : State) : Host.Outcome State Fault Refusal :=
  s.onHead (fun t bu =>
    let v := readS bu.lat d.toNat
    let i := idx.toNat
    if i = 0x041 then
      if modeOf bu.lat = false then s.privilege t bu i
      else
        let sel := v.extractLsb' 52 12
        if sel = 0#12 then s
        else
          let s := s.modHead (fun t => { logUndo t (.sys 0x041 (t.spanSel.zeroExtend 64)) with spanSel := sel })
          let s := s.modCtx sel.toNat (fun c => { c with spanBase := v &&& 0xFFFFFFFE0000#64 })
          invalSpans s sel.toNat 0 0
    else if i = 0x006 then s.modBand bu.lat.band (fun b => { b with xswap := swapClamp v })
    else
      let bench := ((s.band? bu.lat.band).map (fun (b : Band) => b.benchBytes)).getD 0
      let p := s.profOf t
      s.modHead (fun u => sysWrite u bench (p == .control || p == .executive) (p == .executive) bu.flags i v))

/-- SETRCP (R257): the recipe register is written as by `wrx`, with its delay (R114). -/
def execSetrcp (r : BitVec 10) (s : State) : Host.Outcome State Fault Refusal :=
  s.onHead (fun _ _ =>
    s.modHead (fun t => { logUndo t (.rcp t.rcp) with rcp := { seen := t.rcp.seen, new := r, left := 6 } }))

/-- One issued bundle passes a pending recipe write by; after the fourth the new value is seen (R114). -/
def tickRcp (t : Str) : Str := if 1 < t.rcp.left then { t with rcp := { t.rcp with left := t.rcp.left - 1 } } else t

/-- A pending recipe write whose delay has passed takes effect (R114). -/
def rcpExpire (t : Str) : Str := if t.rcp.left = 1 then { t with rcp := { seen := t.rcp.new, new := t.rcp.new, left := 0 } } else t

/-- RECIPE_DELAY_EXPIRY (R114). -/
def execRecipeDelayExpiry (b n : Nat) (s : State) : Host.Outcome State Fault Refusal := .next (s.modStr b n rcpExpire)

/-- XMASK (R253): the old TM[0], then the new one for the next bundle. The result is DATA as one that comes from a special register, which
R290 says of `rdx` and not of `xmask` (log 99). -/
def execXmask (d a : SReg) (s : State) : Host.Outcome State Fault Refusal :=
  s.onHead (fun _ bu =>
    let s := s.writeScalar bu d.toNat (BitVec.ofNat 64 (tm0 bu.lat).toNat) .data
    s.modHead (fun t =>
      { logUndo t (.sys 0 t.stat) with stat := setField t.stat 18 1 ((readS bu.lat a.toNat).extractLsb' 0 1).toNat }))

/-! ### Translation, cache and sampling -/

/-- SPINV (R250): every core acknowledges within the step. -/
def execSpinv (a b : SReg) (s : State) : Host.Outcome State Fault Refusal :=
  s.onHead (fun t bu =>
    if modeOf bu.lat = false then s.privilege t bu 0
    else invalSpans s (ctxOf s t.band) ((readS bu.lat a.toNat).toNat / 2 ^ 21) (readS bu.lat b.toNat).toNat)

/-- A line of the die's caches lies in the range that the operation names. -/
def inRange (s : State) (ents : List (Nat × Word64)) (a n : Nat) (c : CLine) : Bool :=
  ents.any (fun e =>
    let lo := max a (e.1 * 2 ^ 21)
    let hi := min (a + n) (e.1 * 2 ^ 21 + 2 ^ 21)
    let k := lineKey s e.2 lo
    decide (lo < hi) && c.ctx == k.1 && decide (k.2 ≤ c.line) && decide (c.line < k.2 + (hi - lo) / 128))

/-- A dirty line. -/
def CLine.dirty (c : CLine) : Bool := c.st == .M || c.st == .O

/-- The write-back message of a dirty line. -/
def putEvent (die : Nat) (c : CLine) : Instr := if c.st = .M then .putm die c.ctx c.line else .puto die c.ctx c.line

/-- A line of a core's cache after `flush` (`keep`) or `inv` of that core (R251): a dirty line is written back, and stays clean
where `flush` or another core of the die keeps it; `inv` takes a clean one from this core. -/
def CLine.leave (core : Nat) (keep : Bool) (c : CLine) : Option CLine :=
  let rest := if keep then c.cores else c.cores.filter (fun x => x != core)
  let stay := !rest.isEmpty
  if c.dirty then some { c with cores := rest, wb := true, keep := if c.wb then c.keep && stay else stay }
  else if stay then some { c with cores := rest } else none

/-- The write-backs that `flush` or `inv` waits for are performed at their homes (R251). -/
def putsDone (s : State) (die : Nat) (o : Op) : Bool :=
  match o.foot, s.site? die with
  | f :: _, some st => !st.lines.any (fun (c : CLine) => c.wb && inRange s o.ents f.a f.n c)
  | _, _ => true

/-- What `flush` and `inv` share (R251): the checks, then the dirty lines in range that the core's cache holds are written back,
kept clean by `flush`; `inv` drops the clean ones. The string waits for the write-backs. An executive core has no cache. -/
def State.cacheOp (s : State) (a b : SReg) (keep : Bool) : Host.Outcome State Fault Refusal :=
  s.onHead (fun t bu =>
    let x := (readS bu.lat a.toNat).toNat
    let n := (readS bu.lat b.toNat).toNat
    if x % 128 ≠ 0 ∨ n % 128 ≠ 0 ∨ n < 128 ∨ 2 ^ 24 < n then s.raise t bu { cause := .align }
    else if 2 ^ 48 < x + n then s.raise t bu { cause := .spanFault }
    else
      match checkSpans s t (fun _ => none) (spansOf x n) [] with
      | (s, .error e) => s.raiseBad t bu 0 e
      | (s, .ok ents) =>
        let die := (s.seat t).1
        match s.site? die with
        | none => s
        | some st =>
          let core := (s.seat t).2
          let dirty := st.lines.filter (fun (c : CLine) => inRange s ents x n c && c.cores.contains core && c.dirty && !c.wb)
          let s := s.modSite die (fun st => { st with lines := st.lines.filterMap (fun (c : CLine) =>
            if inRange s ents x n c && c.cores.contains core then c.leave core keep else some c) })
          let s := s.post (dirty.map (putEvent die))
          let o := s.nextId
          let op : Op := { id := o, b := t.band, n := t.num, seq := s.nseq, path := none, pc := bu.pc, kind := .ack, ents := ents,
                           foot := [{ sp := .glob, a := x, n := n }], sent := true, fin := true, done := true }
          let op : Op := { op with behind := if putsDone s die op then some 0 else none }
          ({ s with nextId := s.nextId + 1, nseq := s.nseq + 1, ops := s.ops ++ [op] }).modHead (fun t => { t with waitX := some o }))

/-- The acknowledgement of those write-backs has reached the core: it travels on VC2 behind the messages sent there before it, and a site in
its retraining window takes none (R318, R319, R336). -/
def ackDone (s : State) (die : Nat) (o : Op) : Bool :=
  (s.site? die).all (fun (x : Site) => x.retraining.isNone) && o.behind == some 0

/-- FLUSH (R251). -/
def execFlush (a b : SReg) (s : State) : Host.Outcome State Fault Refusal := s.cacheOp a b true

/-- INV (R251). -/
def execInv (a b : SReg) (s : State) : Host.Outcome State Fault Refusal := s.cacheOp a b false

/-- The sampling that `hsamp` sets (R252). -/
def sampling (a b : Word64) : Option Sampler :=
  let n := (a.extractLsb' 0 5).toNat
  let units := (a.extractLsb' 16 16).toNat
  if n = 0 ∨ units = 0 then none
  else some { log2n := if n < 6 then 6 else if 20 < n then 20 else n, units := units, base := (b.extractLsb' 16 32).toNat * 65536 }

/-- HSAMP (R252). -/
def execHsamp (a b : SReg) (s : State) : Host.Outcome State Fault Refusal :=
  s.onHead (fun t bu =>
    if modeOf bu.lat = false then s.privilege t bu 0
    else s.modCtx (ctxOf s t.band) (fun c => { c with sampler := sampling (readS bu.lat a.toNat) (readS bu.lat b.toNat) }))

end Sys2Proof.Machine
end

