-- ==== Sys2Proof/Machine/Memory.lean ====
section
/-! DEFINITION. Loads, stores and atomics as they issue (R177 to R181, R185 to R188): their addresses, checks, withheld entries
(R58), operations in flight and owed results; and the proof release (R60). -/

namespace Sys2Proof.Machine
open Sys2Proof

/-! ### Operations and entries -/

/-- The order codes of R77 as the machine uses them. -/
def isAcq (o : Nat) : Bool := decide (1 ≤ o ∧ o ≤ 4) || decide (9 ≤ o ∧ o ≤ 12)
/-- release or acq_rel -/
def isRel (o : Nat) : Bool := decide (5 ≤ o ∧ o ≤ 12)

/-- The core of the string that heads the run list. -/
def State.headCore (s : State) : Nat := ((s.strs.head?).map (fun (t : Str) => (s.seat t).2)).getD 0

/-- Add an operation that counts on some paths; its identifier and issue number are given here (R49). -/
def State.addOp (s : State) (paths : List Nat) (op : Op) : State × Nat :=
  let o := s.nextId
  (({ s with nextId := s.nextId + 1, nseq := s.nseq + 1, ops := s.ops ++ [{ op with id := o, seq := s.nseq, mask := s.issueMask, core := s.headCore }] }).modHead
    (fun t => { t with outst := t.outst ++ paths.map (fun p => ({ o := o, path := p, back := false } : Outst)) }), o)

/-- Add a withheld entry to the head string's proofing buffer (R58). -/
def State.withhold (s : State) (ops : List Nat) (pc : Word64) (ents : List (Nat × Word64)) (k : EntryKind) : State :=
  let e : Entry := { id := s.nextId, ops := ops, seq := s.nseq, pc := pc, kind := k, ents := ents, mask := s.issueMask, core := s.headCore }
  ({ s with nextId := s.nextId + 1, nseq := s.nseq + 1 }).modHead (fun t => { t with buf := t.buf ++ [e] })

/-- The entries that count against the buffer's 64 (R58). -/
def bufCount (es : List Entry) : Nat := (es.filter (fun (e : Entry) => match e.kind with | .fence .. => false | _ => true)).length

/-- The bytes that an entry writes: space, first address, length. -/
def Entry.feet (e : Entry) : List Foot :=
  match e.kind with
  | .store sp _ _ _ _ bs => bs.map (fun (b : WByte) => { sp := sp, a := b.a, n := 1 })
  | .atom sp _ w8 _ ls => ls.map (fun (x : LaneAtom) => { sp := sp, a := x.a, n := if w8 then 8 else 4 })
  | .sig a _ => [{ sp := .pantry, a := a, n := 8 }]
  | _ => []

/-- Two byte ranges overlap. -/
def Foot.meets (x y : Foot) : Bool := x.sp == y.sp && decide (x.a < y.a + y.n) && decide (y.a < x.a + x.n)
/-- Two lists of ranges overlap. -/
def feetMeet (xs ys : List Foot) : Bool := xs.any (fun x => ys.any (fun y => x.meets y))

/-- The bytes that an entry will write when it is released, its operation's destination included. -/
def State.entryWrites (s : State) (e : Entry) : List Foot :=
  match e.kind with
  | .put =>
    match e.ops.head?.bind (fun o => s.op? o) with
    | some o => match o.kind with
      | .copy _ wr _ dst len _ => [{ sp := wr, a := dst, n := len }]
      | _ => []
    | none => []
  | _ => e.feet

/-- A withheld `put`, `sig` or non-returning atomic (R58). -/
def Entry.unfixed (e : Entry) : Bool :=
  match e.kind with
  | .put | .sig .. | .atom .. => true
  | _ => false

/-- The bytes that a footprint of a band names, told apart by band on the bench and by home in the global space, where two
virtual addresses can name one byte. -/
def realFoot (s : State) (b : Nat) (ents : List (Nat × Word64)) (f : Foot) : List Foot :=
  match f.sp with
  | .bench => [{ f with a := b * 2 ^ 32 + f.a }]
  | .pantry => [f]
  | .glob => (spansOf f.a f.n).map (fun sp =>
      let lo := max f.a (sp * 2 ^ 21)
      let e := (ents.find? (fun e => e.1 == sp)).map (fun e => e.2) |>.getD ((walkSpan s 15 0 (ctxOf s b) sp).2.getD 0#64)
      let h := homeOf e lo
      { sp := .glob, a := (h.1 * 4096 + h.2.1) * 2 ^ 64 + h.2.2, n := min (f.a + f.n) ((sp + 1) * 2 ^ 21) - lo })

/-- The bytes of several footprints. -/
def realFeet (s : State) (b : Nat) (ents : List (Nat × Word64)) (fs : List Foot) : List Foot := fs.flatMap (realFoot s b ents)

/-- A read names bytes that a withheld `put`, `sig` or non-returning atomic of the string will write (R59, case 6); `ents` are the
span entries that it was translated by. -/
def case6 (s : State) (t : Str) (ents : List (Nat × Word64)) (feet : List Foot) : Bool :=
  t.buf.any (fun (e : Entry) => e.unfixed && feetMeet (realFeet s t.band e.ents (s.entryWrites e)) (realFeet s t.band ents feet))

/-! ### Proof release (R60) -/

/-- A `put`, whose source is read after its release. -/
def Op.isPut (o : Op) : Bool :=
  match o.kind with
  | .copy _ .pantry .. => true
  | _ => false

/-- The `get`s of a string that have not been performed: their issue numbers. -/
def openGets (s : State) (b n : Nat) : List Nat :=
  (s.ops.filter (fun (o : Op) => o.b == b && o.n == n && !o.done && !o.undone && !o.isPut && (match o.kind with | .copy .. => true | _ => false))).map
    (fun (o : Op) => o.seq)

/-- A store entry falls into what its stores before and after each `get` of number in `gs` wrote, since those keep their order with it
(R58, R155). -/
def State.splitEntry (s : State) (gs : List Nat) (e : Entry) : List Entry :=
  match e.kind with
  | .store sp line c ord rem bs =>
    let part := fun (q : Nat) => (gs.filter (fun g => decide (g < q))).length
    (List.range (gs.length + 1)).filterMap (fun k =>
      match bs.filter (fun (b : WByte) => part b.seq == k) with
      | [] => none
      | b :: xs => some { e with seq := xs.foldl (fun m (x : WByte) => min m x.seq) b.seq, kind := .store sp line c ord rem (b :: xs),
                                 ops := e.ops.filter (fun o => (s.op? o).all (fun (x : Op) => part x.seq == k)) })
  | _ => [e]

/-- The parts of some entries, those that are new numbered from `i`. -/
def State.splitAll (s : State) (gs : List Nat) : List Entry → Nat → List Entry × Nat
  | [], i => ([], i)
  | e :: es, i =>
    let ps := s.splitEntry gs e
    let r := s.splitAll gs es (i + ps.length)
    (ps.take 1 ++ (ps.drop 1).zipIdx.map (fun x => { x.1 with id := i + x.2 }) ++ r.1, r.2)

/-- What a string has withheld, as it is released. -/
def State.released (s : State) (t : Str) : List Entry × Nat :=
  match openGets s t.band t.num with
  | [] => (t.buf, s.nextId)
  | gs => s.splitAll gs t.buf s.nextId

/-- Release the string's withheld entries in program order, with their shadow writes and FILL records. -/
def releaseEntries (s : State) (b n : Nat) : State :=
  match s.str? b n with
  | none => s
  | some t =>
    let s := t.fills.foldl (fun s f => applyFill s b f) s
    let r := s.released t
    ({ s with nextId := r.2, rels := s.rels ++ r.1.map (fun (e : Entry) => (b, n, e)) }).modStr b n (fun t => { t with buf := [], fills := [] })

/-- The restart point as the string stands (R60). -/
def restartOf (t : Str) (q : Nat) : Restart :=
  { a := t.slotA, b := t.slotB, stat := t.stat, owed := t.owed, lastB := t.lastB, seq := q, segA := t.segA, segB := t.segB }

/-- A proof point reached: the undo record is cleared and the restart point moves. Results owed keep no undo entry. -/
def proofPoint (t : Str) (q : Nat) : Str :=
  let t := { t with undo := [], owed := t.owed.map (fun (w : Owed) => { w with logged := false }) }
  { t with rp := restartOf t q }

/-- A release finds the first tear of the launch's recording, and the string has STRICT set (R293). -/
def tornNow (s r : State) (b n : Nat) : Bool := (s.str? b n).any (fun (t : Str) => t.wbStrict) && !isTorn s b && isTorn r b

/-- The cause of the tear that `r` has and `s` has not: band `b`'s, or that of the band whose GBAR record made it (R293). -/
def tearCause (s r : State) (b : Nat) : Nat :=
  let torn := r.bands.filter (fun (x : Band) => x.torn && !(s.band? x.id).any (fun (y : Band) => y.torn) && some x.launch == (s.band? b).map (fun (y : Band) => y.launch))
  (((torn.find? (fun (x : Band) => x.id == b)).or torn.head?).map (fun (x : Band) => x.tcause)).getD 0

/-- WAYBILL_TORN at a release (R293): the tear that `r` found stands, nothing of the release is performed, and the string goes back to its
last proof point. It is the band's whose string makes it, also where a `gbar`'s record in another band is the one too many (log 113). -/
def raiseTorn (s r : State) (b n islot : Nat) (bad : Word64) : State :=
  let k := tearCause s r b
  takeTrap (markTear s b k) b n { cause := .waybillTorn, islot := islot, bad := bad }

/-- PROOF_POINT_RELEASE (R60): the withheld entries are released, the undo record is cleared, and the restart point is where
the string stands, after the bundle that it issued last. -/
def release (s : State) (b n : Nat) : State :=
  let r := releaseEntries s b n
  if tornNow s r b n then raiseTorn s r b n 0 (((s.str? b n).map (fun (t : Str) => t.lastPc)).getD 0#64)
  else r.modStr b n (fun t => proofPoint t r.nseq)

/-- The bundle before this one becomes a proof point, and this one waits (R59, R60). -/
def State.holdRelease (s : State) (bu : Bun) (w : Wait) : State :=
  let s := s.hold bu w
  release s bu.lat.band bu.lat.num

/-- PROOF_POINT_RELEASE as an event of a string: what it has withheld is released. -/
def execProofPointRelease (b n : Nat) (s : State) : Host.Outcome State Fault Refusal := .next (release s b n)

/-- An access of the string, for the drains: not a job, a batch, a computed result or an acknowledgement. -/
def Op.isAccess (o : Op) : Bool :=
  match o.kind with
  | .load .. | .store | .atom .. | .copy .. | .seal .. | .jtab .. => true
  | _ => false
/-- A read that `fence.rel`, `fence.acq` and release orders order: a load, a returning atomic, a `get` (R163, R164). -/
def Op.isRead (o : Op) : Bool :=
  match o.kind with
  | .load .. | .atom .. | .seal .. | .jtab .. => true
  | .copy _ wr .. => wr != .pantry
  | _ => false

/-- No released entry of the string before issue number `q` remains unperformed. -/
def relsDone (s : State) (b n q : Nat) : Bool := !s.rels.any (fun x => x.1 == b && x.2.1 == n && decide (x.2.2.seq < q))
/-- Every access of the string before issue number `q` is performed. -/
def accessesDone (s : State) (b n q : Nat) : Bool :=
  relsDone s b n q && !s.ops.any (fun (o : Op) => o.b == b && o.n == n && decide (o.seq < q) && o.isAccess && !o.done && !o.undone)

/-! ### Scopes (R156 to R159) -/

/-- The scope of an order code (R77): 1 band, 2 die, 3 device, 4 system. -/
def scopeOf (o : Nat) : Nat := if o = 0 then 4 else (o - 1) % 4 + 1

/-- Band `y` is of the instance of a scope that contains band `x` (R156). -/
def inInstance (s : State) (scope x y : Nat) : Bool :=
  if scope ≤ 1 then x == y
  else if scope = 2 then (s.band? x).any (fun (p : Band) => (s.band? y).any (fun (q : Band) => p.die == q.die))
  else true

/-- An operation that counts as performed at a scope and is not performed. -/
def Op.early (o : Op) : Bool := o.vis != 0 && !o.done && !o.undone
/-- Some access counts as performed at a scope before it is. -/
def anyEarly (s : State) : Bool := s.ops.any Op.early || s.rels.any (fun (x : Nat × Nat × Entry) => x.2.2.vis != 0)

/-- An access of another agent counts as performed at a scope whose instance contains this one, and these bytes are its own: until
it is performed, no agent of the instance may read an older value there or have its store ordered before (R158). -/
def State.claimed (s : State) (b n : Nat) (ents : List (Nat × Word64)) (fs : List Foot) : Bool :=
  anyEarly s &&
    (s.ops.any (fun (o : Op) => o.early && !(o.b == b && o.n == n) && inInstance s o.vis o.b b &&
        feetMeet (realFeet s o.b o.ents o.foot) (realFeet s b ents fs)) ||
      s.rels.any (fun (x : Nat × Nat × Entry) => x.2.2.vis != 0 && !(x.1 == b && x.2.1 == n) && inInstance s x.2.2.vis x.1 b &&
        feetMeet (realFeet s x.1 x.2.2.ents (s.entryWrites x.2.2)) (realFeet s b ents fs)))

/-- The same for the serai, which is of every device instance: some bytes at this module's home. -/
def State.homeClaimed (s : State) (ctx ha n : Nat) : Bool :=
  let f : Foot := { sp := .glob, a := (s.dev * 4096 + ctx) * 2 ^ 64 + ha, n := n }
  anyEarly s &&
    (s.ops.any (fun (o : Op) => o.early && o.vis == 3 && feetMeet (realFeet s o.b o.ents o.foot) [f]) ||
      s.rels.any (fun (x : Nat × Nat × Entry) => x.2.2.vis == 3 && feetMeet (realFeet s x.1 x.2.2.ents (s.entryWrites x.2.2)) [f]))

/-- An access of another agent of this one's instance counts as performed at a narrower scope only: what this agent releases at a
wider one may rest on it (R159, R160), and waits. -/
def State.narrower (s : State) (b n scope : Nat) : Bool :=
  anyEarly s &&
    (s.ops.any (fun (o : Op) => o.early && decide (o.vis < scope) && !(o.b == b && o.n == n) && inInstance s o.vis o.b b) ||
      s.rels.any (fun (x : Nat × Nat × Entry) => x.2.2.vis != 0 && decide (x.2.2.vis < scope) && !(x.1 == b && x.2.1 == n) &&
        inInstance s x.2.2.vis x.1 b))

/-- An unperformed access of the string before issue number `q`. -/
def pendingOp (b n q : Nat) (o : Op) : Bool :=
  o.b == b && o.n == n && decide (o.seq < q) && o.isAccess && !o.done && !o.undone && (match o.kind with | .store => false | _ => true)
/-- An unperformed released entry of the string before issue number `q`. -/
def pendingRel (b n q : Nat) (x : Nat × Nat × Entry) : Bool := x.1 == b && x.2.1 == n && decide (x.2.2.seq < q)

/-- The string's accesses before number `q` that `ofOp` and `ofEntry` pick may count as performed at a scope narrower than system
now: none is an acquire of a wider scope, none is another agent's to perform first, and nothing older of a narrower scope is left. -/
def State.claimable (s : State) (b n q scope : Nat) (ofOp : Op → Bool) (ofEntry : Entry → Bool) : Bool :=
  decide (scope < 4) && !s.narrower b n scope &&
    s.ops.all (fun (o : Op) => !(pendingOp b n q o && ofOp o) ||
      (!(o.acq && decide (scope < o.ascope)) && !s.claimed b n o.ents o.foot &&
        !(o.isRead && (s.str? b n).any (fun (t : Str) => t.acqMarks.any (fun m => decide (o.seq < m.1) && decide (scope < m.2)))))) &&
    s.rels.all (fun x => !(pendingRel b n q x && ofEntry x.2.2) ||
      (!(match x.2.2.kind with | .fence .. => true | _ => false) && !s.claimed b n x.2.2.ents (s.entryWrites x.2.2)))

/-- They count as performed at that scope. -/
def State.claim (s : State) (b n q scope : Nat) (ofOp : Op → Bool) (ofEntry : Entry → Bool) : State :=
  { s with ops := s.ops.map (fun (o : Op) => if pendingOp b n q o && ofOp o then { o with vis := max o.vis scope } else o),
           rels := s.rels.map (fun x => if pendingRel b n q x && ofEntry x.2.2 then (x.1, x.2.1, { x.2.2 with vis := max x.2.2.vis scope }) else x) }

/-- Every access of the string before number `q` may count as performed at the scope. -/
def claimAll (s : State) (b n q scope : Nat) : Bool := s.claimable b n q scope (fun _ => true) (fun _ => true)

/-- The string's wait for its earlier accesses is over: `scope` 0 is a wait for its released entries alone. -/
def drainOver (s : State) (b n scope q : Nat) : Bool :=
  if scope = 0 then relsDone s b n q else (accessesDone s b n q && !s.narrower b n scope) || claimAll s b n q scope

/-- The marks of acquires and joins that nothing older is left to wait for are forgotten. -/
def pruneMarks (s : State) (t : Str) : Str :=
  { t with acqMarks := t.acqMarks.filter (fun m => !accessesDone s t.band t.num m.1),
           joins := t.joins.filter (fun (j : Nat × Word32) => !accessesDone s t.band t.num j.1) }

/-- The string's earlier entries are released and performed at the scope; otherwise the bundle waits for that. A scope other than 0
waits for its loads too. -/
def State.drained (s : State) (bu : Bun) (scope : Nat) (go : State → State) : State :=
  let b := bu.lat.band
  let n := bu.lat.num
  if bu.lat.buf.isEmpty && drainOver s b n scope bu.seq then
    go (if scope = 0 || accessesDone s b n bu.seq then s else s.claim b n bu.seq scope (fun _ => true) (fun _ => true))
  else s.holdRelease bu (.drain scope bu.seq)

/-! ### Addresses -/

/-- Base(l) plus the offset (R76, R179). -/
def laneAddr (lat : Str) (base : BitVec 6) (vb : Bool) (off n l : Nat) : Word64 :=
  (if vb then readV64 lat (2 * base.toNat) l else readS lat base.toNat) + BitVec.ofNat 64 (off * n)

/-- A pantry access is served by the issuing core's own die (R185). -/
def localPantry (s : State) (t : Str) (a : Nat) : Bool :=
  match s.profOf t with
  | .lane | .array => a / 2 ^ 27 == (s.seat t).1
  | _ => false

/-- The paths on which an access of these lanes counts (R49, R185): once on each, whatever verbs it is carried by, a pantry access with local
and remote lanes once on path 1 and once on path 3 (log 92). -/
def pathsOf (s : State) (t : Str) (sp : Space) (lanes : List (Nat × Nat)) : List Nat :=
  match sp with
  | .glob => [2]
  | .bench => [0]
  | .pantry =>
    (if lanes.any (fun x => localPantry s t x.2) then [1] else []) ++
      (if lanes.any (fun x => !localPantry s t x.2) then [3] else [])

/-- A counter of these paths would pass 255 (R49). -/
def fullPath (lat : Str) (paths : List Nat) : Option Nat := paths.find? (fun p => decide (255 ≤ pathCount lat p))

/-- The checks that every per-lane access makes before it issues: R181, then watchpoints (R248), then a full counter (R49). -/
def State.access (s : State) (t : Str) (bu : Bun) (sp : Space) (n : Nat) (need : Word64 → Option Bad) (ld st : Bool)
    (addrs : List (Nat × Word64)) (go : State → Checked → State) : State :=
  match checkLanes s t bu.lat sp n need addrs {} with
  | (s, .error (l, e)) => s.raiseBad t bu l e
  | (s, .ok c) =>
    match watchAny s t bu.lat (c.lanes.map (fun x => (x.1, sp, ld, st, x.2 % 2 ^ 48, n))) with
    | some (k, l) => s.raise t bu { cause := .watch, lane := l, detail := k }
    | none =>
      match fullPath bu.lat (pathsOf s t sp c.lanes) with
      | some p => s.hold bu (.full p)
      | none => go s c

/-- The ranges that the lanes name. -/
def laneFeet (sp : Space) (n : Nat) (lanes : List (Nat × Nat)) : List Foot :=
  lanes.map (fun x => { sp := sp, a := x.2, n := n })

/-! ### Loads (R177, R179) -/

/-- A load: an operation in flight whose result is owed under the lookahead. -/
def State.loadOp (s : State) (sp : Space) (g : PReg) (d : VReg) (base : BitVec 6) (vb : Bool) (w : BitVec 3) (ord la : BitVec 4)
    (off : BitVec 5) : Host.Outcome State Fault Refusal :=
  s.onHead (fun t bu =>
    let m := activeMask bu g
    let n := widthBytes w
    let k := widthRegs w
    let ls := lanesOf m
    if ls.isEmpty then (List.range k).foldl (fun s i => s.writeLanes bu g (d.toNat + i) [] (fun _ => 0#32) (fun _ => .data)) s
    else
      s.access t bu sp n needR true false (ls.map (fun l => (l, laneAddr bu.lat base vb off.toNat n l))) (fun s c =>
        let feet := laneFeet sp n c.lanes
        if case6 s bu.lat c.ents feet then s.holdRelease bu (.drain 0 bu.seq)
        else
          let op : Op := { id := 0, b := t.band, n := t.num, seq := 0, path := (pathsOf s t sp c.lanes).head?, pc := bu.pc,
                           kind := .load sp w.toNat d.toNat c.lanes, acq := isAcq ord.toNat, ascope := scopeOf ord.toNat,
                           foot := feet, ents := c.ents }
          let r := s.addOp (pathsOf s t sp c.lanes) op
          let tags : List Tag := if s.records t.band then List.replicate (k * ls.length) .data else []
          let dst : Dest := .v d.toNat k m
          let taint := if s.records t.band then guardTaint bu g else []
          r.1.modHead (fun t =>
            let t := logDest t dst
            let t := (List.range k).foldl (fun t i => putVTag t (d.toNat + i) taint (fun _ => .data)) t
            { t with owed := t.owed ++ [{ o := r.2, left := la.toNat, dst := dst, tags := tags }] })))

/-- LD_G (R177, R179). -/
def execLdG (g : PReg) (d : VReg) (base : BitVec 6) (vb : Bool) (w : BitVec 3) (ord la : BitVec 4) (off : BitVec 5) (s : State) :
    Host.Outcome State Fault Refusal := s.loadOp .glob g d base vb w ord la off

/-- LD_P (R177, R179, R185). -/
def execLdP (g : PReg) (d : VReg) (base : BitVec 6) (vb : Bool) (w : BitVec 3) (ord la : BitVec 4) (off : BitVec 5) (s : State) :
    Host.Outcome State Fault Refusal := s.loadOp .pantry g d base vb w ord la off

/-- LD_B (R177, R179). -/
def execLdB (g : PReg) (d : VReg) (base : BitVec 6) (vb : Bool) (w : BitVec 3) (ord la : BitVec 4) (off : BitVec 5) (s : State) :
    Host.Outcome State Fault Refusal := s.loadOp .bench g d base vb w ord la off

/-! ### Stores (R177 to R179) -/

/-- The bytes that lane `l` stores: the low n bytes of v[d], v[d+1], … (R179). -/
def storeBytes (lat : Str) (d k n l : Nat) : List Byte :=
  ((List.range k).flatMap (fun i => leBytes 4 (readV lat (d + i) l).toNat)).take n

/-- Every written byte, lanes ascending: the last writer of a byte stands (R153, R179). -/
def laneBytes (lat : Str) (d k n q : Nat) (lanes : List (Nat × Nat)) : List WByte :=
  lanes.flatMap (fun x => ((storeBytes lat d k n x.1).zipIdx).map (fun y => { a := x.2 + y.2, v := y.1, seq := q }))

/-- Put a byte into an entry's bytes behind those of its place in the line. -/
def insertByte (b : WByte) : List WByte → List WByte
  | [] => [b]
  | x :: xs => if b.a % 128 < x.a % 128 then b :: x :: xs else x :: insertByte b xs

/-- Put one byte into an entry's bytes, places in the line rising. One instruction's lanes write a byte once (R153); of several
stores that merged, each keeps its own byte, oldest first, for the string's loads that come between them (R58, R179). -/
def putByte (b : WByte) (xs : List WByte) : List WByte := insertByte b (xs.filter (fun x => !(x.a == b.a && x.seq == b.seq)))

/-- Group accesses by a line, lines in the order in which they are first met. -/
def groupOn {α : Type} (key : α → Nat × Nat × Nat) (add : α → List α → List α) :
    List α → List ((Nat × Nat × Nat) × List α) → List ((Nat × Nat × Nat) × List α)
  | [], acc => acc
  | x :: xs, acc =>
    if acc.any (fun y => y.1 == key x) then groupOn key add xs (acc.map (fun y => if y.1 == key x then (y.1, add x y.2) else y))
    else groupOn key add xs (acc ++ [(key x, add x [])])

/-- The line that an access of a string names: in the global space home, home context and home line (R304). -/
def homeLine (ents : List (Nat × Word64)) (sp : Space) (a : Nat) : Nat × Nat × Nat :=
  if sp = .glob then
    let h := homeOf (entFor ents a) a
    (h.1, h.2.1, h.2.2 / 128)
  else (0, 0, a / 128)

/-- Written bytes by line; a group is named by the line of its first byte. -/
def byHome (ents : List (Nat × Word64)) (sp : Space) (bs : List WByte) : List (Nat × List WByte) :=
  (groupOn (fun (b : WByte) => homeLine ents sp b.a) putByte bs []).map (fun x => (((x.2.head?).map (fun (b : WByte) => b.a / 128)).getD 0, x.2))

/-- Written bytes by the line of their addresses. -/
def byLine (bs : List WByte) : List (Nat × List WByte) :=
  (groupOn (fun (b : WByte) => (0, 0, b.a / 128)) putByte bs []).map (fun x => (x.1.2.2, x.2))

/-- A plain store entry that merges (R58): not a release, not a remote descriptor. -/
def Entry.plainStore (e : Entry) : Bool :=
  match e.kind with
  | .store _ _ _ ord remote _ => ord == 0 && !remote
  | _ => false
/-- A store entry of this line: its home, home context and home line in the global space (R304). -/
def Entry.ofLine (e : Entry) (sp : Space) (line : Nat × Nat × Nat) : Bool :=
  match e.kind with
  | .store sp' line' _ _ remote _ => sp' == sp && homeLine e.ents sp (line' * 128) == line && !remote
  | _ => false
/-- Its colour. -/
def Entry.colour (e : Entry) : Nat :=
  match e.kind with
  | .store _ _ c _ _ _ => c
  | _ => 0

/-- The newest entry, if a plain store to this line may merge into it (R58): buffer newest first. -/
def mergeTarget (sp : Space) (line : Nat × Nat × Nat) (colour : Nat) : List Entry → Option Nat
  | [] => none
  | e :: es =>
    if !e.plainStore then none
    else if e.ofLine sp line then (if e.colour = colour then some e.id else none)
    else mergeTarget sp line colour es

/-- Merge bytes into an entry. -/
def mergeInto (o : Nat) (mask : Word32) (ents : List (Nat × Word64)) (bs : List WByte) (e : Entry) : Entry :=
  match e.kind with
  | .store sp line c ord rem old =>
    { e with ents := e.ents ++ ents.filter (fun x => !e.ents.contains x), ops := e.ops ++ [o], mask := e.mask ||| mask,
             kind := .store sp line c ord rem (bs.foldl (fun m b => putByte b m) old) }
  | _ => e

/-- Withhold one line of a store: merged, or a new entry (R58). -/
def State.storeLine (s : State) (o : Nat) (pc : Word64) (ents : List (Nat × Word64)) (sp : Space) (colour ord : Nat) (remote : Bool)
    (line : Nat) (bs : List WByte) : State :=
  let es := ents.filter (fun e => sp == .glob && bs.any (fun (b : WByte) => e.1 == b.a / 2 ^ 21))
  let target := (s.strs.head?).bind (fun (t : Str) => if ord = 0 ∧ remote = false then mergeTarget sp (homeLine es sp (line * 128)) colour t.buf.reverse else none)
  match target with
  | some i => s.modHead (fun t => { t with buf := t.buf.map (fun (e : Entry) => if e.id == i then mergeInto o s.issueMask es bs e else e) })
  | none => s.withhold [o] pc es (.store sp line colour ord remote bs)

/-- What a `st.b` of a recording launch writes in the shadow states (R291): each bench byte with its value and the tag it
takes; lanes outside the bracket, or whose guard lane is not PLAN, are DATA lanes. -/
def fillBytes (bu : Bun) (g : PReg) (d k n : Nat) (addr : Nat → Nat) (m : Word32) : List (Nat × Byte × Tag) :=
  let taint := guardTaint bu g
  (lanesOf (m ||| maskOf taint)).flatMap (fun l =>
    ((storeBytes bu.lat d k n l).zipIdx).map (fun y =>
      (addr l + y.2, y.1, if taint.contains l || !bu.lat.wbOpen then Tag.data else tagV bu.lat (d + y.2 / 4) l)))

/-- The shadow state that the bytes of one word give it: DATA if one of them is DATA, else FILL with the last tag. -/
def wordShadow (bs : List (Nat × Byte × Tag)) (w : Nat) : Option Shadow :=
  match bs.filter (fun x => x.1 / 4 == w) with
  | [] => none
  | ys =>
    if ys.any (fun x => x.2.2 == .data) then some .data
    else (ys.getLast?).map (fun x => .fill x.2.2)

/-- The FILL record of a 32-byte block (R283, R291). -/
def fillBlock (bs : List (Nat × Byte × Tag)) (ws : List (Nat × Shadow)) (blk : Nat) : List Byte × List Patch :=
  let ok := bs.filter (fun x => x.1 / 32 == blk && (ws.any (fun w => w.1 == x.1 / 4 && w.2 != .data)))
  let mask := ok.foldl (fun m x => m ||| 1 <<< (x.1 % 32)) 0
  let dat := ok.foldl (fun (m : List Byte) x => m.set (x.1 % 32) x.2.1) (List.replicate 32 0#8)
  let img := [0x21#8, 0#8, 0#8, 0#8] ++ leBytes 4 (32 * blk) ++ leBytes 4 mask ++ List.replicate 4 0#8 ++ dat ++ List.replicate 16 0#8
  let ps := (ws.filter (fun w => w.1 / 8 == blk)).flatMap (fun w =>
    match w.2 with
    | .fill t => patchOf (16 + 4 * (w.1 % 8)) t
    | _ => [])
  (img, ps)

/-- Distinct numbers, ascending. -/
def sortNats (xs : List Nat) : List Nat := xs.foldl (fun m x => insertNat x m) []
where
  insertNat (x : Nat) : List Nat → List Nat
    | [] => [x]
    | y :: ys => if x < y then x :: y :: ys else if x = y then y :: ys else y :: insertNat x ys

/-- The shadow writes and FILL records of a `st.b` (R291). -/
def fillOf (q : Nat) (bs : List (Nat × Byte × Tag)) : Fill :=
  let ws := (sortNats (bs.map (fun x => x.1 / 4))).filterMap (fun w => (wordShadow bs w).map (fun sh => (w, sh)))
  let blks := sortNats ((ws.filter (fun w => w.2 != .data)).map (fun w => w.1 / 8))
  { seq := q, shadows := ws, blocks := blks.map (fillBlock bs ws) }

/-- Store lines of a group of lanes, local or remote. -/
def State.storeLanes (s : State) (o : Nat) (pc : Word64) (ents : List (Nat × Word64)) (sp : Space) (colour ord : Nat) (remote : Bool)
    (bs : List WByte) : State :=
  (byHome ents sp bs).foldl (fun s x => s.storeLine o pc ents sp colour ord remote x.1 x.2) s

/-- The number of entries, withheld by the head string, that operation `o` belongs to. -/
def entriesOf (t : Str) (o : Nat) : Nat := (t.buf.filter (fun (e : Entry) => e.ops.contains o)).length

/-- A store: every byte is withheld until the proof release (R179). -/
def State.storeOp (s : State) (sp : Space) (g : PReg) (d : VReg) (base : BitVec 6) (vb : Bool) (w : BitVec 3) (ord : BitVec 4)
    (colour : BitVec 3) (off : BitVec 5) : Host.Outcome State Fault Refusal :=
  s.onHead (fun t bu =>
    let m := activeMask bu g
    let n := widthBytes w
    let k := widthRegs w
    let ls := lanesOf m
    let addr := fun l => laneAddr bu.lat base vb off.toNat n l
    let shadowed := fun (s : State) =>
      if sp == .bench && s.records t.band && !(lanesOf (m ||| maskOf (guardTaint bu g))).isEmpty then
        s.modHead (fun t => { t with fills := t.fills ++ [fillOf s.nseq (fillBytes bu g d.toNat k n (fun l => (addr l).toNat) m)] })
      else s
    if ls.isEmpty then s.tearAt t bu (sp != .bench) 3 shadowed
    else
      s.access t bu sp n needW false true (ls.map (fun l => (l, addr l))) (fun s c =>
        s.tearAt t bu (sp != .bench) 3 (fun s =>
          let op : Op := { id := 0, b := t.band, n := t.num, seq := 0, path := none, pc := bu.pc, kind := .store }
          let r := s.addOp (pathsOf s t sp c.lanes) op
          let isLocal := fun (x : Nat × Nat) => sp != .pantry || localPantry s t x.2
          let q := s.nseq
          let s := r.1.storeLanes r.2 bu.pc c.ents sp colour.toNat ord.toNat false
            (laneBytes bu.lat d.toNat k n q (c.lanes.filter isLocal))
          let s := s.storeLanes r.2 bu.pc c.ents sp colour.toNat ord.toNat true
            (laneBytes bu.lat d.toNat k n q (c.lanes.filter (fun x => !isLocal x)))
          let cnt := ((s.strs.head?).map (fun (t : Str) => entriesOf t r.2)).getD 0
          shadowed (s.modOp r.2 (fun o => { o with left := cnt })))))

/-- ST_G (R177, R179). -/
def execStG (g : PReg) (d : VReg) (base : BitVec 6) (vb : Bool) (w : BitVec 3) (ord : BitVec 4) (colour : BitVec 3) (off : BitVec 5)
    (s : State) : Host.Outcome State Fault Refusal := s.storeOp .glob g d base vb w ord colour off

/-- ST_P (R177, R179, R185). -/
def execStP (g : PReg) (d : VReg) (base : BitVec 6) (vb : Bool) (w : BitVec 3) (ord : BitVec 4) (colour : BitVec 3) (off : BitVec 5)
    (s : State) : Host.Outcome State Fault Refusal := s.storeOp .pantry g d base vb w ord colour off

/-- ST_B (R177, R179, R291). -/
def execStB (g : PReg) (d : VReg) (base : BitVec 6) (vb : Bool) (w : BitVec 3) (ord : BitVec 4) (colour : BitVec 3) (off : BitVec 5)
    (s : State) : Host.Outcome State Fault Refusal := s.storeOp .bench g d base vb w ord colour off

/-! ### Atomics (R186 to R188) -/

/-- The new value of a read-modify-write (R187). -/
def atomNew (op : Nat) (w8 : Bool) (old x y : Word64) : Word64 :=
  let wr : Word64 → Word64 := fun v => if w8 then v else v &&& 0xFFFFFFFF#64
  let sx : Word64 → Int := fun v => if w8 then v.toInt else (v.extractLsb' 0 32).toInt
  match op with
  | 0 => wr (old + x)
  | 1 => if sx old ≤ sx x then old else x
  | 2 => if sx x ≤ sx old then old else x
  | 3 => if old.toNat ≤ x.toNat then old else x
  | 4 => if x.toNat ≤ old.toNat then old else x
  | 5 => old &&& x
  | 6 => old ||| x
  | 7 => old ^^^ x
  | 8 => x
  | 9 => if old = x then y else old
  | 10 => if x.toNat ≤ old.toNat then 0#64 else wr (old + 1#64)
  | _ => if old = 0#64 ∨ x.toNat < old.toNat then x else old - 1#64

/-- The operands of a lane (R187). -/
def laneAtom (lat : Str) (d : Nat) (w8 : Bool) (x : Nat × Nat) : LaneAtom :=
  { lane := x.1, a := x.2,
    x := if w8 then readV64 lat d x.1 else (readV lat d x.1).zeroExtend 64,
    y := if w8 then readV64 lat (d + 2) x.1 else (readV lat (d + 1) x.1).zeroExtend 64 }

/-- The lanes of an atomic by line. -/
def atomLines (ents : List (Nat × Word64)) (sp : Space) (ls : List LaneAtom) : List (Nat × List LaneAtom) :=
  (groupOn (fun (x : LaneAtom) => homeLine ents sp x.a) (fun x xs => xs ++ [x]) ls []).map
    (fun x => (((x.2.head?).map (fun (y : LaneAtom) => y.a / 128)).getD 0, x.2))

/-- An atomic (R186 to R188). A returning one waits until the earlier release has drained; a non-returning one is withheld,
one descriptor for each line. -/
def State.atomOp (s : State) (sp : Space) (g : PReg) (d : VReg) (base : BitVec 6) (vb : Bool) (op ord : BitVec 4) (sz rt : Bool)
    (off : BitVec 5) : Host.Outcome State Fault Refusal :=
  s.onHead (fun t bu =>
    let m := activeMask bu g
    let n := if sz then 8 else 4
    let ls := lanesOf m
    let k := if sz then 2 else 1
    if ls.isEmpty then
      s.tearAt t bu (sp != .bench) 3 (fun s =>
        if rt then (List.range k).foldl (fun s i => s.writeLanes bu g (d.toNat + i) [] (fun _ => 0#32) (fun _ => .data)) s else s)
    else
      s.access t bu sp n (needA op.toNat) rt true (ls.map (fun l => (l, laneAddr bu.lat base vb off.toNat n l))) (fun s c =>
        s.tearAt t bu (sp != .bench) 3 (fun s =>
          let feet := laneFeet sp n c.lanes
          let lanes := c.lanes.map (laneAtom bu.lat d.toNat sz)
          let shadow : Fill := { seq := s.nseq, shadows := (feet.flatMap (fun f => wordsOf f.a f.n)).map (fun w => (w, .data)) }
          let mark := fun (s : State) =>
            if sp == .bench && s.records t.band then s.modHead (fun t => { t with fills := t.fills ++ [shadow] }) else s
          if rt then
            s.drained bu 0 (fun s =>
              let o : Op := { id := 0, b := t.band, n := t.num, seq := 0, path := (pathsOf s t sp c.lanes).head?, pc := bu.pc,
                              kind := .atom sp op.toNat sz d.toNat lanes, acq := isAcq ord.toNat, ascope := scopeOf ord.toNat, rel := isRel ord.toNat, scope := scopeOf ord.toNat,
                              foot := feet, ents := c.ents }
              let r := s.addOp (pathsOf s t sp c.lanes) o
              let dst : Dest := .v d.toNat k m
              let tags : List Tag := if s.records t.band then List.replicate (k * ls.length) .data else []
              let taint := if s.records t.band then guardTaint bu g else []
              mark (r.1.modHead (fun t =>
                let t := logDest t dst
                let t := (List.range k).foldl (fun t i => putVTag t (d.toNat + i) taint (fun _ => .data)) t
                { t with owed := t.owed ++ [{ o := r.2, left := 0, dst := dst, tags := tags }] })))
          else
            let o : Op := { id := 0, b := t.band, n := t.num, seq := 0, path := none, pc := bu.pc, kind := .store }
            let r := s.addOp (pathsOf s t sp c.lanes) o
            let groups := atomLines c.ents sp lanes
            let s := groups.foldl (fun s x =>
              s.withhold [r.2] bu.pc c.ents (.atom sp op.toNat sz ord.toNat x.2)) r.1
            mark (s.modOp r.2 (fun o => { o with left := groups.length })))))

/-- ATOM_G (R186, R187). -/
def execAtomG (g : PReg) (d : VReg) (base : BitVec 6) (vb : Bool) (op ord : BitVec 4) (sz rt : Bool) (off : BitVec 5) (s : State) :
    Host.Outcome State Fault Refusal := s.atomOp .glob g d base vb op ord sz rt off

/-- ATOM_P (R185 to R187). -/
def execAtomP (g : PReg) (d : VReg) (base : BitVec 6) (vb : Bool) (op ord : BitVec 4) (sz rt : Bool) (off : BitVec 5) (s : State) :
    Host.Outcome State Fault Refusal := s.atomOp .pantry g d base vb op ord sz rt off

/-- ATOM_B (R186, R187). -/
def execAtomB (g : PReg) (d : VReg) (base : BitVec 6) (vb : Bool) (op ord : BitVec 4) (sz rt : Bool) (off : BitVec 5) (s : State) :
    Host.Outcome State Fault Refusal := s.atomOp .bench g d base vb op ord sz rt off

end Sys2Proof.Machine
end

