-- ==== Sys2Proof/Machine/Sync.lean ====
section
/-! DEFINITION. Fences (R163, R164, R191), band barriers and the launch barrier (R192 to R195, R55), `waitc` (R196), remote
verbs as they issue (R197 to R199), `jtab` (R228, R229), and the waybill instructions (R287). -/

namespace Sys2Proof.Machine
open Sys2Proof

/-! ### Fences -/

/-- FENCE_REL (R163): a mark among the released entries. -/
def execFenceRel (scope : BitVec 6) (mask : BitVec 8) (s : State) : Host.Outcome State Fault Refusal :=
  s.onHead (fun _ bu => s.withhold [] bu.pc [] (.fence scope.toNat mask))

/-- FENCE_ACQ (R164): later accesses wait for the loads before it, until these are performed or count as performed at its scope. -/
def execFenceAcq (scope : BitVec 6) (s : State) : Host.Outcome State Fault Refusal :=
  s.onHead (fun _ _ =>
    ({ s with nseq := s.nseq + 1 }).modHead (fun t =>
      { t with acqMarks := if scope.toNat = 0 then t.acqMarks else t.acqMarks ++ [(s.nseq, scope.toNat)] }))

/-- FENCE_FULL (R164): the string waits until its earlier accesses are performed at the scope. -/
def execFenceFull (scope : BitVec 6) (s : State) : Host.Outcome State Fault Refusal :=
  s.onHead (fun _ bu => s.drained bu scope.toNat id)

/-! ### Band barriers -/

/-- The barrier slot `k` of a band. -/
def State.bar (s : State) (b k : Nat) : Bar := ((s.band? b).bind (fun (x : Band) => x.bars[k]?)).getD { exp := 1 }
/-- Change the barrier slot `k`. -/
def State.modBar (s : State) (b k : Nat) (f : Bar → Bar) : State := s.modBand b (fun x => { x with bars := x.bars.modify k f })

/-- A string that waits on barrier slot `k` is released, and `idle` wakes (R193, R232). -/
def wakeBar (k : Nat) (t : Str) : Str :=
  let t := { t with idleA := false, idleB := false }
  match t.wait with
  | .bar k' _ _ => if k' = k then { t with wait := .none } else t
  | _ => t

/-- Complete(k) (R193). -/
def barComplete (s : State) (b k : Nat) : State :=
  let s := s.modBar b k (fun x => { x with gen := x.gen + 1#16, arr := 0#32, cnt := 0 })
  { s with strs := s.strs.map (fun (t : Str) => if t.band == b then wakeBar k t else t) }

/-- Complete(k) when the count has reached what is expected. -/
def barCheck (s : State) (b k : Nat) : State := if (s.bar b k).exp ≤ (s.bar b k).cnt then barComplete s b k else s

/-- Arrive(k) for string `n` of band `b` (R193). -/
def barArrive (s : State) (b n k : Nat) : State :=
  let g := (s.bar b k).gen
  let s := s.modBar b k (fun x => { x with arr := x.arr ||| (1#32 <<< n), cnt := x.cnt + 1 })
  let s := s.modStr b n (fun t => { t with tok := smPut none t.tok k (some g) })
  barCheck s b k

/-- An early second arrival waits for the next generation (R193); the arrival is a release at band scope, so it follows the
string's earlier accesses (R166). -/
def State.arriveAt (s : State) (bu : Bun) (k : Nat) (go : State → State) : State :=
  let b := bu.lat.band
  s.drained bu 1 (fun s =>
    if (s.bar b k).arr.getLsbD bu.lat.num then s.holdRelease bu (.bar k (s.bar b k).gen true)
    else go (barArrive s b bu.lat.num k))

/-- BAR_ARR (R193). -/
def execBarArr (k : BitVec 4) (s : State) : Host.Outcome State Fault Refusal := s.onHead (fun _ bu => s.arriveAt bu k.toNat id)

/-- The generation at issue of the `bar.wait` bundle of a slot of the string, once its wait has begun (R193). -/
def waitGen (t : Str) (slotB : Bool) (pc : Word64) (k : Nat) : Option (BitVec 16) :=
  (t.barG.find? (fun x => x.1 == slotB && x.2.1 == pc && x.2.2.1 == k)).map (fun x => x.2.2.2)

/-- The string without the waits that have begun at a bundle of a slot. -/
def dropWaitGen (slotB : Bool) (pc : Word64) (t : Str) : Str := { t with barG := t.barG.filter (fun x => !(x.1 == slotB && x.2.1 == pc)) }

/-- BAR_WAIT (R193): until GEN[k] differs from the token, or, without one, from what it was when the bundle issued first. -/
def execBarWait (k : BitVec 4) (s : State) : Host.Outcome State Fault Refusal :=
  s.onHead (fun _ bu =>
    let n := bu.lat.num
    let gen := (s.bar bu.lat.band k.toNat).gen
    let g := (smGet none bu.lat.tok k.toNat).getD ((waitGen bu.lat bu.slotB bu.pc k.toNat).getD gen)
    if g != gen then s.modHead (fun t => { dropWaitGen bu.slotB bu.pc t with tok := smPut none t.tok k.toNat none })
    else (s.holdRelease bu (.bar k.toNat gen false)).modStr bu.lat.band n (fun t =>
      { dropWaitGen bu.slotB bu.pc t with barG := (bu.slotB, bu.pc, k.toNat, g) :: (dropWaitGen bu.slotB bu.pc t).barG }))

/-- BAR_SYNC (R193, R194): the arrival, then the wait, which the bundle leaves pending unless the slot has completed; the token
goes at the wait's end. -/
def execBarSync (k : BitVec 4) (s : State) : Host.Outcome State Fault Refusal :=
  s.onHead (fun _ bu =>
    let g := (s.bar bu.lat.band k.toNat).gen
    s.arriveAt bu k.toNat (fun s =>
      if (s.bar bu.lat.band k.toNat).gen = g then s.modBun (fun x => { x with pend := some (some (k.toNat, g), 0) })
      else s.modHead (fun t => { t with tok := smPut none t.tok k.toNat none })))

/-- BAR_CNT (R193). -/
def execBarCnt (k : BitVec 4) (b : SReg) (s : State) : Host.Outcome State Fault Refusal :=
  s.onHead (fun _ bu =>
    let n := ((s.band? bu.lat.band).map (fun (x : Band) => x.nstr)).getD 1
    let x := (readS bu.lat b.toNat).toNat
    barCheck (s.modBar bu.lat.band k.toNat (fun y => { y with exp := if x < 1 then 1 else if n < x then n else x })) bu.lat.band k.toNat)

/-! ### The launch barrier -/

/-- A band that has ended. -/
def Band.over (b : Band) : Bool := b.place == .ended
/-- The wait half of a barrier bundle is over. -/
def pendDone (s : State) (t : Str) (p : Pend) : Bool :=
  match p.bar with
  | some (k, g) => (s.bar t.band k).gen != g
  | none => decide (p.gbar ≤ (((s.band? t.band).bind (fun (b : Band) => s.launch? b.launch)).map (fun (l : Launch) => l.gbarCnt)).getD 0)

/-- What a full counter holds back (R49). -/
def Wait.isFull : Wait → Bool
  | .full _ => true
  | _ => false

/-- The bundle of a slot waits on a path counter: in `idle` (R232), or for a full counter to fall (R49), which counts as such a wait for R51
and R213 (log 105). -/
def Str.stuck (t : Str) (b : Bool) : Bool := (if b then t.idleB else t.idleA) || (if b then t.holdB else t.holdA).isFull

/-- A live string that waits on a barrier, a ticket or a path counter (R51). -/
def longWait (s : State) (t : Str) : Bool :=
  (match pendHere t with | some p => !pendDone s t p | none => false) ||
    (match t.wait with
     | .bar k g _ => (s.bar t.band k).gen == g
     | .path p thr => decide (thr < pathCount t p)
     | .ticket _ => true
     | _ => false) ||
    (t.stuck false || t.slotA.isNone || suspended t false) && (t.stuck true || t.slotB.isNone || suspended t true) &&
      (t.stuck false || t.stuck true)

/-- Saved bands of which a wait is satisfied are queued again (R51). -/
def wakeSaved (s : State) : State :=
  let hit := fun (b : Band) => b.place == .saved false &&
    s.strs.any (fun (t : Str) => t.band == b.id && !t.ended && !longWait s t)
  ({ s with bands := s.bands.map (fun (b : Band) => if hit b then { b with place := .saved true } else b) }).post
    ((s.bands.filter hit).map (fun (b : Band) => Instr.bandDispatch b.die))

/-- The core clock steps of a lane or array die at a launch barrier (R29, R55): `ranked` are its cores, first arrival first. -/
def stepClocks (s : State) (die : Nat) (ranked : List Nat) : State :=
  let n := ranked.length
  let m := (n + 7) / 8
  let lose := ranked.take m
  let gain := ranked.drop (n - m)
  ranked.foldl (fun s c =>
    if lose.contains c && gain.contains c then s
    else if lose.contains c then s.modCore die c (fun k => { k with mhz := if k.mhz ≤ 900 then k.mhz else k.mhz - 100 })
    else if gain.contains c then
      ({ s with nfree := s.nfree + 1 }).modCore die c (fun k =>
        { k with mhz := if 1500 ≤ k.mhz ∨ Config.powerAllows s.nfree = false then k.mhz else k.mhz + 100 })
    else s) s

/-- GBAR_COMPLETE (R195): waiting strings go on, the recording takes a GBAR record in every band that has not ended, and
normal mode takes the clock steps of R55: each die's cores rank by the last arrival of a band on them. -/
def gbarComplete (s : State) (l : Launch) : State :=
  let n := l.gbarCnt + 1
  let s := s.modLaunch l.id (fun x => { x with gbarCnt := n, gbarCores := [] })
  let mine := s.bands.filter (fun (b : Band) => b.launch == l.id && !b.over)
  let s := mine.foldl (fun s b => if s.records b.id then addRecord s b.id (0x22#8 :: List.replicate 63 0#8) [] else s) s
  let s := if l.steal then s
    else (List.range 8).foldl (fun s d => stepClocks s d ((l.gbarCores.filter (fun x => x.1 == d)).map (fun x => x.2))) s
  wakeSaved s

/-- The launch barrier completes when every band of the launch has arrived or ended; a band that will never be placed counts
as ended (R195). -/
def gbarCheck (s : State) (l : Nat) : State :=
  match s.launch? l with
  | none => s
  | some ln =>
    let mine := s.bands.filter (fun (b : Band) => b.launch == l)
    let live := mine.filter (fun (b : Band) => !b.over)
    let unmade := !ln.stopped && decide (ln.next < ln.x * ln.y * ln.z)
    if !unmade && live.any (fun (b : Band) => b.gbarCnt == ln.gbarCnt + 1) &&
        live.all (fun (b : Band) => b.gbarCnt == ln.gbarCnt + 1 || (ln.stopped && (b.place == .waiting)))
    then gbarComplete s ln else s

/-- A band arrives at the launch barrier: its core's last arrival is this one (R55, R195). -/
def gbarArrive (s : State) (bd : Band) : State :=
  let seat := (bd.die, bd.place.core?.getD 0)
  let s := s.modBand bd.id (fun x => { x with gbarCnt := x.gbarCnt + 1, gbarArr := [] })
  gbarCheck (s.modLaunch bd.launch (fun x => { x with gbarCores := x.gbarCores.filter (fun y => y != seat) ++ [seat] })) bd.launch

/-- A band arrives at the launch barrier when every live string of it has executed `gbar` (R195). -/
def gbarBand (s : State) (b : Nat) : State :=
  match s.band? b with
  | none => s
  | some bd =>
    let live := s.strs.filter (fun (t : Str) => t.band == b && !t.ended)
    if !bd.gbarArr.isEmpty && live.all (fun (t : Str) => bd.gbarArr.contains t.num) then gbarArrive s bd else s

/-- GBAR (R195): a release and an acquire at device scope; the bundle is left pending until the launch barrier completes. -/
def execGbar (s : State) : Host.Outcome State Fault Refusal :=
  s.onHead (fun _ bu =>
    let b := bu.lat.band
    s.drained bu 3 (fun s =>
      let count := ((s.band? b).map (fun (x : Band) => x.gbarCnt)).getD 0 + 1
      let s := gbarBand (s.modBand b (fun x => { x with gbarArr := bu.lat.num :: x.gbarArr })) b
      let reached := ((s.band? b).bind (fun (x : Band) => s.launch? x.launch)).any (fun (l : Launch) => decide (count ≤ l.gbarCnt))
      if reached then s else s.modBun (fun x => { x with pend := some (none, count) })))

/-! ### Waiting on path counters (R196) -/

/-- `waitc`: met, the bundle completes; otherwise the withheld entries are released and the string waits. -/
def State.waitc (s : State) (p : BitVec 3) (thr : Str → Nat) (tag : Str → Tag) : Host.Outcome State Fault Refusal :=
  s.onHead (fun t bu =>
    let n := thr bu.lat
    let recorded := decide (4 ≤ p.toNat ∧ p.toNat ≤ 6)
    s.tearAt t bu (recorded && bu.lat.wbOpen && tag bu.lat == .data) 2 (fun s =>
      if pathCount bu.lat p.toNat ≤ n then
        if recorded then s.modBun (fun x => { x with recWait := some (p.toNat, n, tag bu.lat) }) else s
      else s.holdRelease bu (.path p.toNat n)))

/-- WAITC_IMM (R196). -/
def execWaitcImm (p : BitVec 3) (n : BitVec 8) (s : State) : Host.Outcome State Fault Refusal :=
  s.waitc p (fun _ => n.toNat) (fun _ => .plan)

/-- WAITC_REG (R196). -/
def execWaitcReg (p : BitVec 3) (a : SReg) (s : State) : Host.Outcome State Fault Refusal :=
  s.waitc p (fun t => (readS t a.toNat).toNat) (fun t => tagS t a.toNat)

/-! ### Remote verbs (R197 to R199) -/

/-- The local side of a verb: a bench offset, or a global address in the control profile. -/
def localSpace (s : State) (t : Str) : Space := if s.profOf t = .control then .glob else .bench

/-- The local side's check over its whole range (R199). -/
def checkLocal (s : State) (t lat : Str) (a : Word64) (n : Nat) (need : Word64 → Option Bad) :
    State × Except Bad (List (Nat × Word64)) :=
  if localSpace s t = .bench then
    match checkBench lat a n with
    | .ok _ => (s, .ok [])
    | .error e => (s, .error e)
  else if 2 ^ 48 < a.toNat + n then (s, .error (.spanFault, false))
  else checkSpans s t need (spansOf a.toNat n) []

/-- What `put` and `get` share: the checks of R199, watchpoints, and the counter of path 3. -/
def State.verb (s : State) (t : Str) (bu : Bun) (pan loc cnt : Word64) (isPut : Bool)
    (go : State → Nat → List (Nat × Word64) → State) : State :=
  let n := cnt.toNat
  if pan.toNat % 8 ≠ 0 ∨ loc.toNat % 8 ≠ 0 ∨ n = 0 ∨ n % 8 ≠ 0 ∨ 65536 < n then s.raise t bu { cause := .align }
  else
    match resolvePantry s t pan n with
    | .error e => s.raiseBad t bu 0 e
    | .ok x =>
      match checkLocal s t bu.lat loc n (if isPut then needR else needW) with
      | (s, .error e) => s.raiseBad t bu 0 e
      | (s, .ok ents) =>
        let sp := localSpace s t
        match watchAny s t bu.lat [(0, sp, isPut, !isPut, loc.toNat, n), (0, .pantry, !isPut, isPut, x, n)] with
        | some (k, _) => s.raise t bu { cause := .watch, detail := k }
        | none =>
          s.tearAt t bu true 3 (fun s =>
            match fullPath bu.lat [3] with
            | some p => s.hold bu (.full p)
            | none => go s x ents)

/-- PUT (R197, R198): withheld; its source is read at its release. -/
def execPut (d a b : SReg) (s : State) : Host.Outcome State Fault Refusal :=
  s.onHead (fun t bu =>
    let src := readS bu.lat a.toNat
    let n := (readS bu.lat b.toNat).toNat
    s.verb t bu (readS bu.lat d.toNat) src (readS bu.lat b.toNat) true (fun s x ents =>
      let sp := localSpace s t
      let op : Op := { id := 0, b := t.band, n := t.num, seq := 0, path := some 3, pc := bu.pc,
                       kind := .copy sp .pantry src.toNat x n false,
                       foot := [{ sp := sp, a := src.toNat, n := n }, { sp := .pantry, a := x, n := n }], ents := ents }
      let r := s.addOp [3] op
      (r.1.withhold [r.2] bu.pc ents .put).modOp r.2 (fun o => { o with left := 1 })))

/-- GET (R197, R198): not withheld. -/
def execGet (d a b : SReg) (s : State) : Host.Outcome State Fault Refusal :=
  s.onHead (fun t bu =>
    let dst := readS bu.lat d.toNat
    let n := (readS bu.lat b.toNat).toNat
    s.verb t bu (readS bu.lat a.toNat) dst (readS bu.lat b.toNat) false (fun s x ents =>
      let sp := localSpace s t
      let feet : List Foot := [{ sp := .pantry, a := x, n := n }, { sp := sp, a := dst.toNat, n := n }]
      if case6 s bu.lat [] (feet.take 1) then s.holdRelease bu (.drain 0 bu.seq)
      else
        let op : Op := { id := 0, b := t.band, n := t.num, seq := 0, path := some 3, pc := bu.pc,
                         kind := .copy .pantry sp x dst.toNat n false, foot := feet, ents := ents }
        (s.addOp [3] op).1))

/-- SIG (R197, R198). -/
def execSig (d a : SReg) (s : State) : Host.Outcome State Fault Refusal :=
  s.onHead (fun t bu =>
    let pan := readS bu.lat d.toNat
    if pan.toNat % 8 ≠ 0 then s.raise t bu { cause := .align }
    else
      match resolvePantry s t pan 8 with
      | .error e => s.raiseBad t bu 0 e
      | .ok x =>
        match watchAny s t bu.lat [(0, .pantry, false, true, x, 8)] with
        | some (k, _) => s.raise t bu { cause := .watch, detail := k }
        | none =>
          s.tearAt t bu true 3 (fun s =>
            match fullPath bu.lat [3] with
            | some p => s.hold bu (.full p)
            | none =>
              let op : Op := { id := 0, b := t.band, n := t.num, seq := 0, path := none, pc := bu.pc, kind := .store, left := 1 }
              let r := s.addOp [3] op
              r.1.withhold [r.2] bu.pc [] (.sig x (readS bu.lat a.toNat))))

/-! ### Jump tables (R228, R229) -/

/-- Index v[a][l] of a lane as a table index, if it is in range. -/
def jtabIndex (lat : Str) (a : VReg) (cnt : Nat) (l : Nat) : Option Nat :=
  let x := readV lat a.toNat l
  if x.getLsbD 31 || decide (cnt ≤ x.toNat) then none else some x.toNat

/-- The checks of the table reads, each distinct index once, ascending (R228). -/
def jtabCheck (s : State) (t : Str) (base : Word64) : List Nat → List (Nat × Word64) → State × Except Bad (List (Nat × Word64))
  | [], es => (s, .ok es)
  | i :: is, es =>
    let a := base + BitVec.ofNat 64 (4 * i)
    if a.toNat % 4 ≠ 0 then (s, .error (.align, false))
    else if 2 ^ 48 ≤ a.toNat then (s, .error (.spanFault, false))
    else
      match checkSpans s t needR [a.toNat / 2 ^ 21] [] with
      | (s, .error e) => (s, .error e)
      | (s, .ok es') => jtabCheck s t base is (es ++ es'.filter (fun e => !es.any (fun f => f.1 == e.1)))

/-- The groups of a jump: distinct targets ascending, each with its lanes (R228). -/
def jtabGroups (lat : Str) (a : VReg) (vals : List (Nat × Nat)) (mask : Word32) : List (Nat × Word32) :=
  let target := fun l => ((vals.find? (fun x => x.1 == (readV lat a.toNat l).toNat)).map (fun x => x.2)).getD 0
  let ls := lanesOf mask
  (sortNats (ls.map target)).map (fun t => (t, maskOf (ls.filter (fun l => target l == t))))

/-- Place the groups (R40): the lowest in the issuing slot, the next in the other slot if it is empty, the rest pushed in
descending order. -/
def placeGroups (slotB : Bool) (ps : List Path) (t : Str) : Str :=
  match ps with
  | [] => t
  | p :: rest =>
    let t := setSlot t slotB (some p)
    match rest with
    | [] => t
    | q :: more =>
      if splitPushes t slotB then (rest.reverse).foldl (fun t (x : Path) => pushRec t (.path x.pc x.mask)) t
      else (more.reverse).foldl (fun t (x : Path) => pushRec t (.path x.pc x.mask)) (setSlot t (!slotB) (some q))

/-- JTAB (R228, R229): first the table entries are read, and the string issues nothing more until they have returned; then
the bundle issues with them, and the path splits by target. However many entries are read, the `jtab` counts once on path 2 (log 92). -/
def execJtab (a : VReg) (b c : SReg) (s : State) : Host.Outcome State Fault Refusal :=
  s.onHead (fun t bu =>
    let ls := lanesOf bu.mask
    let cnt := (readS bu.lat c.toNat).toNat
    let base := readS bu.lat b.toNat
    match ls.find? (fun l => (jtabIndex bu.lat a cnt l).isNone) with
    | some l => s.raise t bu { cause := .tableRange, lane := l }
    | none =>
      s.tearAt t bu (bu.lat.wbOpen && ls.any (fun l => tagV bu.lat a.toNat l != .plan)) 1 (fun s =>
        match bu.lat.jt with
        | some (_, vals) =>
          let ps := (jtabGroups bu.lat a vals bu.mask).map (fun x => s.pathAt t (BitVec.ofNat 64 x.1) x.2)
          let pushes := if splitPushes t bu.slotB then ps.length - 1 else ps.length - 2
          if 256 < t.stack.length + pushes then s.raise t bu { cause := .divergeOverflow }
          else s.moveBy (fun t => { placeGroups bu.slotB ps t with jt := none })
        | none =>
          let idx := sortNats (ls.filterMap (jtabIndex bu.lat a cnt))
          match jtabCheck s t base idx [] with
          | (s, .error e) => s.raiseBad t bu 0 e
          | (s, .ok ents) =>
            let feet : List Foot := idx.map (fun i => { sp := .glob, a := (base + BitVec.ofNat 64 (4 * i)).toNat, n := 4 })
            match fullPath bu.lat [2] with
            | some p => s.hold bu (.full p)
            | none =>
              if case6 s bu.lat ents feet then s.holdRelease bu (.drain 0 bu.seq)
              else
                let op : Op := { id := 0, b := t.band, n := t.num, seq := 0, path := some 2, pc := bu.pc,
                                 kind := .jtab bu.slotB base.toNat idx, foot := feet, ents := ents }
                let r := (s.hold bu (.reply s.nextId)).addOp [2] op
                r.1))

/-! ### Waybill instructions (R287) -/

/-- WBREC (R287). -/
def execWbrec (s : State) : Host.Outcome State Fault Refusal := s.onHead (fun _ _ => s.modHead (fun t => { t with wbOpen := true }))

/-- WBEND (R287). -/
def execWbend (s : State) : Host.Outcome State Fault Refusal := s.onHead (fun _ _ => s.modHead (fun t => { t with wbOpen := false }))

/-- The seal that a recording takes (R292, point 4); `none`, which tears with cause 2, when the address is tagged DATA, or ARG of a part,
which R292 and R293 do not name (log 99). -/
def sealOf (a mask : Word64) : Tag → Option Seal
  | .plan => some { addr := a, exp := 0#64, mask := mask, arg := 0xFF }
  | .arg k c .full => some { addr := c, exp := 0#64, mask := mask, arg := k }
  | _ => none

/-- WBSEAL (R287): a plain 8-byte global load that counts on path 6. -/
def execWbseal (d a b : SReg) (s : State) : Host.Outcome State Fault Refusal :=
  s.onHead (fun t bu =>
    let x := readS bu.lat a.toNat
    let mask := readS bu.lat b.toNat
    let tag := tagS bu.lat a.toNat
    match checkGlobal s t 0 x 8 needR with
    | (s, .error e) => s.raiseBad t bu 0 e
    | (s, .ok ent) =>
      match watchAny s t bu.lat [(0, .glob, true, false, x.toNat, 8)] with
      | some (k, _) => s.raise t bu { cause := .watch, detail := k }
      | none =>
        s.tearAt t bu (sealOf x mask tag).isNone 2 (fun s =>
          match fullPath bu.lat [6] with
          | some p => s.hold bu (.full p)
          | none =>
            let feet : List Foot := [{ sp := .glob, a := x.toNat, n := 8 }]
            if case6 s bu.lat [ent] feet then s.holdRelease bu (.drain 0 bu.seq)
            else
              let op : Op := { id := 0, b := t.band, n := t.num, seq := 0, path := some 6, pc := bu.pc,
                               kind := .seal d.toNat x.toNat mask tag, foot := feet, ents := [ent] }
              let r := s.addOp [6] op
              let s := r.1.modHead (fun t =>
                let t := logDest t (.s d.toNat)
                { t with owed := t.owed ++ [{ o := r.2, left := 0, dst := .s d.toNat, tags := [.plan] }] })
              match sealOf x mask tag with
              | some sl => if s.records t.band then s.modBun (fun y => { y with recSeal := some (sl, r.2) }) else s
              | none => s))

/-- WBDROP (R287): a withheld descriptor on path 6. -/
def execWbdrop (a : SReg) (s : State) : Host.Outcome State Fault Refusal :=
  s.onHead (fun t bu =>
    match fullPath bu.lat [6] with
    | some p => s.hold bu (.full p)
    | none =>
      let h := ((readS bu.lat a.toNat).extractLsb' 0 32).toNat
      let op : Op := { id := 0, b := t.band, n := t.num, seq := 0, path := none, pc := bu.pc, kind := .store, left := 1 }
      let r := s.addOp [6] op
      r.1.withhold [r.2] bu.pc [] (.drop h))

/-- LDARG (R287): a word of the launch's argument copy (R285). -/
def execLdarg (d : SReg) (k : BitVec 8) (s : State) : Host.Outcome State Fault Refusal :=
  s.onHead (fun _ bu =>
    let w := (((s.band? bu.lat.band).bind (fun (b : Band) => s.launch? b.launch)).map (fun (l : Launch) => l.args.getD k.toNat 0#64)).getD 0#64
    s.writeScalar bu d.toNat w (.arg k.toNat 0#64 .full))

end Sys2Proof.Machine
end

