-- ==== Sys2Proof/Machine/Deliver.lean ====
section
/-! DEFINITION. How a string's accesses are performed: when one may be sent (R155, R158, R163, R164, R170), what sending does
in each space (R183 to R185, R198), the results it brings (R47, R48, R179, R187) and its return (R49). -/

namespace Sys2Proof.Machine
open Sys2Proof

/-! ### Results owed (R47) -/

/-- Write an owed result to its destination. A destination whose undo entry was released takes a new one. -/
def commitOwed (t : Str) (w : Owed) : Str :=
  match w.val with
  | none => t
  | some vs =>
    let t := if w.logged then t else logDest t w.dst
    match w.dst with
    | .s r => putS t r (vs.getD 0 0#64) (w.tags.getD 0 .plan)
    | .v r k m =>
      let ls := lanesOf m
      let idx := fun (i l : Nat) => i * ls.length + (ls.filter (fun j => decide (j < l))).length
      (List.range k).foldl (fun t i =>
        let t := putV t (r + i) ls (fun l => (vs.getD (idx i l) 0#64).extractLsb' 0 32)
        if w.tags.isEmpty then t else putVTag t (r + i) ls (fun l => w.tags.getD (idx i l) .plan)) t

/-- Results that have arrived and whose lookahead is used up are written, oldest first. -/
def closeOwed (t : Str) : Str :=
  let due := fun (w : Owed) => w.left == 0 && w.val.isSome
  let u := (t.owed.filter due).foldl commitOwed t
  { u with owed := t.owed.filter (fun w => !due w) }

/-- A result arrives for operation `o`: it stands until its window closes, also in the restart point. -/
def arriveOwed (o : Nat) (vs : List Word64) (t : Str) : Str :=
  let put := fun (w : Owed) => if w.o = o then { w with val := some vs } else w
  closeOwed { t with owed := t.owed.map put, rp := { t.rp with owed := t.rp.owed.map put } }

/-- The operation owes the string a result that has not arrived. -/
def owes (t : Str) (o : Nat) : Bool :=
  t.owed.any (fun w => w.o == o && w.val.isNone) || t.rp.owed.any (fun w => w.o == o && w.val.isNone)

/-- `n` gathered bytes from key `k`. -/
def Op.bytes (o : Op) (k n : Nat) : List Byte := (List.range n).map (fun i => smGet 0#8 o.got (k + i))

/-- One register of a loaded value (R179): width code, raw bytes, register of the group. -/
def loadWord (w : Nat) (bs : List Byte) (i : Nat) : Word32 :=
  match w with
  | 1 => (BitVec.ofNat 8 (leNat bs)).signExtend 32
  | 3 => (BitVec.ofNat 16 (leNat bs)).signExtend 32
  | _ => BitVec.ofNat 32 (leNat ((bs.drop (4 * i)).take 4))

/-- The values of an operation's result: by register, then by lane. -/
def Op.result (o : Op) : List Word64 :=
  match o.kind with
  | .calc vs => vs
  | .load _ w _ lanes =>
    (List.range (widthRegs (BitVec.ofNat 3 w))).flatMap (fun i => lanes.map (fun x =>
      (loadWord w (o.bytes (16 * x.1) (widthBytes (BitVec.ofNat 3 w))) i).zeroExtend 64))
  | .atom _ _ w8 _ lanes =>
    (List.range (if w8 then 2 else 1)).flatMap (fun i => lanes.map (fun x =>
      BitVec.ofNat 64 (leNat (o.bytes (16 * x.lane + 4 * i) 4))))
  | .seal .. => [BitVec.ofNat 64 (leNat (o.bytes 0 8))]
  | _ => []

/-- The seal of a `wbseal` whose value has arrived (R292): masked, and a 33rd tears (R293). -/
def sealArrived (s : State) (o : Op) : State :=
  match o.kind with
  | .seal _ a mask tag =>
    if !(s.records o.b) || isTorn s o.b then s
    else
      match sealOf (BitVec.ofNat 64 a) mask tag with
      | none => s
      | some sl =>
        let s := s.modBand o.b (fun x => { x with seals := x.seals ++ [{ sl with exp := BitVec.ofNat 64 (leNat (o.bytes 0 8)) &&& mask }] })
        match s.band? o.b with
        | some bd => if 32 < sealCount s bd.launch then markTear s o.b 7 else s
        | none => s
  | _ => s

/-- An operation that owes nothing and counts nowhere is forgotten. -/
def forgetOp (s : State) (o : Nat) : State :=
  match s.op? o with
  | none => s
  | some op =>
    match s.str? op.b op.n with
    | none => s.dropOp o
    | some t => if t.outst.any (fun x => x.o == o) || (owes t o && !op.undone) then s else s.dropOp o

/-- LONG_LATENCY_RESULT (R47, R48): the result is written, or stands until its lookahead is used up; the result of an undone
instruction is discarded. -/
def execLongLatencyResult (b n o : Nat) (s : State) : Host.Outcome State Fault Refusal :=
  .next (
    match s.op? o with
    | none => s
    | some op =>
      if !op.fin then s
      else
        let s := if op.undone then s else
          sealArrived ((s.modStr b n (fun t => if owes t o then arriveOwed o op.result t else t)).modOp o (fun x => { x with done := true })) op
        forgetOp s o)

/-- OPERATION_RETURN (R49): the counter falls once every older operation of the path has returned; a `waitc` that is met
ends, and a saved band whose wait is satisfied is queued again. -/
def execOperationReturn (o : Nat) (s : State) : Host.Outcome State Fault Refusal :=
  .next (
    match s.op? o with
    | none => s
    | some op =>
      if !op.fin then s
      else wakeSaved (forgetOp (s.modStr op.b op.n (fun t => pathReturn t o)) o))

/-! ### Sending: what holds an access back -/

/-- What the order rules look at in an access that is to be sent: its issue number, the lanes of its path and its bytes, as `realFeet`
gives them; whether it is a read, whether it is a release, whether a fence's mark holds it. -/
structure Item where
  b : Nat
  n : Nat
  q : Nat
  mask : Word32
  feet : List Foot
  read : Bool
  rel : Bool
  fenced : Bool
  self : Nat
  /-- the instructions that it belongs to: their lanes are mutually unordered (R153) -/
  ops : List Nat := []
  /-- the scope of a release -/
  scope : Nat := 4

/-- Two accesses of one path: the lanes of two live paths have none in common (R44, R155). -/
def onePath (x y : Word32) : Bool := x &&& y != 0#32

/-- An earlier access, of number `q` and lanes `m`, and a later one stand on two sides of a `join` (R44). -/
def joinBetween (js : List (Nat × Word32)) (q : Nat) (m : Word32) (i : Item) : Bool :=
  js.any (fun (j : Nat × Word32) => decide (q < j.1) && decide (j.1 < i.q) && onePath m j.2 && onePath i.mask j.2)

/-- An acquire that later accesses still follow: it is not performed, and does not count as performed at its scope (R158). -/
def Op.acquiring (o : Op) : Bool := o.acq && decide (o.vis < o.ascope)

/-- A read that an acquire mark of the string keeps before an access of number `q` (R164). -/
def markBlocks (t : Str) (q : Nat) (o : Op) : Bool :=
  o.isRead && t.acqMarks.any (fun m => decide (o.seq < m.1) && decide (m.1 < q) && decide (o.vis < m.2))

/-- An earlier operation of the string that is in the way (R44, R155, R158, R164). A `put` is a store: nothing follows the reading of its
source (R152), and its own writes stand in its entry. -/
def opBlocks (s : State) (t : Str) (i : Item) (o : Op) : Bool :=
  o.b == i.b && o.n == i.n && decide (o.seq < i.q) && !o.done && !o.undone && o.isAccess && o.id != i.self &&
    (match o.kind with | .store => false | _ => true) &&
    (o.acquiring || i.rel || (onePath o.mask i.mask && !o.isPut && feetMeet (realFeet s o.b o.ents o.foot) i.feet) ||
      joinBetween t.joins o.seq o.mask i || markBlocks t i.q o)

/-- A store's bytes, which a later read of the string takes from the entry (R58). -/
def Entry.isStore (e : Entry) : Bool :=
  match e.kind with
  | .store .. => true
  | _ => false
/-- The mark of a `fence.rel`. -/
def Entry.isFence (e : Entry) : Bool :=
  match e.kind with
  | .fence .. => true
  | _ => false

/-- The entry of a `wbdrop`, which is no access. -/
def Entry.isDrop (e : Entry) : Bool :=
  match e.kind with
  | .drop _ => true
  | _ => false

/-- An earlier released entry of the string that is in the way (R44, R155, R158, R163). -/
def entryBlocks (s : State) (t : Str) (i : Item) (x : Nat × Nat × Entry) : Bool :=
  x.1 == i.b && x.2.1 == i.n && decide (x.2.2.seq < i.q) && x.2.2.id != i.self && (i.ops.isEmpty || x.2.2.ops != i.ops) &&
    (i.rel || (i.fenced && x.2.2.isFence) ||
      (onePath x.2.2.mask i.mask && !(i.read && x.2.2.isStore) && feetMeet (realFeet s x.1 x.2.2.ents (s.entryWrites x.2.2)) i.feet) ||
      (!x.2.2.isFence && !x.2.2.isDrop && joinBetween t.joins x.2.2.seq x.2.2.mask i))

/-- Nothing earlier of the string holds the access back, a release excepted. -/
def State.plainFree (s : State) (t : Str) (i : Item) : Bool :=
  !s.ops.any (opBlocks s t i) && !s.rels.any (entryBlocks s t i)

/-- The accesses that a release's own instruction made are no part of what it follows. -/
def notOf (i : Item) : Entry → Bool := fun e => i.ops.isEmpty || e.ops != i.ops

/-- Nothing earlier of the string holds the access back. What a release at a narrower scope follows may count as performed at that
scope (R158). -/
def State.free (s : State) (t : Str) (i : Item) : Bool :=
  if i.rel then
    (s.plainFree t i && !s.narrower i.b i.n i.scope) ||
      (s.plainFree t { i with rel := false } && s.claimable i.b i.n i.q i.scope (fun o => o.id != i.self) (notOf i))
  else s.plainFree t i

/-- A release is sent: what is left before it counts as performed at its scope. -/
def State.sendRelease (s : State) (t : Str) (i : Item) : State :=
  if !i.rel || s.plainFree t i then s else s.claim i.b i.n i.q i.scope (fun o => o.id != i.self) (notOf i)

/-- The newest of an entry's issue numbers: bytes merged into it are later than it. -/
def Entry.last (e : Entry) : Nat :=
  match e.kind with
  | .store _ _ _ _ _ bs => bs.foldl (fun m b => max m b.seq) e.seq
  | _ => e.seq

/-- A line's copy is on its way out to memory. -/
def writingBack (s : State) (die : Nat) (key : Nat × Nat) : Bool :=
  ((s.site? die).bind (fun (x : Site) => x.line? key.1 key.2)).any (fun (c : CLine) => c.wb)

/-- The bytes that an entry names: of a `put` those that it reads too. -/
def State.entryFeet (s : State) (e : Entry) : List Foot :=
  match e.kind with
  | .put => ((e.ops.head?.bind (fun o => s.op? o)).map (fun (o : Op) => o.foot)).getD []
  | _ => s.entryWrites e

/-- What the order rules look at in a released entry of a string. -/
def entryItem (s : State) (x : Nat × Nat × Entry) : Item :=
  let e := x.2.2
  let it : Item := { b := x.1, n := x.2.1, q := e.last, mask := e.mask, feet := realFeet s x.1 e.ents (s.entryFeet e), read := false,
                     rel := false, fenced := true, self := e.id, ops := e.ops }
  match e.kind with
  | .sig .. => { it with rel := true, scope := 3 }
  | .put => { it with self := ((e.ops.head?.bind (fun o => s.op? o)).map (fun (o : Op) => o.id)).getD 0 }
  | .store _ _ _ ord _ _ | .atom _ _ _ ord _ => { it with rel := isRel ord, scope := scopeOf ord }
  | _ => it

/-- The reads that the mark of a `fence.rel` follows. -/
def fenceOps : Op → Bool := fun o => o.isRead
/-- The entries that the mark of a `fence.rel` follows: earlier marks, and the accesses of the named colours (R163). -/
def fenceEntries (mask : BitVec 8) : Entry → Bool := fun e => e.isFence || (!e.isDrop && mask.getLsbD e.colour)

/-- Everything that a fence's mark follows is performed. -/
def fenceMet (s : State) (b n q : Nat) (mask : BitVec 8) : Bool :=
  !s.ops.any (fun (o : Op) => pendingOp b n q o && fenceOps o) && !s.rels.any (fun x => pendingRel b n q x && fenceEntries mask x.2.2)

/-- The dies other than its own to which an operation's verbs go (R185, R197); a `put`'s goes once its source has been read. -/
def Op.verbDies (own : Nat) (o : Op) : List Nat :=
  match o.kind with
  | .load .pantry _ _ lanes => (lanes.map (fun x => x.2 / 2 ^ 27)).filter (fun d => d != own)
  | .atom .pantry _ _ _ lanes => (lanes.map (fun (x : LaneAtom) => x.a / 2 ^ 27)).filter (fun d => d != own)
  | .copy .pantry _ src _ _ false => [src / 2 ^ 27]
  | .copy _ .pantry _ dst _ false => [dst / 2 ^ 27]
  | _ => []

/-- The die to which a released entry's verb goes (R185, R197). -/
def Entry.verbDies (own : Nat) (e : Entry) : List Nat :=
  (match e.kind with
   | .store .pantry line _ _ _ _ => [line * 128 / 2 ^ 27]
   | .sig a _ => [a / 2 ^ 27]
   | .atom .pantry _ _ _ lanes => (lanes.take 1).map (fun (x : LaneAtom) => x.a / 2 ^ 27)
   | _ => []).filter (fun d => d != own)

/-- The verbs of one string to one die are delivered in issue order (R171): an earlier one that is not withheld has not been sent. Its requests
then keep their order on their channel (R319). -/
def verbWaits (s : State) (t : Str) (i : Item) (ds : List Nat) : Bool :=
  let own := (s.seat t).1
  !ds.isEmpty &&
  (s.ops.any (fun (o : Op) => o.b == i.b && o.n == i.n && decide (o.seq < i.q) && o.id != i.self && !o.undone &&
      (if o.isPut then (s.rels.any (fun x => x.2.2.ops.contains o.id)) else !o.sent) && (o.verbDies own).any ds.contains) ||
    s.rels.any (fun x => x.1 == i.b && x.2.1 == i.n && decide (x.2.2.seq < i.q) && x.2.2.id != i.self && (i.ops.isEmpty || x.2.2.ops != i.ops) &&
      !x.2.2.sent && (x.2.2.verbDies own).any ds.contains))

/-- A released entry may be sent. -/
def entryReady (s : State) (x : Nat × Nat × Entry) : Bool :=
  let e := x.2.2
  !e.sent &&
  match s.str? x.1 x.2.1 with
  | none => true
  | some t =>
    let it := entryItem s x
    !verbWaits s t it (e.verbDies (s.seat t).1) && !s.claimed x.1 x.2.1 e.ents (s.entryFeet e) &&
    match e.kind with
    | .fence scope mask =>
      (fenceMet s x.1 x.2.1 e.seq mask && !s.narrower x.1 x.2.1 scope) ||
        s.claimable x.1 x.2.1 e.seq scope fenceOps (fenceEntries mask)
    | .put =>
      s.free t it && !s.rels.any (fun y => pendingRel x.1 x.2.1 e.seq y &&
        feetMeet (realFeet s y.1 y.2.2.ents (s.entryWrites y.2.2)) it.feet)
    | .store sp line _ _ _ _ =>
      s.free t it && !(sp == .glob && writingBack s (s.seat t).1 (lineKey s (entFor e.ents (line * 128)) (line * 128)))
    | _ => s.free t it

/-- What the order rules look at in an operation that is not withheld. -/
def opItem (s : State) (o : Op) : Item :=
  let it : Item := { b := o.b, n := o.n, q := o.seq, mask := o.mask, feet := realFeet s o.b o.ents o.foot, read := true, rel := o.rel,
                     fenced := false, self := o.id, scope := o.scope }
  match o.kind with
  | .atom .. => { it with read := false, fenced := true }
  | .copy .. => { it with fenced := true }
  | _ => it

/-- The bytes that stores of an entry wrote before issue number `q`. -/
def State.writesBefore (s : State) (q : Nat) (e : Entry) : List Foot :=
  match e.kind with
  | .store sp _ _ _ _ bs => (bs.filter (fun (b : WByte) => decide (b.seq < q))).map (fun (b : WByte) => { sp := sp, a := b.a, n := 1 })
  | _ => if e.seq < q then s.entryWrites e else []

/-- The destination of a `get` is written after the string's earlier stores to it, and after its earlier fences, withheld ones
included (R155, R163). -/
def getBehind (s : State) (t : Str) (o : Op) : Bool :=
  let dst := realFeet s o.b o.ents (o.foot.drop 1)
  let stands := fun (e : Entry) => (e.isFence && decide (e.seq < o.seq)) ||
    (onePath e.mask o.mask && feetMeet (realFeet s o.b e.ents (s.writesBefore o.seq e)) dst)
  t.buf.any stands || s.rels.any (fun x => x.1 == o.b && x.2.1 == o.n && stands x.2.2)

/-- An operation that is not withheld may be sent. -/
def opReady (s : State) (o : Op) : Bool :=
  !o.sent && !o.undone &&
  match s.str? o.b o.n with
  | none => false
  | some t =>
    !verbWaits s t (opItem s o) (o.verbDies (s.seat t).1) && !s.claimed o.b o.n o.ents o.foot &&
    match o.kind with
    | .load .. | .seal .. | .jtab .. | .atom .. => s.free t (opItem s o)
    | .copy _ wr _ _ _ _ => wr != .pantry && s.free t (opItem s o) && !getBehind s t o
    | _ => false

/-- A read that is on its way, or may be sent, may count as performed at scope `c` (R158, R159): no agent of the instance then stores to its
bytes until it is performed. This is of use where an acquire of that scope waits for it. -/
def scopeReady (s : State) (o : Op) (c : Nat) : Bool :=
  decide (c < 4) && decide (o.vis < c) && o.isRead && !o.done && !o.undone && !o.fin &&
    ((o.acq && o.ascope == c) || (s.str? o.b o.n).any (fun (t : Str) => t.acqMarks.any (fun m => decide (o.seq < m.1) && m.2 == c))) &&
    (o.sent || opReady s o) && !s.claimed o.b o.n o.ents o.foot && !s.narrower o.b o.n c

/-! ### Requests -/

/-- A module declared dead (R348). -/
def peerDead (s : State) (m : Nat) : Bool := s.links.any (fun (l : Link) => l.m == m && l.dead)

/-- The event that takes a global request to its home: the directory for a cached access, the home's memory otherwise; a dead
module answers NR_PEER_DEAD, and a live one answers from outside (R304, R348). A cached access to another module's line first meets
this module's serai, which tracks its own dies (R349). -/
def homeEvent (s : State) (home : Nat) (local' : Nat → Instr) (r : Nat) : List Instr :=
  if home = s.dev ∨ home = 16 then [local' r]
  else if peerDead s home then [.negativeReply r 5#8]
  else match local' r with
    | .gets _ | .getm _ | .upg _ => [local' r]
    | _ => []

/-- Read pieces by the line of their addresses. -/
def piecesByLine (ps : List (Nat × Nat)) : List (Nat × List (Nat × Nat)) :=
  (groupOn (fun (p : Nat × Nat) => (0, 0, p.2 / 128)) (fun p ps => ps ++ [p]) ps []).map (fun x => (x.1.2.2, x.2))

/-- Read pieces by home, home context and line (R304); a group is named by the line of its first piece. -/
def piecesByHome (ents : List (Nat × Word64)) (sp : Space) (ps : List (Nat × Nat)) : List (Nat × List (Nat × Nat)) :=
  (groupOn (fun (p : Nat × Nat) => homeLine ents sp p.2) (fun p ps => ps ++ [p]) ps []).map
    (fun x => (((x.2.head?).map (fun (p : Nat × Nat) => p.2 / 128)).getD 0, x.2))

/-- The byte that an address of an access names: in the global space by its home, home context and home address. -/
def realByte (ents : List (Nat × Word64)) (sp : Space) (a : Nat) : Nat × Nat × Nat :=
  if sp = .glob then homeOf (entFor ents a) a else (0, 0, a)

/-- The string's own withheld or released byte at an address, the newest before issue number `q` (R58). -/
def ownByte (s : State) (t : Str) (q : Nat) (sp : Space) (ents : List (Nat × Word64)) (a : Nat) : Option Byte :=
  let key := realByte ents sp a
  let es := (s.rels.filter (fun x => x.1 == t.band && x.2.1 == t.num)).map (fun x => x.2.2) ++ t.buf
  es.foldl (fun r e =>
    match e.kind with
    | .store sp' _ _ _ _ bs =>
      if sp' = sp then
        match (bs.filter (fun (b : WByte) => realByte e.ents sp b.a == key && decide (b.seq < q))).getLast? with
        | some b => some b.v
        | none => r
      else r
    | _ => r) none

/-- The bytes that an operation reads: key in its gathered bytes, address. -/
def Op.pieces (o : Op) : List (Nat × Nat) :=
  match o.kind with
  | .load _ w _ lanes => lanes.flatMap (fun x => (List.range (widthBytes (BitVec.ofNat 3 w))).map (fun i => (16 * x.1 + i, x.2 + i)))
  | .seal _ a _ _ => (List.range 8).map (fun i => (i, a + i))
  | .jtab _ base idx => idx.flatMap (fun j => (List.range 4).map (fun i => (4 * j + i, (base + 4 * j + i) % 2 ^ 64)))
  | .copy _ _ src _ len _ => (List.range len).map (fun i => (i, src + i))
  | _ => []

/-- The space that an operation reads. -/
def Op.readSpace (o : Op) : Space :=
  match o.kind with
  | .load sp .. => sp
  | .atom sp .. => sp
  | .copy rd .. => rd
  | _ => .glob

/-- Add gathered bytes. -/
def gather (bs : List (Nat × Byte)) (o : Op) : Op := { o with got := bs.foldl (fun m x => smPut 0#8 m x.1 x.2) o.got }

/-- Pinned-remote mode of a band's requests (R316). -/
def pinnedOf (s : State) (b : Nat) : Bool :=
  match s.band? b with
  | some bd => (s.launch? bd.launch).any (fun (l : Launch) => l.pinned) || (s.ctx? bd.ctx).any (fun (c : Ctx) => c.pinned)
  | none => false

/-- A request of a string, not yet filled in. -/
def State.strReq (s : State) (o : Op) (k : ReqKind) : Req :=
  { id := 0, who := .str o.b o.n, kind := k, op := some o.id, die := ((s.band? o.b).map (fun (x : Band) => x.die)).getD 15, core := o.core,
    pinned := pinnedOf s o.b }

/-- The profile of a band. -/
def State.bandProf (s : State) (b : Nat) : Profile := ((s.band? b).map (fun (x : Band) => x.prof)).getD .executive

/-- Change a die's copy of a line. -/
def State.modLine (s : State) (die ctx line : Nat) (f : CLine → CLine) : State :=
  s.modSite die (fun st => { st with lines := st.lines.map (fun (c : CLine) => if c.ctx == ctx && c.line == line then f c else c) })
/-- A die loses its copy of a line. -/
def State.dropLine (s : State) (die ctx line : Nat) : State :=
  s.modSite die (fun st => { st with lines := st.lines.filter (fun (c : CLine) => !(c.ctx == ctx && c.line == line)) })
/-- A die's copy of a line. -/
def State.lineAt (s : State) (die ctx line : Nat) : Option CLine := (s.site? die).bind (fun st => st.line? ctx line)

/-- The lines of a core's data cache (R15): 128 KiB on an array core, 256 KiB on the others. -/
def cacheLines (die : Nat) : Nat := if 4 ≤ die ∧ die < 8 then 1024 else 2048

/-- A core's cache has a place for one more line: a full one loses a line, which one is open; a dirty line goes to the write-back
buffer (R324, R325), and a line that another core of the die holds stays there. -/
def State.makeLine (s : State) (die core : Nat) : State :=
  match s.site? die with
  | none => s
  | some st =>
    let mine := st.lines.filter (fun (c : CLine) => c.cores.contains core)
    if mine.length < cacheLines die then s
    else
      let s := { s with nchoice := s.nchoice + 1 }
      match mine[Config.pick s.nchoice mine.length % mine.length]? with
      | none => s
      | some v =>
        let rest := v.cores.filter (fun x => x != core)
        if !rest.isEmpty then s.modLine die v.ctx v.line (fun c => { c with cores := rest })
        else if v.dirty then
          let s := s.modLine die v.ctx v.line (fun c => { c with cores := [], wb := true, keep := false })
          if v.wb then s else s.post [putEvent die v]
        else s.dropLine die v.ctx v.line

/-- A core's cache holds a line of its die too. -/
def State.shareLine (s : State) (die core ctx line : Nat) : State :=
  match s.lineAt die ctx line with
  | none => s
  | some c => if c.cores.contains core || c.wb then s else (s.makeLine die core).modLine die ctx line (fun c => { c with cores := c.cores ++ [core] })

/-- A line comes into a core's cache: a new copy of the die, or the die's copy in a new state. -/
def State.cacheLine (s : State) (die core ctx line : Nat) (st : CState) (d : LineData) : State :=
  if (s.lineAt die ctx line).isSome then
    (s.shareLine die core ctx line).modLine die ctx line (fun c =>
      { c with st := st, data := d, wb := false, keep := false, cores := if st = .M then [core] else c.cores })
  else
    (s.makeLine die core).modSite die (fun x => { x with lines := x.lines ++ [{ ctx := ctx, line := line, st := st, data := d, cores := [core] }] })

/-- Some of the pieces of an access, at least one: an 8-byte granule goes as one, and which go first is open (R153, R154, R183).
`f` gives a piece's address; of the lanes of an atomic, 8 times the lane. -/
def someOf {α : Type} (i : Nat) (f : α → Nat) (xs : List α) : List α :=
  let ys := xs.filter (fun x => Config.freeBit i (f x / 8))
  if ys.isEmpty then xs else ys
/-- The pieces that `someOf` leaves. -/
def othersOf {α : Type} (i : Nat) (f : α → Nat) (xs : List α) : List α :=
  let ys := xs.filter (fun x => Config.freeBit i (f x / 8))
  if ys.isEmpty then [] else xs.filter (fun x => !Config.freeBit i (f x / 8))

/-- The granules of one instruction that the bench's banks serve now: a bank serves in ascending lane order, oldest first (R183), and so what
is taken is open between banks alone. -/
def takenGrans (i : Nat) : List Nat → List Nat → List Nat
  | _, [] => []
  | shut, g :: gs =>
    if shut.contains (g % 64) || !Config.freeBit i g then takenGrans i ((g % 64) :: shut) gs else g :: takenGrans i shut gs

/-- The granules that the next act takes, at least one: lanes that name one granule make one request. -/
def benchGrans (i : Nat) (gs : List Nat) : List Nat :=
  let gs := gs.eraseDups
  let ys := takenGrans i [] gs
  if ys.isEmpty then gs.take 1 else ys

/-- The lanes of a bench atomic that the banks serve now: each lane is a request of its own (R183). -/
def takenLanes (i : Nat) : List Nat → List LaneAtom → List LaneAtom
  | _, [] => []
  | shut, x :: xs =>
    let k := x.a / 8 % 64
    if shut.contains k || !Config.freeBit i x.lane then takenLanes i (k :: shut) xs else x :: takenLanes i shut xs

/-- The lanes that the next act takes, at least one. -/
def benchLanes (i : Nat) (ls : List LaneAtom) : List LaneAtom :=
  let ys := takenLanes i [] ls
  if ys.isEmpty then ls.take 1 else ys

/-- Some of the lanes of an atomic, and those that are left: on the bench by the order of its banks (R183), elsewhere freely (R153). -/
def someLanes (i : Nat) (sp : Space) (ls : List LaneAtom) : List LaneAtom × List LaneAtom :=
  let key := fun (z : LaneAtom) => 8 * z.lane
  if sp = .bench then
    let now := benchLanes i ls
    (now, ls.filter (fun z => !now.any (fun (y : LaneAtom) => y.lane == z.lane)))
  else (someOf i key ls, othersOf i key ls)

/-- A global access of the operation goes through its core's cache, under this key. -/
def cachedOp (s : State) (o : Op) (e : Word64) : Bool := !entUc e && entHome e != 16 && s.bandProf o.b != .executive

/-- Pieces of a load in one global line, by a request (R184, R365). -/
def requestLine (s : State) (o : Op) (line : Nat) (ps : List (Nat × Nat)) : State :=
  let e := entFor o.ents (line * 128)
  let h := homeOf e (line * 128)
  let cached := cachedOp s o e
  let r := { s.strReq o (.read ps) with home := h.1, ctx := h.2.1, line := h.2.2 / 128, cached := cached, ty := 0 }
  (s.modOp o.id (fun x => { x with left := x.left + 1 })).addReq r
    (homeEvent s h.1 (fun i => if cached then Instr.gets i else Instr.homeRequest i))

/-- The die's copy of the line in which a piece of an operation lies. -/
def pieceLine (s : State) (o : Op) (va : Nat) : Option CLine :=
  let e := entFor o.ents va
  let k := lineKey s e va
  if cachedOp s o e then s.lineAt ((s.band? o.b).map (fun (x : Band) => x.die) |>.getD 15) k.1 k.2 else none

/-- Pieces of a load in one pantry line of another die, by a verb (R185). -/
def requestPantry (s : State) (o : Op) (line : Nat) (ps : List (Nat × Nat)) : State :=
  (s.modOp o.id (fun x => { x with left := x.left + 1 })).addReq
    { s.strReq o (.read ps) with pdie := some (line * 128 / 2 ^ 27), line := line } (fun i => [Instr.pantryVerb i])

/-- A piece that the core's own units read: the bench, the own die's pantry, a line of the die's caches (R183 to R185). -/
def pieceHere (s : State) (o : Op) (a : Nat) : Bool :=
  match o.readSpace with
  | .bench => true
  | .pantry => a / 2 ^ 27 == ((s.band? o.b).map (fun (x : Band) => x.die)).getD 15 && (s.site? (a / 2 ^ 27)).isSome
  | .glob => (pieceLine s o a).isSome

/-- The byte that such a piece reads. -/
def pieceByte (s : State) (o : Op) (a : Nat) : Byte :=
  match o.readSpace with
  | .bench => ((s.band? o.b).map (fun (x : Band) => memGet x.bench a)).getD 0#8
  | .pantry => ((s.site? (a / 2 ^ 27)).map (fun (x : Site) => memGet x.pantry (a % 2 ^ 27))).getD 0#8
  | .glob => ((pieceLine s o a).map (fun (c : CLine) => c.data.getD (a % 128) 0#8)).getD 0#8

/-- Pieces that lie elsewhere are asked for, one request for each line. -/
def requestPieces (s : State) (o : Op) (ps : List (Nat × Nat)) : State :=
  match o.readSpace with
  | .bench => s
  | .pantry => (piecesByLine ps).foldl (fun s x => requestPantry s o x.1 x.2) s
  | .glob => (piecesByHome o.ents .glob ps).foldl (fun s x => requestLine s o x.1 x.2) s

/-- The core's caches hold the lines that some pieces read. -/
def sharePieces (s : State) (o : Op) (ps : List (Nat × Nat)) : State :=
  if o.readSpace = .glob then
    (piecesByHome o.ents .glob ps).foldl (fun s x =>
      let k := lineKey s (entFor o.ents (x.1 * 128)) (x.1 * 128)
      s.shareLine (((s.band? o.b).map (fun (y : Band) => y.die)).getD 15) o.core k.1 k.2) s
  else s

/-! ### Performing read-modify-writes -/

/-- Lanes in some order: lanes that name distinct words in their own, others in a free one (R153). -/
def someOrder : Nat → Nat → List LaneAtom → List LaneAtom
  | 0, _, ls => ls
  | fuel + 1, i, ls =>
    match ls with
    | [] => []
    | x :: xs =>
      let k := Config.pick i ls.length % ls.length
      let y := ls.getD k x
      y :: someOrder fuel (i + 1) (if k = 0 then xs else ls.eraseIdx k)

/-- Some lanes name one word. -/
def sharedWord : List LaneAtom → Bool
  | [] => false
  | x :: xs => xs.any (fun y => y.a == x.a) || sharedWord xs

/-- The lanes as they are applied, by the 32 free choices that come before number `i`. -/
def orderLanes (i : Nat) (ls : List LaneAtom) : List LaneAtom := if sharedWord ls then someOrder ls.length (i - 32) ls else ls

/-- Apply lanes to a memory, each once; the old values by lane (R187). -/
def rmwMem (op : Nat) (w8 : Bool) : List LaneAtom → Memory → Memory × List (Nat × Word64)
  | [], m => (m, [])
  | x :: xs, m =>
    let n := if w8 then 8 else 4
    let old := BitVec.ofNat 64 (leNat (memBytes m x.a n))
    let new := atomNew op w8 old x.x x.y
    let m := if op = 9 ∧ old ≠ x.x then m else memWrite m x.a (leBytes n new.toNat)
    let r := rmwMem op w8 xs m
    (r.1, (x.lane, old) :: r.2)

/-- The old values as gathered bytes. -/
def oldBytes (olds : List (Nat × Word64)) : List (Nat × Byte) :=
  olds.flatMap (fun x => ((leBytes 8 x.2.toNat).zipIdx).map (fun y => (16 * x.1 + y.2, y.1)))

/-! ### Completion of operations and entries -/

/-- A released entry is performed: its operations return when they have no other (R49). -/
def entryDone (s : State) (e : Entry) : State :=
  let s := { s with rels := s.rels.filter (fun x => x.2.2.id != e.id) }
  let s := { s with ops := s.ops.map (fun (o : Op) =>
    if e.ops.contains o.id then { o with left := o.left - 1, fin := decide (o.left ≤ 1), done := decide (o.left ≤ 1) } else o) }
  s.post ((s.ops.filter (fun (o : Op) => e.ops.contains o.id && o.fin)).map (fun (o : Op) => Instr.operationReturn o.id))

/-- The `put` entry of an operation. -/
def putEntry? (s : State) (o : Nat) : Option Entry :=
  (s.rels.find? (fun x => x.2.2.ops.contains o && x.2.2.kind == .put)).map (fun x => x.2.2)

/-- An operation is performed as a whole: its return, and its result, are due. -/
def opDone (s : State) (o : Op) : State :=
  let s := s.modOp o.id (fun x => { x with fin := true, done := !x.acq || x.undone })
  match o.kind with
  | .load .. | .atom .. | .seal .. => s.post [.longLatencyResult o.b o.n o.id, .operationReturn o.id]
  | .jtab sb _ idx =>
    let vals := idx.map (fun j => (j, leNat (o.bytes (4 * j) 4)))
    let s := if o.undone then s else
      s.modStr o.b o.n (fun t => { t with jt := some (sb, vals), wait := if t.wait == .reply o.id then .none else t.wait })
    s.post [.operationReturn o.id]
  | .copy .. =>
    let s := match putEntry? s o.id with
      | some e => { s with rels := s.rels.filter (fun x => x.2.2.id != e.id) }
      | none => s
    s.post [.operationReturn o.id]
  | _ => s.post [.operationReturn o.id]

/-- A die's copy of a line takes stores: held Modified or Exclusive, and not on its way out. -/
def CLine.writable (c : CLine) : Bool := (c.st == .M || c.st == .E) && !c.wb

/-- Stores of this core kind through this span allocate the line in the cache (R184, R365). -/
def ownsLine (e : Word64) (prof : Profile) : Bool := !entUc e && entHome e != 16 && (prof == .lane || prof == .control)

/-- The line of a store is held writable by the storing core's die. -/
def lineHeld (s : State) (die : Nat) (prof : Profile) (e : Word64) (va : Nat) : Bool :=
  let k := lineKey s e va
  ownsLine e prof && (s.lineAt die k.1 k.2).any CLine.writable

/-- Bytes merge into a line that is held writable; the copies of the die's other cores go. Of a page with replicas none is locked until the line
is written home (R168, log 107). -/
def mergeLine (s : State) (die core : Nat) (k : Nat × Nat) (bs : List WByte) : State :=
  (s.shareLine die core k.1 k.2).modLine die k.1 k.2 (fun c =>
    { c with st := .M, cores := [core], data := bs.foldl (fun d (b : WByte) => d.set (b.a % 128) b.v) c.data })

/-- The store of a core that does not own lines invalidates that core's own copy (R17, R184). -/
def dropShared (s : State) (die core : Nat) (k : Nat × Nat) : State :=
  s.modSite die (fun x => { x with lines := x.lines.filterMap (fun (c : CLine) =>
    if c.ctx == k.1 && c.line == k.2 && c.st == .S && c.cores.contains core then
      let rest := c.cores.filter (fun y => y != core)
      if rest.isEmpty then none else some { c with cores := rest }
    else some c) })

/-- Bytes to one global line that is not held writable: a request for ownership, or one that is carried to the home (R184,
R365). -/
def writeLine (s : State) (r : Req) (prof : Profile) (ents : List (Nat × Word64)) (line : Nat) (bs : List WByte) : State :=
  let e := entFor ents (line * 128)
  let h := homeOf e (line * 128)
  let k := lineKey s e (line * 128)
  let r := { r with kind := .write bs, home := h.1, ctx := h.2.1, line := h.2.2 / 128, cached := ownsLine e prof, ty := 1 }
  if ownsLine e prof then
    s.addReq r (homeEvent s h.1 (fun i => if (s.lineAt r.die k.1 k.2).isSome then Instr.upg i else Instr.getm i))
  else (dropShared s r.die r.core k).addReq r (homeEvent s h.1 (fun i => Instr.homeRequest i))

/-- Write bytes of the own die's pantry. -/
def writePantry (s : State) (die : Nat) (bs : List WByte) : State :=
  s.modSite die (fun x => { x with pantry := bs.foldl (fun m (b : WByte) => memPut m (b.a % 2 ^ 27) b.v) x.pantry })

/-- The bytes that pieces of a copy write: key, destination address. -/
def copyBytes (o : Op) (ps : List (Nat × Nat)) : List WByte := ps.map (fun p => { a := p.2, v := smGet 0#8 o.got p.1, seq := o.seq })

/-- The destination of a piece of a copy is written by the core's own units: the bench, the own die's pantry, a line held
writable. -/
def writeHere (s : State) (o : Op) (wr : Space) (a : Nat) : Bool :=
  let die := ((s.band? o.b).map (fun (x : Band) => x.die)).getD 15
  match wr with
  | .bench => true
  | .pantry => a / 2 ^ 27 == die
  | .glob => lineHeld s die .control (entFor o.ents a) a

/-- Such pieces are written. -/
def writePieces (s : State) (o : Op) (wr : Space) (ps : List (Nat × Nat)) : State :=
  let die := ((s.band? o.b).map (fun (x : Band) => x.die)).getD 15
  let bs := copyBytes o ps
  match wr with
  | .bench => s.modBand o.b (fun x => { x with bench := bs.foldl (fun m (b : WByte) => memPut m b.a b.v) x.bench })
  | .pantry => writePantry s die bs
  | .glob => (byHome o.ents .glob bs).foldl (fun s x => mergeLine s die o.core (lineKey s (entFor o.ents (x.1 * 128)) (x.1 * 128)) x.2) s

/-- Pieces whose destination lies elsewhere are sent there. -/
def sendPieces (s : State) (o : Op) (wr : Space) (ps : List (Nat × Nat)) : State :=
  let r := s.strReq o (.write [])
  let bs := copyBytes o ps
  let count := fun (s : State) => s.modOp o.id (fun y => { y with left := y.left + 1 })
  match wr with
  | .bench => s
  | .pantry => (byLine bs).foldl (fun s x =>
      (count s).addReq { r with kind := .write x.2, pdie := some (x.1 * 128 / 2 ^ 27), line := x.1, ty := 1 } (fun i => [Instr.pantryVerb i])) s
  | .glob => (byHome o.ents .glob bs).foldl (fun s x => writeLine (count s) r .control o.ents x.1 x.2) s

/-- The write side of a `get` or `put` whose bytes have been read (R198). -/
def copyWrites (s : State) (o : Op) (wr : Space) (dst len : Nat) : State :=
  let ps : List (Nat × Nat) := (List.range len).map (fun i => (i, dst + i))
  let s := s.modOp o.id (fun x => { x with left := 0, todo := ps.filter (fun p => writeHere s o wr p.2) })
  sendPieces s o wr (ps.filter (fun p => !writeHere s o wr p.2))

/-- Every piece of an operation has been answered. -/
def opPieces (s : State) (i : Nat) : State :=
  match s.op? i with
  | none => s
  | some o =>
    if o.left ≠ 0 ∨ !o.todo.isEmpty then s
    else
      match o.kind with
      | .copy rd wr src dst len false =>
        let s := s.modOp i (fun x => { x with kind := .copy rd wr src dst len true })
        if o.undone then opDone s o else copyWrites s o wr dst len
      | _ => opDone s o

/-- Change a released entry. -/
def State.setEntry (s : State) (i : Nat) (f : Entry → Entry) : State :=
  { s with rels := s.rels.map (fun y => if y.2.2.id == i then (y.1, y.2.1, f y.2.2) else y) }

/-- Apply lanes to the bench of a band in their order (R183), or to the own die's pantry in an order that is free where they share a word; the
old values by lane (R153, R187). -/
def rmwHere (s : State) (b die : Nat) (sp : Space) (op : Nat) (w8 : Bool) (ls : List LaneAtom) : State × List (Nat × Word64) :=
  let s := { s with nchoice := s.nchoice + 32 }
  let ls := if sp = .bench then ls else orderLanes s.nchoice ls
  match sp with
  | .bench =>
    match s.band? b with
    | some bd => let x := rmwMem op w8 ls bd.bench; (s.modBand b (fun y => { y with bench := x.1 }), x.2)
    | none => (s, [])
  | _ =>
    match s.site? die with
    | some st => let x := rmwMem op w8 (ls.map (fun z => { z with a := z.a % 2 ^ 27 })) st.pantry; (s.modSite die (fun y => { y with pantry := x.1 }), x.2)
    | none => (s, [])

/-- Some lanes of a returning atomic are applied by the core's own units (R153, R183). -/
def atomMore (s : State) (o : Op) (sp : Space) (op : Nat) (w8 : Bool) (lanes : List LaneAtom) : State :=
  let p := someLanes s.nfree sp (lanes.filter (fun (l : LaneAtom) => o.todo.any (fun p => p.1 == 16 * l.lane)))
  let die := ((s.band? o.b).map (fun (x : Band) => x.die)).getD 15
  let x := rmwHere { s with nfree := s.nfree + 1 } o.b die sp op w8 p.1
  opPieces (x.1.modOp o.id (fun y => { gather (oldBytes x.2) y with todo := p.2.map (fun (l : LaneAtom) => (16 * l.lane, l.a)) })) o.id

/-- The pieces of a load from the bench that its banks serve now, and those that are left (R183); elsewhere the granules are free (R154). -/
def somePieces (s : State) (o : Op) : List (Nat × Nat) × List (Nat × Nat) :=
  match o.kind with
  | .load .bench .. =>
    let gs := benchGrans s.nfree (o.todo.map (fun p => p.2 / 8))
    (o.todo.filter (fun p => gs.contains (p.2 / 8)), o.todo.filter (fun p => !gs.contains (p.2 / 8)))
  | _ => (someOf s.nfree (fun (p : Nat × Nat) => p.2) o.todo, othersOf s.nfree (fun (p : Nat × Nat) => p.2) o.todo)

/-- Some granules of an operation that lie with the core's own units are read, or, on the write side of a copy, written; what has
left them since is asked for elsewhere. -/
def copyMore (s : State) (o : Op) : State :=
  let take := (somePieces s o).1
  let rest := (somePieces s o).2
  let s := { s with nfree := s.nfree + 1 }
  let here : Nat → Bool := fun a => match o.kind with
    | .copy _ wr _ _ _ true => writeHere s o wr a
    | _ => pieceHere s o a
  let away := o.todo.filter (fun p => !here p.2)
  let now := take.filter (fun p => here p.2)
  let s := s.modOp o.id (fun x => { x with todo := rest.filter (fun p => here p.2) })
  match o.kind with
  | .copy _ wr _ _ _ true => opPieces (sendPieces (writePieces s o wr now) o wr away) o.id
  | _ =>
    let bs := now.map (fun p => (p.1, pieceByte s o p.2))
    opPieces (requestPieces ((sharePieces s o now).modOp o.id (gather bs)) o away) o.id

/-- An operation that is being performed where it stands goes on; a `get` that a rollback undid writes nothing more (R170, R198). -/
def opMore (s : State) (o : Op) : State :=
  match o.kind with
  | .atom sp op w8 _ lanes => atomMore s o sp op w8 lanes
  | .copy _ _ _ _ _ true => if o.undone then opPieces (s.modOp o.id (fun x => { x with todo := [] })) o.id else copyMore s o
  | _ => copyMore s o

/-- One piece of an operation has been answered. -/
def opPiece (s : State) (i : Nat) : State := opPieces (s.modOp i (fun x => { x with left := x.left - 1 })) i

/-- A request has been answered in full and is gone. -/
def reqDone (s : State) (r : Req) : State :=
  let s := s.dropReq r.id
  let s := match r.op with
    | some o => opPiece s o
    | none => s
  match r.entry with
  | none => s
  | some i =>
    if s.reqs.any (fun (x : Req) => x.entry == some i) then s
    else
      match s.rels.find? (fun x => x.2.2.id == i) with
      | some x => entryDone s x.2.2
      | none => s

/-! ### Sending -/

/-- A returning atomic is performed at, or carried to, its execution point (R186 to R190). -/
def sendAtom (s : State) (o : Op) (sp : Space) (op : Nat) (w8 : Bool) (lanes : List LaneAtom) : State :=
  let r := s.strReq o (.rmw op w8 [])
  let here := fun (ls : List LaneAtom) (y : Op) => { y with todo := ls.map (fun (x : LaneAtom) => (16 * x.lane, x.a)) }
  match sp with
  | .bench => s.modOp o.id (here lanes)
  | .pantry =>
    let own := fun (x : LaneAtom) => x.a / 2 ^ 27 == r.die
    (atomLines [] .pantry (lanes.filter (fun x => !own x))).foldl (fun s g =>
      (s.modOp o.id (fun y => { y with left := y.left + 1 })).addReq
        { r with kind := .rmw op w8 g.2, pdie := some (g.1 * 128 / 2 ^ 27), line := g.1, ty := 2 } (fun i => [Instr.pantryVerb i]))
      (s.modOp o.id (here (lanes.filter own)))
  | .glob =>
    (atomLines o.ents .glob lanes).foldl (fun s g =>
      let e := entFor o.ents (g.1 * 128)
      let h := homeOf e (g.1 * 128)
      (s.modOp o.id (fun y => { y with left := y.left + 1 })).addReq
        { r with kind := .rmw op w8 g.2, home := h.1, ctx := h.2.1, line := h.2.2 / 128, ty := 2 }
        (homeEvent s h.1 (fun i => Instr.homeRequest i))) s

/-- The reads of an operation are sent: own withheld bytes first, byte by byte (R58, R179). What the core's own units serve is
read granule by granule from then on. -/
def sendReads (s : State) (o : Op) : State :=
  match s.str? o.b o.n with
  | none => s
  | some t =>
    let sp := o.readSpace
    let own := o.pieces.filterMap (fun p => (ownByte s t o.seq sp o.ents p.2).map (fun v => (p.1, v)))
    let rest := o.pieces.filter (fun p => (ownByte s t o.seq sp o.ents p.2).isNone)
    let s := s.modOp o.id (fun x => { gather own x with todo := rest.filter (fun p => pieceHere s o p.2) })
    opPieces (requestPieces s o (rest.filter (fun p => !pieceHere s o p.2))) o.id

/-- Send an operation that is not withheld. -/
def sendOp (s : State) (o : Op) : State :=
  let s := match s.str? o.b o.n with
    | some t => s.sendRelease t (opItem s o)
    | none => s
  let s := s.modOp o.id (fun x => { x with sent := true, left := 0 })
  match o.kind with
  | .atom sp op w8 _ lanes => sendAtom s { o with sent := true } sp op w8 lanes
  | _ => sendReads s { o with sent := true, left := 0 }

/-- The place of a byte in its line, which is that of its home line: the bytes that several addresses of one home byte name go together, the
newest last (R153, R155). -/
def WByte.place (b : WByte) : Nat := b.a % 128

/-- A store entry with these bytes alone. -/
def Entry.keep (bs : List WByte) (e : Entry) : Entry :=
  { e with kind := match e.kind with | .store sp line c ord rem _ => .store sp line c ord rem bs | k => k }

/-- The bytes of a store entry that are left to perform; none ends it. -/
def leaveBytes (s : State) (e : Entry) (rest : List WByte) : State :=
  if rest.isEmpty then entryDone s e
  else s.setEntry e.id (Entry.keep rest)

/-- The lanes of an atomic entry that are left to apply; none ends it. -/
def leaveLanes (s : State) (e : Entry) (rest : List LaneAtom) : State :=
  if rest.isEmpty then entryDone s e
  else s.setEntry e.id (fun e => { e with kind := match e.kind with | .atom sp op w8 ord _ => .atom sp op w8 ord rest | k => k })

/-- The memory system has taken a released entry. -/
def markSent (s : State) (e : Entry) : State := s.setEntry e.id (fun e => { e with sent := true })

/-- Send a released entry (R60, R170): performed at its bank or cache, a store granule by granule (R154), or carried to where it is
performed. -/
def sendEntry (s : State) (x : Nat × Nat × Entry) : State :=
  let e := x.2.2
  let s := match s.str? x.1 x.2.1 with
    | some t => s.sendRelease t (entryItem s x)
    | none => s
  let prof := s.bandProf x.1
  let dummy : Op := { id := 0, b := x.1, n := x.2.1, seq := e.seq, path := none, pc := e.pc, kind := .store, core := e.core }
  let r : Req := { s.strReq dummy (.write []) with op := none, entry := some e.id, ty := 1 }
  let part : List WByte → List WByte := someOf s.nfree WByte.place
  let rest : List WByte → List WByte := othersOf s.nfree WByte.place
  let s0 := { s with nfree := s.nfree + 1 }
  match e.kind with
  | .fence scope mask =>
    let s := if fenceMet s x.1 x.2.1 e.seq mask then s else s.claim x.1 x.2.1 e.seq scope fenceOps (fenceEntries mask)
    { s with rels := s.rels.filter (fun y => y.2.2.id != e.id) }
  | .drop h =>
    let c := ctxOf s x.1
    entryDone { s with waybills := s.waybills.filter (fun (w : Waybill) => !(w.ctx == c && w.handle == h)) } e
  | .put =>
    match e.ops.head?.bind (fun o => s.op? o) with
    | some o => sendReads ((markSent s e).modOp o.id (fun y => { y with sent := true, left := 0 })) { o with sent := true, left := 0 }
    | none => markSent s e
  | .store .bench _ _ _ _ bs =>
    leaveBytes (s0.modBand x.1 (fun y => { y with bench := (part bs).foldl (fun m (b : WByte) => memPut m b.a b.v) y.bench })) e (rest bs)
  | .store .pantry line _ _ remote bs =>
    if remote then (markSent s e).addReq { r with kind := .write bs, pdie := some (line * 128 / 2 ^ 27), line := line } (fun i => [Instr.pantryVerb i])
    else leaveBytes (writePantry s0 r.die (part bs)) e (rest bs)
  | .store .glob line _ _ _ bs =>
    let k := entFor e.ents (line * 128)
    if lineHeld s r.die prof k (line * 128) then leaveBytes (mergeLine s0 r.die r.core (lineKey s k (line * 128)) (part bs)) e (rest bs)
    else writeLine (markSent s e) r prof e.ents line bs
  | .sig a v =>
    let la : List LaneAtom := [{ lane := 0, a := a, x := v, y := 0#64 }]
    if a / 2 ^ 27 = r.die then
      match s.site? r.die with
      | some st => entryDone (s.modSite r.die (fun y => { y with pantry := (rmwMem 0 true (la.map (fun z => { z with a := z.a % 2 ^ 27 })) st.pantry).1 })) e
      | none => markSent s e
    else (markSent s e).addReq { r with kind := .rmw 0 true la, pdie := some (a / 2 ^ 27), line := a / 128, ty := 2 } (fun i => [Instr.pantryVerb i])
  | .atom sp op w8 _ lanes =>
    let a := ((lanes.head?).map (fun (z : LaneAtom) => z.a)).getD 0
    let here := fun (_ : Unit) => leaveLanes (rmwHere s0 x.1 r.die sp op w8 (someLanes s.nfree sp lanes).1).1 e (someLanes s.nfree sp lanes).2
    match sp with
    | .bench => here ()
    | .pantry =>
      if a / 2 ^ 27 = r.die then here ()
      else (markSent s e).addReq { r with kind := .rmw op w8 lanes, pdie := some (a / 2 ^ 27), line := a / 128, ty := 2 } (fun i => [Instr.pantryVerb i])
    | .glob =>
      let h := homeOf (entFor e.ents a) a
      (markSent s e).addReq { r with kind := .rmw op w8 lanes, home := h.1, ctx := h.2.1, line := h.2.2 / 128, ty := 2 }
        (homeEvent s h.1 (fun i => Instr.homeRequest i))

/-- The bytes that a request read go to its operation, its job, or the host. -/
def State.answer (s : State) (r : Req) (bs : List (Nat × Byte)) : State :=
  match r.op with
  | some o => s.modOp o (gather bs)
  | none =>
    match r.who with
    | .host off =>
      match r.kind with
      | .write _ => s
      | k =>
        let n := match k with | .rmw _ false _ => 4 | _ => bs.length
        { s with replies := s.replies ++ [(off, .data ((bs.map (fun x => x.2)).take n))] }
    | .job j => s.modJob j (fun x => { x with got := bs.foldl (fun m y => smPut 0#8 m y.1 y.2) x.got })
    | .peer m => s.toPeer m 1 (.data r.id (if r.ret then bs.map (fun x => x.2) else []))
    | _ => s

/-- A store entry without some bytes. -/
def Entry.strike (ws : List WByte) (e : Entry) : Entry :=
  { e with kind := match e.kind with
    | .store sp line c ord rem bs => .store sp line c ord rem (bs.filter (fun (b : WByte) => !ws.any (fun (w : WByte) => w.a == b.a)))
    | k => k }

/-- A request has been performed away from its die, and its reply leaves on the reply channel of `src` (R318, R319); its string's loads no
longer take their bytes from the store (R58, R160). Another module's leaves over the fabric; the serai's and the host's are there at
once. -/
def State.sendBack (s : State) (r : Req) (src : Nat) (bs : List (Nat × Byte)) : State :=
  let s := match r.kind, r.entry with
    | .write ws, some i => s.setEntry i (Entry.strike ws)
    | _, _ => s
  if (match r.who with | .str .. | .job _ => true | _ => false) && r.die != 15 then
    (s.modReq r.id (fun x => { x with back := some bs, arr := 0, src := src, held := none })).post [.dataMsg r.id none]
  else reqDone (s.answer r bs) r

/-- The bytes that a store's request still has to write: its entry supplies no others to its string's loads (R58). -/
def State.leftOf (s : State) (r : Req) (rest : List WByte) : State :=
  let s := s.modReq r.id (fun x => { x with kind := .write rest })
  match r.entry with
  | some i => s.setEntry i (Entry.keep rest)
  | none => s

/-- PANTRY_VERB (R171, R185, R198): a request reaches the owning die, which answers NR_DIE_ABSENT if it is not ADMITTED then (R335, R337); one that
has arrived is performed by the bank units, its granules in an open order (R154), also while the die is QUIESCING. Its reply follows
the last of them. -/
def execPantryVerb (i : Nat) (s : State) : Host.Outcome State Fault Refusal :=
  .next (
    match s.req? i with
    | none => s
    | some r =>
      match r.pdie with
      | none => s
      | some d =>
        match s.site? d with
        | none => s
        | some st =>
          if st.st ≠ .admitted ∧ (r.arr = 0 ∨ st.st ≠ .quiescing) then s.post [.negativeReply i 4#8]
          else if r.arr = 0 then ({ s with nseq := s.nseq + 1 }.modReq i (fun x => { x with arr := s.nseq + 1 })).post [.pantryVerb i]
          else
            match r.kind with
            | .read ps =>
              let rest := othersOf s.nfree (fun (p : Nat × Nat) => p.2) ps
              let s1 := ({ s with nfree := s.nfree + 1 }).answer r
                ((someOf s.nfree (fun (p : Nat × Nat) => p.2) ps).map (fun (p : Nat × Nat) => (p.1, memGet st.pantry (p.2 % 2 ^ 27))))
              if rest.isEmpty then s1.sendBack r d [] else (s1.modReq i (fun x => { x with kind := .read rest })).post [.pantryVerb i]
            | .write bs =>
              let rest := othersOf s.nfree (fun (b : WByte) => b.a) bs
              let s1 := writePantry { s with nfree := s.nfree + 1 } d (someOf s.nfree (fun (b : WByte) => b.a) bs)
              if rest.isEmpty then s1.sendBack r d []
              else (s1.leftOf r rest).post [.pantryVerb i]
            | .rmw op w8 ls =>
              let key := fun (z : LaneAtom) => 8 * z.lane
              let rest := othersOf s.nfree key ls
              let x := rmwHere { s with nfree := s.nfree + 1 } 0 d .pantry op w8 (someOf s.nfree key ls)
              let s1 := x.1.answer r (oldBytes x.2)
              if rest.isEmpty then s1.sendBack r d [] else (s1.modReq i (fun y => { y with kind := .rmw op w8 rest })).post [.pantryVerb i])

end Sys2Proof.Machine
end

