-- ==== Sys2Proof/Machine/Coherence.lean ====
section
/-! DEFINITION. The home serai: what a request meets when it arrives (R304, R306, R308, R349, R357), the directory and its
transactions (R322 to R326, R365), and the writes and atomics that are performed at the home (R184, R189). -/

namespace Sys2Proof.Machine
open Sys2Proof

/-! ### The directory's tables -/

/-- The directory entry of a line; no entry is state I (R322). -/
def State.dir? (s : State) (ctx line : Nat) : Option DirEnt := s.dir.find? (fun (e : DirEnt) => e.ctx == ctx && e.line == line)
/-- The key of a line of another module (R349), under which this module tracks its own dies. -/
def remoteKey (line : Nat) : Bool := decide (2 ^ 41 ≤ line)
/-- The module of such a key. -/
def keyModule (line : Nat) : Nat := line / 2 ^ 41
/-- Replace the entry of a line, or allocate one: entries stand in the order of their allocation. The zero-line bit is that of the
granary (R122). -/
def State.setDir (s : State) (e : DirEnt) : State :=
  let e := { e with zero := !remoteKey e.line && (s.memLine e.ctx e.line).all (fun b => b == 0#8) }
  if (s.dir? e.ctx e.line).isSome then
    { s with dir := s.dir.map (fun (x : DirEnt) => if x.ctx == e.ctx && x.line == e.line then e else x) }
  else { s with dir := s.dir ++ [e] }
/-- The line is in no cache. -/
def State.dropDir (s : State) (ctx line : Nat) : State :=
  { s with dir := s.dir.filter (fun (e : DirEnt) => !(e.ctx == ctx && e.line == line)) }
/-- End the transaction on a line. -/
def State.dropTxn (s : State) (ctx line : Nat) : State :=
  { s with txns := s.txns.filter (fun (x : Txn) => !(x.ctx == ctx && x.line == line)) }
/-- Change the transaction on a line. -/
def State.modTxn (s : State) (ctx line : Nat) (f : Txn → Txn) : State :=
  { s with txns := s.txns.map (fun (x : Txn) => if x.ctx == ctx && x.line == line then f x else x) }
/-- A holder in a directory entry: dies 0 to 9, and 16 + m for module m. -/
def DirEnt.holds (e : DirEnt) (h : Nat) : Bool :=
  (e.st.owns && e.owner == h) || (if h < 16 then e.sharers.getLsbD h else e.mods.getLsbD (h - 16))
/-- The holders. -/
def DirEnt.holders (e : DirEnt) : List Nat := (List.range 32).filter e.holds
/-- Record a sharer. -/
def DirEnt.share (e : DirEnt) (h : Nat) : DirEnt :=
  if h < 16 then { e with sharers := e.sharers ||| (1#10 <<< h) } else { e with mods := e.mods ||| (1#16 <<< (h - 16)) }
/-- Strike a holder from the sharers. -/
def DirEnt.unshare (e : DirEnt) (h : Nat) : DirEnt :=
  if h < 16 then { e with sharers := e.sharers &&& ~~~(1#10 <<< h) } else { e with mods := e.mods &&& ~~~(1#16 <<< (h - 16)) }
/-- A die's copies that the directory takes back without a write: the write-back buffer included. -/
def State.hasLine (s : State) (die ctx line : Nat) : Bool := (s.lineAt die ctx line).isSome

/-! ### Requests at the home -/

/-- The directory's name for a requester. -/
def Req.holder (r : Req) : Nat :=
  match r.who with
  | .peer m => 16 + m
  | _ => r.die

/-- The event that brings a request to its home. -/
def Req.event (r : Req) : Instr :=
  if !r.cached then .homeRequest r.id
  else match r.kind with
    | .read _ => .gets r.id
    | _ => .getm r.id

/-- The line key under which a die caches what a request brought. -/
def Req.key (s : State) (r : Req) : Nat × Nat := (r.ctx, (if r.home = s.dev then 0 else r.home * 2 ^ 41) + r.line)

/-- A request is refused with a code (R315). A peer's reply goes back to it; a sample record that draws a negative reply is
dropped (R308), and a walk has had its value. -/
def State.refuse (s : State) (r : Req) (code : BitVec 8) : State :=
  match r.who with
  | .peer m => (s.dropReq r.id).toPeer m 1 (.negative r.id code)
  | .sample | .walk => s.dropReq r.id
  | _ => s.post [.negativeReply r.id code]

/-- The extents that grant a peer what its request needs (R349). -/
def grantingExtents (s : State) (r : Req) (m : Nat) : List Extent :=
  let a := r.line * 128
  let ok := fun (p : Nat × Bool × Bool × Bool) => p.1 == m && (match r.kind with
    | .read _ => p.2.1
    | .write _ => p.2.2.1
    | .rmw .. => p.2.2.2)
  s.extents.filter (fun (e : Extent) => e.ctx == r.ctx && decide (e.base ≤ a) && decide (a < e.base + e.len) && e.peers.any ok)

/-- What a peer's request needs of the extents that cover it: the code of a refusal (R349, R350). -/
def extentRefusal (s : State) (r : Req) : Option (BitVec 8) :=
  match r.who with
  | .peer m =>
    let a := r.line * 128
    if (grantingExtents s r m).any (fun (e : Extent) => !e.revoked) then none
    else if s.extents.any (fun (e : Extent) => e.ctx == r.ctx && decide (e.base ≤ a) && decide (a < e.base + e.len) &&
        e.peers.any (fun p => p.1 == m) && e.revoked) then some 3#8
    else some 2#8
  | _ => none

/-- The home records a holder for this request: always for a die of this module, for a peer through a coherent extent (R349). -/
def recordsHolder (s : State) (r : Req) : Bool :=
  match r.who with
  | .peer m => (grantingExtents s r m).any (fun (e : Extent) => e.coherent && !e.revoked)
  | _ => true

/-- A frame that lies in a band's save area (R218). -/
def inSaveArea (s : State) (p : Page) : Bool :=
  !p.hostres && s.bands.any (fun (b : Band) => b.area.any (fun (x : Nat × Nat) =>
    (p.rmask.getLsbD x.1 || p.prim == x.1) && decide (x.2 ≤ p.frame) && decide (p.frame < x.2 + saveSize b / 65536)))

/-- Other reasons for which a home refuses a request: no key for the context, a sealed context, which only the serai's own accesses
reach, a save area (R218, R222, R315, R358). -/
def homeRefusal (s : State) (r : Req) : Option (BitVec 8) :=
  match s.ctx? r.ctx with
  | none => some 6#8
  | some c =>
    if c.quarantined && (match r.who with | .serai .. | .walk => false | _ => true) then some 2#8
    else if (s.page? r.ctx (r.line / 512)).any (inSaveArea s) then some 2#8
    else extentRefusal s r

/-! ### Hotness sampling (R308) -/

/-- The bytes of a sample record. -/
def sampleRec (s : State) (r : Req) (seq : Nat) (flags : Nat) : List Byte :=
  leBytes 8 (r.line * 128) ++
    [BitVec.ofNat 8 ((if r.die = 15 then 15 else r.die) * 16 + (match r.who with | .peer m => m | _ => s.dev)), BitVec.ofNat 8 r.core,
      BitVec.ofNat 8 r.ty, BitVec.ofNat 8 flags] ++
    leBytes 2 (r.ctx % 4096) ++ [0#8, 0#8] ++ leBytes 8 s.clk.toNat ++ leBytes 8 seq

/-- The page cache holds the page's entry (R14). -/
def pageHit (s : State) (ctx page : Nat) : Bool := s.pageCache.contains (ctx, page)
/-- The page cache after a request for a page with an owner entry: it holds 65,536 entries (R14), and the one used longest ago goes
first (log 79). -/
def touchPage (s : State) (ctx page : Nat) : State :=
  if (s.page? ctx page).isSome then
    { s with pageCache := ((ctx, page) :: s.pageCache.filter (fun x => x != (ctx, page))).take 65536 }
  else s

/-- The flags of a sample record: page-cache miss, answered NR_NOPAGE, replicated page, HOSTRES. -/
def sampleFlags (s : State) (r : Req) (noPage : Bool) : Nat :=
  let p := s.page? r.ctx (r.line / 512)
  (!pageHit s r.ctx (r.line / 512)).toNat + (if noPage then 2 else 0) +
    (if p.any (fun p => decide (1 < (List.range 8).countP (fun d => p.rmask.getLsbD d))) then 4 else 0) +
    (if p.any (fun p => p.hostres) then 8 else 0)

/-- A record is written as a plain store in the sampled context; one whose span is missing is dropped. -/
def sampleWrite (s : State) (ctx va : Nat) (bs : List Byte) : State :=
  match walkSpan s 15 0 ctx (va / 2 ^ 21) with
  | (s, none) => s
  | (s, some e) =>
    if !entW e then s
    else
      let h := homeOf e va
      let w : List WByte := bs.zipIdx.map (fun x => { a := va + x.2, v := x.1, seq := 0 })
      s.addReq { id := 0, who := .sample, kind := .write w, home := h.1, ctx := h.2.1, line := h.2.2 / 128, ty := 1 }
        (homeEvent s h.1 (fun i => .homeRequest i))

/-- A request arrives: every N-th writes a record (R308). The serai's record writes are not counted. A request that its home has held has
arrived once; one that is sent again arrives again. -/
def sampleArrival (s : State) (r : Req) (noPage : Bool) : State :=
  if r.sampled || r.who == .sample then s
  else
    let s := s.modReq r.id (fun x => { x with sampled := true })
    match (s.ctx? r.ctx).bind (fun c => c.sampler) with
    | none => s
    | some m =>
      if m.cnt + 1 < 2 ^ m.log2n then s.modCtx r.ctx (fun c => { c with sampler := some { m with cnt := m.cnt + 1 } })
      else
        let s1 := s.modCtx r.ctx (fun c => { c with sampler := some { m with cnt := 0, seq := m.seq + 1 } })
        sampleWrite s1 r.ctx (m.base + 32 * (m.seq % (2048 * m.units))) (sampleRec s r m.seq (sampleFlags s r noPage))

/-! ### Missing pages (R306, R309, R316) -/

/-- A ticket id (R309). -/
def ticketId (dev slot : Nat) (gen : BitVec 12) : BitVec 32 := BitVec.ofNat 4 dev ++ 0#2 ++ BitVec.ofNat 14 slot ++ gen

/-- List a waiting core in a ticket slot: each once, the 65th switches the slot to broadcast form (R309). -/
def TSlot.enlist (t : TSlot) (w : Nat × Nat × Nat) : TSlot :=
  match t.bcast with
  | some m => { t with bcast := some (m ||| (1#16 <<< w.1)) }
  | none =>
    if t.cores.contains w then t
    else if t.cores.length < 64 then { t with cores := t.cores ++ [w] }
    else { t with cores := [], bcast := some ((w :: t.cores).foldl (fun m x => m ||| (1#16 <<< x.1)) 0#16) }

/-- The slot that serves a missing page: its own, or the lowest free one. -/
def State.ticketFor (s : State) (ctx page : Nat) : Option TSlot :=
  match s.tslots.find? (fun (t : TSlot) => t.used && t.ctx == ctx && t.page == page) with
  | some t => some t
  | none =>
    match (List.range (s.tslots.length + 1)).find? (fun n => !s.tslots.any (fun (t : TSlot) => t.slot == n && t.used)) with
    | none => none
    | some n =>
      if 16384 ≤ n then none
      else
        match s.tslots.find? (fun (t : TSlot) => t.slot == n) with
        | some t => some { t with used := true, ctx := ctx, page := page, cores := [], bcast := none }
        | none => some { slot := n, used := true, ctx := ctx, page := page }

/-- Store a ticket slot. -/
def State.setTicket (s : State) (t : TSlot) : State :=
  if s.tslots.any (fun (x : TSlot) => x.slot == t.slot) then
    { s with tslots := s.tslots.map (fun (x : TSlot) => if x.slot == t.slot then t else x) }
  else { s with tslots := s.tslots ++ [t] }

/-- A request that its home holds while the page is serviced: a released entry, another module's too, the host's, the serai's; a released
`put`'s source read too (R182, R367). Another module's atomic is a released entry where it returns no value. -/
def State.waitsAtHome (s : State) (r : Req) : Bool :=
  r.entry.isSome || (r.op.bind (fun o => s.op? o)).any Op.isPut ||
    (match r.who with | .host _ | .serai .. => true | .str .. => r.op.isNone | .peer _ => r.ty == 1 || (r.ty == 2 && !r.ret) | _ => false)

/-- A request that draws NR_NOPAGE and is not held at the home makes its core wait: a string parks on the ticket, a job's engine waits for
the notice, and so may a peer's (R271, R309, R310). -/
def State.waitingCore (s : State) (r : Req) : Option (Nat × Nat × Nat) :=
  if s.waitsAtHome r then none
  else match r.who with
    | .peer m => some (m, r.die, r.core)
    | .str .. | .job _ => some (s.dev, r.die, r.core)
    | _ => none

/-- The requester in an error log record (R316): 65,536 × module + 256 × die + core. -/
def Req.requester (s : State) (r : Req) : Nat := (match r.who with | .peer m => m | _ => s.dev) * 65536 + r.die * 256 + r.core

/-- A record of the error log with its requester. -/
def State.logWho (s : State) (what x y who : Nat) : State :=
  { s with errlog := s.errlog ++ [{ what := what, x := x, y := y, who := who }] }

/-- A request is at its home no more: sent again, it arrives anew, and is counted anew (R308). -/
def Req.away (x : Req) : Req := { x with arr := 0, sampled := false }

/-- NR_NOPAGE (R306, R309): a ticket, or for a pinned request ticket 0 and a record in the error log (R316). -/
def State.noPage (s : State) (r : Req) : State :=
  if r.pinned then
    let s := s.logWho 0x316 r.ctx r.line (r.requester s)
    match r.who with
    | .peer m => (s.dropReq r.id).toPeer m 1 (.noPage r.id 0#32)
    | _ => (s.modReq r.id Req.away).post [.nrNopage r.id 0#32]
  else
    match s.ticketFor r.ctx (r.line / 512) with
    | none => (s.modReq r.id Req.away).refuse r 9#8
    | some t =>
      let s := s.setTicket (match s.waitingCore r with | some w => t.enlist w | none => t)
      let id := ticketId s.dev t.slot t.gen
      if s.waitsAtHome r then s.modReq r.id (fun x => { x with held := some id, arr := 0 })
      else match r.who with
        | .peer m => (s.dropReq r.id).toPeer m 1 (.noPage r.id id)
        | .sample | .walk => s.dropReq r.id
        | _ => (s.modReq r.id Req.away).post [.nrNopage r.id id]

/-! ### Arrival -/

/-- A grant's data for a line is on its way to a die, which answers nothing about the line before it has come. -/
def State.dataTo (s : State) (die ctx line : Nat) : Bool :=
  s.agenda.any (fun e => match e with
    | .dataMsg i _ => (s.req? i).any (fun (r : Req) => r.die == die && r.key s == (ctx, line) && !(r.who matches .peer _))
    | _ => false)

/-- A read does not wait for a store to a replicated page that is locking its replicas: it meets them as they stand (R168). -/
def besideStore (s : State) (r x : Req) : Bool :=
  (match r.kind with | .read _ => true | _ => false) &&
    (s.page? r.ctx (r.line / 512)).any (fun (p : Page) => p.storing == some x.id && p.lock != 0#8)

/-- A write-back of a line that came to the home before number `n` waits there (R323); 0 stands for an arrival now. -/
def putBefore (s : State) (ctx line n : Nat) : Bool :=
  s.sites.any (fun (x : Site) => x.lines.any (fun (c : CLine) => c.ctx == ctx && c.line == line && c.wb && c.arr != 0 && (n == 0 || decide (c.arr < n))))

/-- A request to a line that came to its home before number `n`, waits there, and is none that `skip` names (R323). -/
def requestBefore (s : State) (home ctx line n : Nat) (skip : Req → Bool) : Bool :=
  s.reqs.any (fun (x : Req) => !skip x && x.ctx == ctx && x.line == line && x.home == home && x.pdie.isNone &&
    x.arr != 0 && (n == 0 || decide (x.arr < n)))

/-- A request waits at the home: a transaction is in progress on its line, or an earlier request to the line waits (R323); a die has one
grant of a line on its way to it at a time. -/
def lineBusy (s : State) (r : Req) : Bool :=
  let k := r.key s
  (s.txn? r.ctx r.line).isSome || putBefore s r.ctx r.line r.arr ||
    (r.cached && !(r.who matches .peer _) && s.dataTo r.die k.1 k.2) ||
    requestBefore s r.home r.ctx r.line r.arr (fun x => x.id == r.id || besideStore s r x)

/-! ### Queue windows (R340, R341) -/

/-- Unfetched packets of a queue. -/
def Queue.waiting (q : Queue) (widx : BitVec 32) : Nat := (widx - q.ridx).toNat

/-- WIDX of a queue is written (R341): an overrun puts the queue in error until it is reconfigured. Writes before STAGE 5 are discarded
(R339). -/
def State.setWidx (s : State) (q : Nat) (v : BitVec 32) : State :=
  if s.stage ≠ 5 ∨ 4096 ≤ q then s
  else s.modQueue q (fun x => { x with widx := v, st := if x.st = .on ∧ 2 ^ x.log2 < x.waiting v then QSt.error else x.st })

/-- The bytes of a queue window as a read returns them (R340). -/
def windowBytes (s : State) (q : Nat) : List Byte :=
  let x := (s.queue? q).getD { q := q }
  leBytes 8 x.qbase.toNat ++ leBytes 8 (x.ctx % 4096 * 2 ^ 36 + x.mask.toNat * 2 ^ 16 + x.log2 % 32) ++ leBytes 8 x.widx.toNat ++
    leBytes 8 x.ridx.toNat ++ leBytes 8 x.errcnt.toNat ++ leBytes 8 (match x.st with | .off => 0 | .on => 1 | .error => 2) ++ List.replicate 16 0#8

/-- The windows' place in BAR 2, where a host address lies in them: queue and offset. -/
def State.window? (s : State) (a : Nat) : Option (Nat × Nat) :=
  match s.bar2 with
  | some b => if b ≤ a ∧ a < b + 262144 then some ((a - b) / 64, (a - b) % 64) else none
  | none => none

/-- The string that sent a request has MODE set (R244): queue 0's window is reached by no other agent (R343). -/
def modeReq (s : State) (r : Req) : Bool :=
  match r.who with
  | .str b n => (s.str? b n).any modeOf
  | _ => false

/-- A device producer's store through a span that is mapped onto the windows (R341): WIDX alone is writable, the bytes of one store together. -/
def windowStore (s : State) (r : Req) (base : Nat) (bs : List WByte) : State :=
  let ws : List (Nat × Nat × Byte) := bs.filterMap (fun (b : WByte) => (s.window? (base + b.a % 128)).bind (fun x =>
    if 16 ≤ x.2 ∧ x.2 < 20 ∧ (x.1 ≠ 0 ∨ modeReq s r = true) then some (x.1, 8 * (x.2 - 16), b.v) else none))
  ((ws.map (fun x => x.1)).eraseDups).foldl (fun s q =>
    let old := ((s.queue? q).map (fun (x : Queue) => x.widx)).getD 0#32
    s.setWidx q ((ws.filter (fun x => x.1 == q)).foldl (fun v x => (v &&& ~~~(0xFF#32 <<< x.2.1)) ||| (x.2.2.zeroExtend 32 <<< x.2.1)) old)) s

/-- A window is read: queue 0's by a string with MODE set alone. -/
def windowRead (s : State) (r : Req) (a : Nat) : Byte :=
  match s.window? a with
  | some (q, off) => if q ≠ 0 ∨ modeReq s r = true then (windowBytes s q).getD off 0#8 else 0#8
  | none => 0#8

/-- What a host completion says is open: Unsupported Request or Completer Abort is answered NR_PERM, a poisoned one NR_ECC_UNCORR
(R315). -/
def hostError (i : Nat) : Option (BitVec 8) :=
  match (Config.freeWord i).toNat % 4 with
  | 1 => some 2#8
  | 2 => some 7#8
  | _ => none

/-- Perform a request on host memory (R302, R306); a write is posted and has no completion. Addresses of BAR 2 reach
the queue windows (R341), on which no atomic is defined. -/
def performHost (s : State) (r : Req) (base : Nat) : State :=
  if (s.window? base).isSome then
    match r.kind with
    | .write bs => (windowStore s r base bs).sendBack r 15 []
    | .read ps => s.sendBack r 15 (ps.map (fun p => (p.1, windowRead s r (base + p.2 % 128))))
    | .rmw .. => s.refuse r 2#8
  else
  let bad := hostError s.nfree
  let s := { s with nfree := s.nfree + 1 }
  match r.kind, bad with
  | .write bs, _ => { s with host := bs.foldl (fun m (b : WByte) => memPut m (base + b.a % 128) b.v) s.host }.sendBack r 15 []
  | _, some c => s.refuse r c
  | .read ps, none => s.sendBack r 15 (ps.map (fun p => (p.1, memGet s.host (base + p.2 % 128))))
  | .rmw op w8 ls, none =>
    let s := { s with nchoice := s.nchoice + 32 }
    let x := rmwMem op w8 ((orderLanes s.nchoice ls).map (fun z => { z with a := base + z.a % 128 })) s.host
    { s with host := x.1 }.sendBack r 15 (oldBytes x.2)

/-- The line that a write or an atomic leaves (R187). -/
def newLine (s : State) (r : Req) (d : LineData) : State × LineData × List (Nat × Word64) :=
  match r.kind with
  | .read _ => (s, d, [])
  | .write bs => (s, bs.foldl (fun d (b : WByte) => d.set (b.a % 128) b.v) d, [])
  | .rmw op w8 ls =>
    let s := { s with nchoice := s.nchoice + 32 }
    let x := rmwMem op w8 ((orderLanes s.nchoice ls).map (fun z => { z with a := z.a % 128 })) (memWrite [] 0 d)
    (s, memBytes x.1 0 128, x.2)

/-- The write-back, or the acknowledgement with a line's data, that is being committed to a page's replicas is still under way. -/
def putLive (s : State) (p : Page) (x : Nat × Nat) : Bool :=
  (s.lineAt x.1 p.ctx x.2).any (fun (c : CLine) => c.wb) ||
    s.agenda.any (fun e => match e with | .invack h c l (some _) => h == x.1 && c == p.ctx && l == x.2 | _ => false)

/-- A store to the page is being committed that is neither request `r` nor the write-back `w` (R168). -/
def storingOther (s : State) (p : Page) (r : Nat) (w : Option (Nat × Nat)) : Bool :=
  p.storing.any (fun i => i != r && (s.req? i).isSome) || p.putting.any (fun x => some x != w && putLive s p x)

/-- The replicas of a page that a store has locked. -/
def locksOf (s : State) (p : Page) : BitVec 8 :=
  if p.storing.any (fun i => (s.req? i).isSome) || p.putting.any (putLive s p) then p.lock else 0#8

/-- The next replica that a store must lock before it writes them all: none of a page with one copy (R168). `mine`: the store has those of
`lock` already. -/
def nextLock (p : Page) (mine : Bool) : Option Nat :=
  if (domainsOf p.rmask).length ≤ 1 then none else (domainsOf p.rmask).find? (fun d => !(mine && p.lock.getLsbD d))

/-- The page with one more replica locked. -/
def Page.lockOne (p : Page) (mine : Bool) (d : Nat) : Page := { p with lock := (if mine then p.lock else 0#8) ||| (1#8 <<< d) }
/-- The page with every replica unlocked. -/
def Page.unlocked (p : Page) : Page := { p with storing := none, putting := none, lock := 0#8 }

/-- A store to a page, request `r` or the write-back `w`, is committed once it has locked every replica, one after another; then they are
all unlocked (R168). -/
def lockAll (s : State) (p : Page) (r : Option Nat) (w : Option (Nat × Nat)) (again : List Instr) (go : State → State) : State :=
  let mine := p.storing == r && p.putting == w
  if storingOther s p (r.getD 0) w then s.post again
  else
    match nextLock p mine with
    | some d => (s.modPage p.ctx p.page (fun q => { q.lockOne mine d with storing := r, putting := w })).post again
    | none => go (s.modPage p.ctx p.page Page.unlocked)

/-- Perform a write or an atomic on a page in granary (R168, R357): a page with one copy takes it at once; of a replicated page the
replicas are locked one after another in ascending order, then all are written and unlocked. -/
def performGran (s : State) (r : Req) (p : Page) : State :=
  match r.kind with
  | .read ps => let d := s.memLine r.ctx r.line; s.sendBack r 15 (ps.map (fun q => (q.1, d.getD (q.2 % 128) 0#8)))
  | _ => lockAll s p (some r.id) none [r.event] (fun s =>
    let x := newLine s r (s.memLine r.ctx r.line)
    (x.1.writeHome r.ctx (r.line * 128) x.2.1).sendBack r 15 (oldBytes x.2.2))

/-- A request is performed at its home, in granary or in host memory. -/
def State.performAt (s : State) (r : Req) : State :=
  match s.page? r.ctx (r.line / 512) with
  | none => s.noPage r
  | some p =>
    match locOf p (r.line * 128) with
    | .host a => performHost s r a
    | .gran _ => performGran s r p

/-- A line's stored copy cannot be read: the code, and a quarantine where R357 asks for it. -/
def State.badLine (s : State) (r : Req) (e : Nat × Bool) : State :=
  (if e.2 then quarantine s r.ctx else s).refuse r (BitVec.ofNat 8 e.1)

/-- A request that writes a whole line needs nothing of its stored copy (R357). -/
def Req.fullLine (r : Req) : Bool :=
  match r.kind with
  | .write bs => (List.range 128).all (fun i => bs.any (fun (b : WByte) => b.a % 128 == i))
  | _ => false

/-- A request is performed at its home, unless it needs the stored copy and that cannot be read. -/
def State.performLine (s : State) (r : Req) : State :=
  match if r.fullLine then none else s.lineErr r.ctx r.line with
  | some e => s.badLine r e
  | none => s.performAt r

/-- A read of a replicated page meets one of its replicas, which one is open; a locked one makes it wait (R168). -/
def readWaits (s : State) (p : Page) (r : Req) : Bool :=
  (match r.kind with | .read _ => true | _ => false) && locksOf s p != 0#8 &&
    (match (domainsOf p.rmask)[(Config.freeWord s.nfree).toNat % max 1 (domainsOf p.rmask).length]? with
     | some d => (locksOf s p).getLsbD d
     | none => false)

/-- A request arrives at its home (R304, R306): it is sampled once, is refused or draws NR_NOPAGE, or is accepted and waits its
turn. One that has been accepted is performed at the page's frame even while the page is moving (R307). -/
def State.arrive (s : State) (r : Req) (ev : Instr) (go : State → Req → Page → State) : State :=
  let page := r.line / 512
  let first := r.arr == 0
  let refusal := if first then homeRefusal s r else none
  let missing := refusal.isNone && (match s.page? r.ctx page with | none => true | some p => first && (!p.v || p.mov))
  let s := if first then
      touchPage (sampleArrival ({ s with nseq := s.nseq + 1 }.modReq r.id (fun x => { x with arr := s.nseq + 1 })) r
        (missing && (r.pinned || (s.ticketFor r.ctx page).isSome))) r.ctx page
    else s
  match s.req? r.id with
  | none => s
  | some r =>
    match refusal with
    | some c => s.refuse r c
    | none =>
      match s.page? r.ctx page with
      | none => s.noPage r
      | some p =>
        if missing then s.noPage r
        else if lineBusy s r then s.post [ev]
        else if readWaits s p r then ({ s with nfree := s.nfree + 1 }).post [ev]
        else go s r p

/-! ### Transactions -/

/-- Start a transaction; messages go to the holders that it awaits: to a die an event, to a module over the fabric. -/
def State.startTxn (s : State) (x : Txn) (own : Nat → Bool) (msg : Nat → Instr) : State :=
  let s := (x.await.filter (fun h => decide (16 ≤ h))).foldl (fun s h =>
    s.toPeer (h - 16) 2 (if x.kind = .gets ∨ x.ro = true then .share x.ctx x.line else .take x.ctx x.line (own h))) s
  ({ s with txns := s.txns ++ [x] }).post ((x.await.filter (fun h => decide (h < 16))).map msg)

/-- A holder answers for the line. -/
def DirEnt.ownedBy (e : DirEnt) (h : Nat) : Bool := e.st.owns && e.owner == h
/-- A message that takes a copy away: to the owner FwdGetM, to another holder Inv or BackInv. -/
def takeMsg (e : DirEnt) (ctx line h : Nat) : Instr := if e.ownedBy h then .fwdgetm h ctx line else .backinv h ctx line

/-- Start a recall of a line with invalidation (R307, R326, R350), for request `r` where one waits for it. A line that is nowhere
cached needs none. -/
def State.recall (s : State) (ctx line r : Nat) : State :=
  match s.dir? ctx line with
  | none => s
  | some e =>
    if (s.txn? ctx line).isSome then s
    else if e.holders.isEmpty then s.dropDir ctx line
    else s.startTxn { ctx := ctx, line := line, kind := .recall, r := r, await := e.holders } e.ownedBy (fun h => .backinv h ctx line)

/-- The set of the snoop filter that a line maps to: a slice has 65,536 sets of 16 entries (R322). -/
def setOf (dom line : Nat) : Nat := Config.snoopSet dom line % 65536

/-- The entries of a line's snoop-filter set (R322). -/
def snoopPeers (s : State) (dom line : Nat) : List DirEnt :=
  s.dir.filter (fun (e : DirEnt) => !remoteKey e.line && e.dom == dom && setOf dom e.line == setOf dom line)

/-- A line without an entry needs one: a full set evicts its least recently allocated idle entry, one for each request, and the
request waits (R326). -/
def State.withEntry (s : State) (r : Req) (dom : Nat) (ev : Instr) (go : State → State) : State :=
  if (s.dir? r.ctx r.line).isSome then go s
  else
    let set := snoopPeers s dom r.line
    if set.length < 16 then go s
    else if s.txns.any (fun (x : Txn) => x.kind == .recall && x.r == r.id) then s.post [ev]
    else
      match set.find? (fun (e : DirEnt) => (s.txn? e.ctx e.line).isNone) with
      | some v => (s.recall v.ctx v.line r.id).post [ev]
      | none => s.post [ev]

/-- The grant (R323, R324): the transaction is over, and the Data message is on its way: with the line that an owner sent or that
memory holds, or without one where the requester has it. `src` is the die that sent it. -/
def State.grant (s : State) (r : Req) (fwd : Option LineData) (src : Nat) : State :=
  let k := r.key s
  let s := s.dropTxn k.1 k.2
  match r.who with
  | .peer _ => (s.answer r (((fwd.getD (s.memLine r.ctx r.line)).zipIdx).map (fun x => (x.2, x.1)))).dropReq r.id
  | _ =>
    (s.modReq r.id (fun x => { x.away with src := src })).post
      [.dataMsg r.id (if (s.lineAt r.die k.1 k.2).isSome then none
        else fwd.orElse (fun _ => if r.home = s.dev then some (s.memLine r.ctx r.line) else none))]

/-- Whether the stored copy of a line can be read: in granary by R357, in host memory by what the host's completion says (R315). -/
def State.lineCheck (s : State) (ctx line : Nat) : State × Option (Nat × Bool) :=
  match (s.page? ctx (line / 512)).map (fun p => locOf p (line * 128)) with
  | some (.host _) => ({ s with nfree := s.nfree + 1 }, (hostError s.nfree).map (fun c => (c.toNat, false)))
  | _ => (s, s.lineErr ctx line)

/-- The home supplies a line, and records its holder: with an owner's data, or from memory, unless the stored copy is needed and
cannot be read. -/
def State.supply (s : State) (r : Req) (e : DirEnt) (fwd : Option LineData) (src : Nat := 15) : State :=
  let k := r.key s
  if fwd.isSome || r.home != s.dev || (s.lineAt r.die k.1 k.2).isSome && !(r.who matches .peer _) then (s.setDir e).grant r fwd src
  else
    let x := s.lineCheck r.ctx r.line
    match x.2 with
    | some b => (x.1.dropTxn k.1 k.2).badLine r b
    | none => (x.1.setDir e).grant r none 15

/-- The requester is a MOESI peer (R320); a remote module holds lines as one. -/
def moesi (s : State) (r : Req) : Bool :=
  match r.who with
  | .peer _ => true
  | _ => (s.site? r.die).any (fun st => st.cls == some .moesi)

/-- GetS at the directory (R324). -/
def getsAt (s : State) (r : Req) (dom : Nat) : State :=
  let h := r.holder
  let k := r.key s
  match s.dir? k.1 k.2 with
  | none =>
    let e : DirEnt := { ctx := k.1, line := k.2, st := .E, owner := h, sharers := 0#10, dom := dom }
    s.supply r (if moesi s r then e else { e with st := .S, owner := 0 }.share h) none
  | some e =>
    if e.st.owns && e.owner != h then
      s.startTxn { ctx := k.1, line := k.2, kind := .gets, r := r.id, await := [e.owner] } (fun _ => false) (fun o => .fwdgets o k.1 k.2)
    else if e.st.owns then s.supply r e none
    else s.supply r (e.share h) none

/-- The last acknowledgement of a request for ownership has come: the requester owns the line. -/
def ownNow (s : State) (r : Req) (dom : Nat) (fwd : Option LineData) (src : Nat := 15) : State :=
  let k := r.key s
  s.supply r { ctx := k.1, line := k.2, st := .M, owner := r.holder, sharers := 0#10, dom := dom } fwd src

/-- GetM and Upg at the directory (R324, R325): every other holder loses the line first. -/
def ownAt (s : State) (r : Req) (dom : Nat) (kind : TxnKind) (fwd : Option LineData) : State :=
  let k := r.key s
  match s.dir? k.1 k.2 with
  | none => ownNow s r dom fwd
  | some e =>
    let others := e.holders.filter (fun x => x != r.holder)
    if others.isEmpty then ownNow s r dom fwd
    else s.startTxn { ctx := k.1, line := k.2, kind := kind, r := r.id, await := others, fwd := fwd } e.ownedBy (takeMsg e k.1 k.2)

/-- A request performed at the home (R365): a read of a line that is owned asks its owner; a write or an atomic first takes
every copy away. -/
def homeAt (s : State) (r : Req) : State :=
  let ro := match r.kind with
    | .read _ => true
    | _ => false
  match s.dir? r.ctx r.line with
  | none => s.performLine r
  | some e =>
    if ro && !e.st.owns then s.performLine r
    else if ro then
      s.startTxn { ctx := r.ctx, line := r.line, kind := .home, r := r.id, await := [e.owner], ro := true } (fun _ => false)
        (fun o => .fwdgets o r.ctx r.line)
    else if e.holders.isEmpty then (s.dropDir r.ctx r.line).performLine r
    else s.startTxn { ctx := r.ctx, line := r.line, kind := .home, r := r.id, await := e.holders } e.ownedBy (takeMsg e r.ctx r.line)

/-- A directory entry once its owner has answered a shared read (R324): a die that has answered without data holds the line no longer;
a module keeps a line Owned whose data it sent and had modified; one that held it Exclusive, or sent none, shares it. -/
def DirEnt.asked (e : DirEnt) (sent : Bool) : DirEnt :=
  if e.owner < 16 then { e with st := .S, owner := 0 }
  else if sent && e.st != .E then { e with st := .O }
  else { e with st := .S, owner := 0 }.share e.owner

/-- Everything that a transaction awaited has come. -/
def State.finishTxn (s : State) (x : Txn) : State :=
  let dom := ((s.dir? x.ctx x.line).map (fun e => e.dom)).getD (((s.page? x.ctx (x.line / 512)).map (fun p => p.prim)).getD 0)
  match x.kind, s.req? x.r with
  | .recall, _ =>
    let s := (s.dropTxn x.ctx x.line).dropDir x.ctx x.line
    if remoteKey x.line then s.toPeer (keyModule x.line) 2 (.invAck x.ctx (x.line % 2 ^ 41) x.fwd) else s
  | .gets, some r =>
    match s.dir? x.ctx x.line with
    | some e => (s.dropTxn x.ctx x.line).supply r ((e.asked x.fwd.isSome).share r.holder) x.fwd
    | none => getsAt (s.dropTxn x.ctx x.line) r dom
  | .getm, some r => ownNow s r dom x.fwd x.src
  | .upg, some r => ownNow s r dom x.fwd x.src
  | .home, some r =>
    let s := s.dropTxn x.ctx x.line
    let s := if x.ro then
        match s.dir? x.ctx x.line with
        | some e => s.setDir (e.asked x.fwd.isSome)
        | none => s
      else s.dropDir x.ctx x.line
    s.performLine r
  | .gets, none => s.dropTxn x.ctx x.line
  | _, none => if x.ro then s.dropTxn x.ctx x.line else (s.dropTxn x.ctx x.line).dropDir x.ctx x.line

/-- A module that held a line Exclusive and answers with other data than memory's has modified it (R324). -/
def State.foundDirty (s : State) (h ctx line : Nat) (d : LineData) : State :=
  match s.dir? ctx line with
  | some e => if 16 ≤ h ∧ e.ownedBy h = true ∧ e.st = .E ∧ d ≠ s.memLine ctx line then s.setDir { e with st := .M } else s
  | none => s

/-- An acknowledgement from a holder (R324, R325): data that it carries is written to memory before the transaction completes, on a
replicated page once every replica is locked (R168); of another module's line it is kept for that module, and what another module sends
is passed on. -/
def State.ackFrom (s : State) (h ctx line : Nat) (dirty : Option LineData) : State :=
  match s.txn? ctx line with
  | none => s
  | some x =>
    if !x.await.contains h then s
    else
      let d := dirty.bind (fun d => if d.length = 128 then some d else none)
      let x := { x with await := x.await.filter (fun y => y != h), fwd := if remoteKey line || decide (16 ≤ h) then x.fwd.orElse (fun _ => d) else x.fwd }
      let go := fun (s : State) => let s := s.modTxn ctx line (fun _ => x); if x.await.isEmpty then s.finishTxn x else s
      match if remoteKey line then none else d with
      | none => go s
      | some d =>
        let write := fun (s : State) => go ((s.foundDirty h ctx line d).writeHome ctx (line * 128) d)
        match s.page? ctx (line / 512) with
        | none => write s
        | some p => lockAll s p none (some (h, line)) [.invack h ctx line (some d)] write

/-! ### Lines of other modules (R349) -/

/-- Ask another module's home for a line. -/
def State.askHome (s : State) (r : Req) : State := (s.modReq r.id (fun x => { x with remote := 1 })).toPeer r.home 0 (.request r.id)

/-- A cached request for another module's line meets this module's serai: another die of the module that owns the line answers for
it, and where the module owns it alone its other dies give it up; otherwise the line's home is asked. One request for a line is in
progress at a time. -/
def State.atProxy (s : State) (r : Req) (ev : Instr) : State :=
  let k := r.key s
  if r.remote = 1 then s
  else if (s.txn? k.1 k.2).isSome || s.reqs.any (fun (x : Req) => x.id != r.id && x.remote == 1 && x.key s == k) then s.post [ev]
  else
    match s.dir? k.1 k.2, r.kind with
    | some e, .read _ => if e.st.owns && e.owner != r.holder then getsAt s r 8 else s.askHome r
    | some e, _ =>
      if (e.st == .M || e.st == .E) && (e.owner != r.holder || (s.lineAt r.die k.1 k.2).isSome) then ownAt s r 8 .getm none else s.askHome r
    | none, _ => s.askHome r

/-- A request at its home, or, of another module's line, at the serai that tracks this module's dies. -/
def State.atHome (s : State) (i : Nat) (ev : Instr) (go : State → Req → Page → State) : State :=
  match s.req? i with
  | none => s
  | some r =>
    if r.home = 16 then performHost s r (r.line * 128)
    else if r.home ≠ s.dev then (if r.cached then s.atProxy r ev else s)
    else s.arrive r ev go

/-- The copy of another module's line leaves with this module's answer to its home: a write-back that is not acknowledged is part of
it. -/
def pendingPut (s : State) (ctx line : Nat) : Option LineData :=
  (s.links.filter (fun (l : Link) => l.m == keyModule line)).findSome? (fun (l : Link) =>
    (l.out ++ l.held).findSome? (fun (x : FabMsg) => match x.kind with
      | .put c n d _ => if c == ctx && n == line % 2 ^ 41 then some d else none
      | _ => none))

/-- The home of another module's line takes the line from this module as a whole: every die gives its copy up. -/
def State.giveUp (s : State) (ctx line : Nat) (ev : Instr) : State :=
  if (s.txn? ctx line).isSome then s.post [ev]
  else
    match s.dir? ctx line with
    | some e => if e.holders.isEmpty then (s.dropDir ctx line).toPeer (keyModule line) 2 (.invAck ctx (line % 2 ^ 41) (pendingPut s ctx line))
      else s.startTxn { ctx := ctx, line := line, kind := .recall, r := 0, await := e.holders, fwd := pendingPut s ctx line } e.ownedBy
        (fun h => .backinv h ctx line)
    | none => s.toPeer (keyModule line) 2 (.invAck ctx (line % 2 ^ 41) (pendingPut s ctx line))

/-- The home of another module's line asks this module as its owner for the data: the die that owns it answers. -/
def State.giveData (s : State) (ctx line : Nat) (ev : Instr) : State :=
  if (s.txn? ctx line).isSome then s.post [ev]
  else
    match s.dir? ctx line with
    | some e =>
      match if e.st.owns then s.lineAt e.owner ctx line else none with
      | some c =>
        let s := s.modLine e.owner ctx line (fun c => { c with st := if c.st = .E then .S else .O })
        let s := s.setDir (if c.st = CState.E then { e with st := .S, owner := 0 }.share e.owner else { e with st := .O })
        s.toPeer (keyModule line) 2 (.invAck ctx (line % 2 ^ 41) (some c.data))
      | none => s.toPeer (keyModule line) 2 (.invAck ctx (line % 2 ^ 41) (pendingPut s ctx line))
    | none => s.toPeer (keyModule line) 2 (.invAck ctx (line % 2 ^ 41) (pendingPut s ctx line))

/-! ### The events -/

/-- HOME_REQUEST (R184, R306, R324, R365): a request that is performed at its home. -/
def execHomeRequest (i : Nat) (s : State) : Host.Outcome State Fault Refusal :=
  .next (s.atHome i (.homeRequest i) (fun s r _ => homeAt s r))

/-- GETS (R324). A peer's read through an uncached extent takes no copy (R349). -/
def execGets (i : Nat) (s : State) : Host.Outcome State Fault Refusal :=
  .next (s.atHome i (.gets i) (fun s r p =>
    if recordsHolder s r then s.withEntry r p.prim (.gets i) (fun s => getsAt s r p.prim) else homeAt s r))

/-- GETM (R324). -/
def execGetm (i : Nat) (s : State) : Host.Outcome State Fault Refusal :=
  .next (s.atHome i (.getm i) (fun s r p =>
    if recordsHolder s r then s.withEntry r p.prim (.getm i) (fun s => ownAt s r p.prim .getm none) else homeAt s r))

/-- UPG (R324, R325). -/
def execUpg (i : Nat) (s : State) : Host.Outcome State Fault Refusal :=
  .next (s.atHome i (.upg i) (fun s r p =>
    if recordsHolder s r then s.withEntry r p.prim (.upg i) (fun s => ownAt s r p.prim .upg none) else homeAt s r))

/-- A write-back reaches the home of its line: granary and the replicas of its page, or, of another module's line, that module. -/
def State.putHome (s : State) (c : CLine) : State :=
  if remoteKey c.line then s.toPeer (keyModule c.line) 0 (.put c.ctx (c.line % 2 ^ 41) c.data c.keep) else s.writeHome c.ctx (c.line * 128) c.data

/-- A write-back of the line is taken from its die: the line goes, or stays as a clean copy, and the home answers for it from then on; a
put from a die that is no longer owner is acknowledged without writing (R324, R325). -/
def State.takePut (s : State) (die : Nat) (c : CLine) : State :=
  let s := if c.keep then s.modLine die c.ctx c.line (fun c => { c with st := .S, wb := false, keep := false, arr := 0 }) else s.dropLine die c.ctx c.line
  match s.dir? c.ctx c.line with
  | none => s
  | some e =>
    if e.ownedBy die then
      let s := s.putHome c
      let e := { e with st := .S, owner := 0 }
      let e := if c.keep then e.share die else e.unshare die
      if e.holders.isEmpty then s.dropDir c.ctx c.line else s.setDir e
    else s

/-- What PutM and PutO share (R323 to R325): in its turn at the home the owner's data is written to memory, on a replicated page once
every replica is locked (R168). -/
def State.putBack (s : State) (die ctx line : Nat) (st : CState) : State :=
  match s.lineAt die ctx line with
  | none => s
  | some c =>
    if c.st ≠ .M ∧ c.st ≠ .O ∨ (c.wb = false ∧ c.st ≠ st) then s.modLine die ctx line (fun c => { c with wb := false, keep := false, arr := 0 })
    else
      let again := [if st = .M then Instr.putm die ctx line else .puto die ctx line]
      let n := if c.arr = 0 then s.nseq + 1 else c.arr
      let s := if c.arr = 0 then ({ s with nseq := s.nseq + 1 }).modLine die ctx line (fun c => { c with arr := n }) else s
      if (s.txn? ctx line).isSome || putBefore s ctx line n || (!remoteKey line && requestBefore s s.dev ctx line n (fun _ => false)) then s.post again
      else
        match if remoteKey line || !(s.dir? ctx line).any (fun e => e.ownedBy die) then none else s.page? ctx (line / 512) with
        | none => s.takePut die c
        | some p =>
          lockAll s p none (some (die, line)) again (fun s => s.takePut die c)

/-- The put of a module that holds the line through a coherent extent (R349) waits its turn at the home as a request of its own, with the
data that the module sends, which is free here; it is written where that module is still the owner, and acknowledged (R325). -/
def State.peerPut (s : State) (m ctx line : Nat) (again : Instr) : State :=
  match s.reqs.find? (fun (r : Req) => r.who == .peer m && r.ctx == ctx && r.line == line && r.ty == 6) with
  | none =>
    let bs : List WByte := (List.range 128).map (fun i => { a := line * 128 + i, v := (Config.freeWord (s.nfree + i)).extractLsb' 0 8, seq := 0 })
    { s with nfree := s.nfree + 128, nseq := s.nseq + 1 }.addReq
      { id := 0, who := .peer m, kind := .write bs, home := s.dev, ctx := ctx, line := line, ty := 6, arr := s.nseq + 1 } (fun _ => [again])
  | some r =>
    if (s.txn? ctx line).isSome || putBefore s ctx line r.arr || requestBefore s s.dev ctx line r.arr (fun _ => false) then s.post [again]
    else
      match s.dir? ctx line, s.page? ctx (line / 512) with
      | some e, some p =>
        if e.ownedBy (16 + m) then
          lockAll s p (some r.id) none [again] (fun s =>
            let s := s.writeHome ctx (line * 128) (newLine s r (s.memLine ctx line)).2.1
            let e := { e with st := .S, owner := 0 }.unshare (16 + m)
            (if e.holders.isEmpty then s.dropDir ctx line else s.setDir e).sendBack r 15 [])
        else s.sendBack r 15 []
      | _, _ => s.sendBack r 15 []

/-- PUTM (R324, R325). -/
def execPutm (die ctx line : Nat) (s : State) : Host.Outcome State Fault Refusal :=
  .next (if 16 ≤ die then s.peerPut (die - 16) ctx line (.putm die ctx line) else s.putBack die ctx line .M)

/-- PUTO (R324, R325). -/
def execPuto (die ctx line : Nat) (s : State) : Host.Outcome State Fault Refusal :=
  .next (if 16 ≤ die then s.peerPut (die - 16) ctx line (.puto die ctx line) else s.putBack die ctx line .O)

/-- An owner's state once it has forwarded a shared read: E becomes S, M becomes O (R324). -/
def CState.forwarded : CState → CState
  | .E => .S
  | .M => .O
  | x => x

/-- FWDGETS (R324, R325): the owner sends the data, E becoming S and M becoming O; a line that is gone is answered without
data. -/
def execFwdgets (die ctx line : Nat) (s : State) : Host.Outcome State Fault Refusal :=
  .next (
    match if (s.txn? ctx line).any (fun x => x.await.contains die) then s.txn? ctx line else none with
    | none => if remoteKey line then s.giveData ctx line (.fwdgets die ctx line) else s
    | some x =>
      if s.dataTo die ctx line then s.post [.fwdgets die ctx line]
      else
        match s.lineAt die ctx line with
        | none => s.post [.invack die ctx line none]
        | some c =>
          let s := s.modLine die ctx line (fun c => { c with st := c.st.forwarded })
          let s := match s.dir? ctx line with
            | some e => s.setDir (if c.st = CState.E then { e with st := .S, owner := 0 }.share die else { e with st := .O })
            | none => s
          match s.req? x.r with
          | none => s.dropTxn ctx line
          | some r =>
            if x.ro then
              let s := s.dropTxn ctx line
              match r.kind with
              | .read ps => s.sendBack r 15 (ps.map (fun (p : Nat × Nat) => (p.1, c.data.getD (p.2 % 128) 0#8)))
              | _ => s.sendBack r 15 []
            else
              let s := match s.dir? ctx line with
                | some e => s.setDir (e.share r.holder)
                | none => s
              s.grant r (some c.data) die)

/-- FWDGETM (R324, R325): the owner sends the data to the requester, or home where the request is performed there, and goes
Invalid. -/
def execFwdgetm (die ctx line : Nat) (s : State) : Host.Outcome State Fault Refusal :=
  .next (
    match if (s.txn? ctx line).any (fun x => x.await.contains die) then s.txn? ctx line else none with
    | none => if remoteKey line then s.giveUp ctx line (.fwdgetm die ctx line) else s
    | some x =>
      if s.dataTo die ctx line then s.post [.fwdgetm die ctx line]
      else
        match s.lineAt die ctx line with
        | none => s.post [.invack die ctx line none]
        | some c =>
          let s := s.dropLine die ctx line
          match x.kind with
          | .getm | .upg => (s.modTxn ctx line (fun x => { x with fwd := some c.data, src := die })).post [.invack die ctx line none]
          | _ => s.post [.invack die ctx line (if c.dirty then some c.data else none)])

/-- BACKINV (R326), and Inv (R324): the holder loses its copy; a dirty one sends its data home. -/
def execBackinv (die ctx line : Nat) (s : State) : Host.Outcome State Fault Refusal :=
  .next (
    if !(s.txn? ctx line).any (fun x => x.await.contains die) then
      (if remoteKey line then s.giveUp ctx line (.backinv die ctx line) else s)
    else if s.dataTo die ctx line then s.post [.backinv die ctx line]
    else
      match s.lineAt die ctx line with
      | none => s.post [.invack die ctx line none]
      | some c => (s.dropLine die ctx line).post [.invack die ctx line (if c.dirty then some c.data else none)])

/-- INVACK (R324): the last one completes the transaction. A holder on this module acknowledges only once it holds nothing. -/
def execInvack (die ctx line : Nat) (dirty : Option LineData) (s : State) : Host.Outcome State Fault Refusal :=
  .next (if s.hasLine die ctx line then s else s.ackFrom die ctx line dirty)

/-- A requester's die still takes replies (R335). -/
def dieTakes (s : State) (d : Nat) : Bool := d == 15 || (s.site? d).any (fun st => st.st == .admitted || st.st == .quiescing)

/-- A read has its line in the cache: some granules are read now, and others as they are found later (R154). -/
def readLine (s : State) (r : Req) (d : LineData) (ps : List (Nat × Nat)) : State :=
  let f := fun (p : Nat × Nat) => p.2
  let now := if r.op.isSome then someOf s.nfree f ps else ps
  let rest := if r.op.isSome then othersOf s.nfree f ps else []
  let s := { s with nfree := s.nfree + 1 }
  let s := match r.op with
    | some o => s.modOp o (fun x => { x with todo := x.todo ++ rest })
    | none => s
  reqDone (s.answer r (now.map (fun p => (p.1, d.getD (p.2 % 128) 0#8)))) r

/-- What is left of a store whose line is held writable now is merged later, granule by granule (R154): by its entry, or by the copy that
it belongs to. -/
def leftStore (s : State) (r : Req) (rest : List WByte) : State :=
  match r.entry, r.op.bind (fun o => s.op? o) with
  | some i, _ => (s.dropReq r.id).setEntry i (fun e => { e.keep rest with sent := false })
  | none, some o =>
    match o.kind with
    | .copy _ _ _ dst _ _ => reqDone (s.modOp o.id (fun x => { x with todo := x.todo ++ rest.map (fun (b : WByte) => (b.a - dst, b.a)) })) r
    | _ => reqDone s r
  | none, none => reqDone s r

/-- The line reaches its requester (R324): a read takes its bytes and caches the line, a store merges into it, but for one that a rollback
undid (R170). A line that has been taken away since its grant was sent serves a read, and a store asks for it again. -/
def deliverLine (s : State) (r : Req) (st : CState) (d : LineData) : State :=
  let k := r.key s
  let kept := r.cached && r.remote != 3
  match r.kind with
  | .read ps =>
    if kept then readLine (s.cacheLine r.die r.core k.1 k.2 st d) r d ps
    else reqDone (s.answer r (ps.map (fun (p : Nat × Nat) => (p.1, d.getD (p.2 % 128) 0#8)))) r
  | .write bs =>
    if !r.cached then reqDone s r
    else if !kept then (s.modReq r.id (fun x => { x.away with remote := 0 })).post [r.event]
    else if (r.op.bind (fun o => s.op? o)).any (fun (o : Op) => o.undone) then reqDone (s.cacheLine r.die r.core k.1 k.2 .M d) r
    else
      let f := WByte.place
      let rest := othersOf s.nfree f bs
      let d := (someOf s.nfree f bs).foldl (fun d (b : WByte) => d.set (b.a % 128) b.v) d
      let s := ({ s with nfree := s.nfree + 1 }).cacheLine r.die r.core k.1 k.2 .M d
      if rest.isEmpty then reqDone s r else leftStore s r rest
  | .rmw .. => let x := newLine s r d; reqDone (x.1.answer r (oldBytes x.2.2)) r

/-- The state in which a read's line comes to a die: Exclusive where the directory says so. -/
def State.grantState (s : State) (r : Req) : CState :=
  let k := r.key s
  match s.dir? k.1 k.2 with
  | some e => if e.ownedBy r.die then .E else .S
  | none => .S

/-- A grant reaches the requester's die (R324): with the line, or for the copy that it has; one that has gone since is asked for
again. -/
def State.takeGrant (s : State) (r : Req) (payload : Option LineData) : State :=
  let k := r.key s
  match s.lineAt r.die k.1 k.2, payload with
  | some c, _ => deliverLine s r (if c.st = .S then s.grantState r else c.st) c.data
  | none, some d => if d.length = 128 then deliverLine s r (s.grantState r) d else s
  | none, none => (s.modReq r.id (fun x => { x.away with remote := 0 })).post [r.event]

/-- The answer of another module's home (R349): bytes of an access that is performed there, or a line, for which the module's other
dies give their copies up before a store merges into it. A line of an uncached extent comes without a copy being taken: whether the
line lies in one is the home's, and free here; a store to it has been performed there. -/
def State.fromHome (s : State) (r : Req) (payload : Option LineData) : State :=
  let k := r.key s
  let d := payload.bind (fun d => if d.length = 128 then some d else none)
  let bare := (s.dir? k.1 k.2).isNone && Config.freeBool s.nfree && (match r.kind with | .read _ => true | _ => d.isNone)
  let s := { s with nfree := s.nfree + 1 }
  if !r.cached || bare then
    let r := { r with cached := false }
    match d, r.kind with
    | some d, _ => deliverLine s r .S d
    | none, .write _ => reqDone s r
    | none, _ => s
  else
    let s := s.modReq r.id (fun x => { x with remote := 2 })
    match r.kind with
    | .read _ =>
      let e : DirEnt := (s.dir? k.1 k.2).getD { ctx := k.1, line := k.2, st := .S, owner := 0, sharers := 0#10, dom := 8 }
      (s.setDir (e.share r.holder)).takeGrant r d
    | _ => ownAt s r 8 .getm d

/-- DATA (R324): a grant of this module's home, the reply to a request that has been performed, or the answer of another module's
home. -/
def execDataMsg (i : Nat) (payload : Option LineData) (s : State) : Host.Outcome State Fault Refusal :=
  .next (
    match s.req? i with
    | none => s
    | some r =>
      match r.back with
      | some bs => if dieTakes s r.die then reqDone (s.answer r bs) r else s.dropReq i
      | none =>
      if r.home = 16 ∨ r.pdie.isSome ∨ (r.who matches .peer _) then s
      else if r.home ≠ s.dev ∧ (r.cached = false ∨ r.remote = 1) then
        { s with links := s.links.map (fun (l : Link) =>
          if l.m == r.home then { l with out := l.out.filter (fun (x : FabMsg) => x.kind != FabKind.request i) } else l) }.fromHome r payload
      else if !r.cached then s
      else if !dieTakes s r.die then s.dropReq i
      else s.takeGrant r payload)

end Sys2Proof.Machine
end

