-- ==== Sys2Proof/Machine/LaneInt.lean ====
section
/-! DEFINITION. The integer, constant, compare and predicate lane instructions, majors 0x01 to 0x06 (R125 to R131). -/

namespace Sys2Proof.Machine
open Sys2Proof

/-- The number of set bits. -/
def popCount {w : Nat} (x : BitVec w) : Nat := ((List.range w).filter (fun i => x.getLsbD i)).length
/-- The number of trailing zeros; w for zero. -/
def trailingZeros {w : Nat} (x : BitVec w) : Nat := ((List.range w).takeWhile (fun i => !x.getLsbD i)).length
/-- The number of leading zeros; w for zero. -/
def leadingZeros {w : Nat} (x : BitVec w) : Nat := w - bitLen x.toNat
/-- A shift count B[5:0] (R125). -/
def shCount (b : Word32) : Nat := b.toNat % 64
/-- A clamped integer as a 32-bit pattern. -/
def clamp32 (x lo hi : Int) : Word32 := BitVec.ofInt 32 (clampInt x lo hi)
/-- −2^31 -/
def i32Min : Int := -2147483648
/-- 2^31 − 1 -/
def i32Max : Int := 2147483647
/-- 2^32 − 1 -/
def n32Max : Int := 4294967295
/-- The field of `bfe` and `bfi` (R127): position and the mask of its length. -/
def fieldPos (b : Word32) : Nat := b.toNat % 32
/-- 2^len − 1 with len = min(B[13:8], 32) (R127) -/
def fieldMask (b : Word32) : Nat := 2 ^ (min (b.toNat / 256 % 64) 32) - 1
/-- bfe (R127) -/
def bfeOf (a b : Word32) : Word32 := BitVec.ofNat 32 (a.toNat / 2 ^ fieldPos b) &&& BitVec.ofNat 32 (fieldMask b)
/-- bfi (R127) -/
def bfiOf (a b d : Word32) : Word32 :=
  let m := BitVec.ofNat 32 (fieldMask b * 2 ^ fieldPos b)
  (d &&& ~~~m) ||| (BitVec.ofNat 32 (a.toNat * 2 ^ fieldPos b) &&& m)
/-- The tag of a sum or difference of a tagged value and a PLAN value (R290). -/
def addTag (ta tb : Tag) (xa xb : Word64) : Tag :=
  match ta, tb with
  | .arg k c p, .plan => .arg k (c + xb) p
  | .plan, .arg k c p => .arg k (c + xa) p
  | _, _ => joinTags [ta, tb]
/-- The tag of ARG minus PLAN (R290). -/
def subTag (ta tb : Tag) (xb : Word64) : Tag :=
  match ta, tb with
  | .arg k c p, .plan => .arg k (c - xb) p
  | _, _ => joinTags [ta, tb]
/-- NV of a float compare (R130): `quiet` compares signal on a signalling NaN only. -/
def cmpNv (quiet : Bool) (a b : Word32) : Flags :=
  let x := fp32.dec a.toNat
  let y := fp32.dec b.toNat
  if (if quiet then x.isSnan || y.isSnan else x.isNan || y.isNan) then flNV else 0#5
/-- Either is a NaN. -/
def unordered (a b : Word32) : Bool := (fp32.dec a.toNat).isNan || (fp32.dec b.toNat).isNan
/-- The order of two FP32 patterns that are no NaN. -/
def cmp32 (a b : Word32) : Int := fCmp (fp32.dec a.toNat) (fp32.dec b.toNat)

/-- IADD (R125): Wrap(A + B, 32); tags by R290. -/
def execIadd (g : PReg) (d a b : VReg) (s : State) : Host.Outcome State Fault Refusal :=
  s.laneInt g d (fun t l => readV t a.toNat l + readV t b.toNat l)
    (fun t l => addTag (tagV t a.toNat l) (tagV t b.toNat l) ((readV t a.toNat l).zeroExtend 64) ((readV t b.toNat l).zeroExtend 64))

/-- ISUB (R125): Wrap(A − B, 32); tags by R290. -/
def execIsub (g : PReg) (d a b : VReg) (s : State) : Host.Outcome State Fault Refusal :=
  s.laneInt g d (fun t l => readV t a.toNat l - readV t b.toNat l)
    (fun t l => subTag (tagV t a.toNat l) (tagV t b.toNat l) ((readV t b.toNat l).zeroExtend 64))

/-- IMUL (R125): the low half of the product. -/
def execImul (g : PReg) (d a b : VReg) (s : State) : Host.Outcome State Fault Refusal :=
  s.lane2 g d a b (fun A B => A * B)

/-- IMULH_I (R125): bits [63:32] of SA × SB. -/
def execImulhI (g : PReg) (d a b : VReg) (s : State) : Host.Outcome State Fault Refusal :=
  s.lane2 g d a b (fun A B => BitVec.ofInt 32 (A.toInt * B.toInt / 4294967296))

/-- IMULH_N (R125): bits [63:32] of UA × UB. -/
def execImulhN (g : PReg) (d a b : VReg) (s : State) : Host.Outcome State Fault Refusal :=
  s.lane2 g d a b (fun A B => BitVec.ofNat 32 (A.toNat * B.toNat / 4294967296))

/-- IMIN_I (R125): the smaller of SA and SB. -/
def execIminI (g : PReg) (d a b : VReg) (s : State) : Host.Outcome State Fault Refusal :=
  s.lane2 g d a b (fun A B => if A.toInt ≤ B.toInt then A else B)

/-- IMAX_I (R125): the larger of SA and SB. -/
def execImaxI (g : PReg) (d a b : VReg) (s : State) : Host.Outcome State Fault Refusal :=
  s.lane2 g d a b (fun A B => if B.toInt ≤ A.toInt then A else B)

/-- IMIN_N (R125): the smaller of UA and UB. -/
def execIminN (g : PReg) (d a b : VReg) (s : State) : Host.Outcome State Fault Refusal :=
  s.lane2 g d a b (fun A B => if A.toNat ≤ B.toNat then A else B)

/-- IMAX_N (R125): the larger of UA and UB. -/
def execImaxN (g : PReg) (d a b : VReg) (s : State) : Host.Outcome State Fault Refusal :=
  s.lane2 g d a b (fun A B => if B.toNat ≤ A.toNat then A else B)

/-- IAND (R125). -/
def execIand (g : PReg) (d a b : VReg) (s : State) : Host.Outcome State Fault Refusal :=
  s.lane2 g d a b (fun A B => A &&& B)

/-- IOR (R125). -/
def execIor (g : PReg) (d a b : VReg) (s : State) : Host.Outcome State Fault Refusal :=
  s.lane2 g d a b (fun A B => A ||| B)

/-- IXOR (R125). -/
def execIxor (g : PReg) (d a b : VReg) (s : State) : Host.Outcome State Fault Refusal :=
  s.lane2 g d a b (fun A B => A ^^^ B)

/-- ISHL (R125): 0 when the count is 32 or more. -/
def execIshl (g : PReg) (d a b : VReg) (s : State) : Host.Outcome State Fault Refusal :=
  s.lane2 g d a b (fun A B => A <<< shCount B)

/-- ISHR (R125): 0 when the count is 32 or more. -/
def execIshr (g : PReg) (d a b : VReg) (s : State) : Host.Outcome State Fault Refusal :=
  s.lane2 g d a b (fun A B => A >>> shCount B)

/-- ISRA (R125): copies of A[31] when the count is 32 or more. -/
def execIsra (g : PReg) (d a b : VReg) (s : State) : Host.Outcome State Fault Refusal :=
  s.lane2 g d a b (fun A B => A.sshiftRight (shCount B))

/-- IROT (R125): rotate left by B[4:0]. -/
def execIrot (g : PReg) (d a b : VReg) (s : State) : Host.Outcome State Fault Refusal :=
  s.lane2 g d a b (fun A B => A.rotateLeft (B.toNat % 32))

/-- IABS (R126): Wrap(|SA|, 32). -/
def execIabs (g : PReg) (d a : VReg) (s : State) : Host.Outcome State Fault Refusal :=
  s.lane1 g d a (fun A => BitVec.ofInt 32 (A.toInt.natAbs : Int))

/-- INEG (R126): Wrap(−SA, 32). -/
def execIneg (g : PReg) (d a : VReg) (s : State) : Host.Outcome State Fault Refusal :=
  s.lane1 g d a (fun A => -A)

/-- POPC (R126). -/
def execPopc (g : PReg) (d a : VReg) (s : State) : Host.Outcome State Fault Refusal :=
  s.lane1 g d a (fun A => BitVec.ofNat 32 (popCount A))

/-- CLZ (R126): 32 for zero. -/
def execClz (g : PReg) (d a : VReg) (s : State) : Host.Outcome State Fault Refusal :=
  s.lane1 g d a (fun A => BitVec.ofNat 32 (leadingZeros A))

/-- CTZ (R126): 32 for zero. -/
def execCtz (g : PReg) (d a : VReg) (s : State) : Host.Outcome State Fault Refusal :=
  s.lane1 g d a (fun A => BitVec.ofNat 32 (trailingZeros A))

/-- BREV (R126): bit i to bit 31 − i. -/
def execBrev (g : PReg) (d a : VReg) (s : State) : Host.Outcome State Fault Refusal :=
  s.lane1 g d a (fun A => A.reverse)

/-- BFE (R127). -/
def execBfe (g : PReg) (d a b : VReg) (s : State) : Host.Outcome State Fault Refusal :=
  s.lane2 g d a b (fun A B => bfeOf A B)

/-- BFI (R127): reads D. -/
def execBfi (g : PReg) (d a b : VReg) (s : State) : Host.Outcome State Fault Refusal :=
  s.lane3 g d a b (fun A B D => bfiOf A B D)

/-- IADDS_I (R126). -/
def execIaddsI (g : PReg) (d a b : VReg) (s : State) : Host.Outcome State Fault Refusal :=
  s.lane2 g d a b (fun A B => clamp32 (A.toInt + B.toInt) i32Min i32Max)

/-- ISUBS_I (R126). -/
def execIsubsI (g : PReg) (d a b : VReg) (s : State) : Host.Outcome State Fault Refusal :=
  s.lane2 g d a b (fun A B => clamp32 (A.toInt - B.toInt) i32Min i32Max)

/-- IADDS_N (R126). -/
def execIaddsN (g : PReg) (d a b : VReg) (s : State) : Host.Outcome State Fault Refusal :=
  s.lane2 g d a b (fun A B => clamp32 ((A.toNat : Int) + B.toNat) 0 n32Max)

/-- ISUBS_N (R126). -/
def execIsubsN (g : PReg) (d a b : VReg) (s : State) : Host.Outcome State Fault Refusal :=
  s.lane2 g d a b (fun A B => clamp32 ((A.toNat : Int) - B.toNat) 0 n32Max)

/-- IMAD (R126): reads D. -/
def execImad (g : PReg) (d a b : VReg) (s : State) : Host.Outcome State Fault Refusal :=
  s.lane3 g d a b (fun A B D => A * B + D)

/-- MOV (R126): A, with the source lane's tag (R290). -/
def execMov (g : PReg) (d a : VReg) (s : State) : Host.Outcome State Fault Refusal :=
  s.laneInt g d (fun t l => readV t a.toNat l) (fun t l => tagV t a.toNat l)

/-- IADDI (R128): Wrap(SA + I, 32); tags by R290. -/
def execIaddi (g : PReg) (d a : VReg) (imm : BitVec 13) (s : State) : Host.Outcome State Fault Refusal :=
  s.laneInt g d (fun t l => readV t a.toNat l + imm.signExtend 32)
    (fun t l => addTag (tagV t a.toNat l) .plan 0#64 (imm.signExtend 64))

/-- IANDI (R128). -/
def execIandi (g : PReg) (d a : VReg) (imm : BitVec 13) (s : State) : Host.Outcome State Fault Refusal :=
  s.lane1 g d a (fun A => A &&& imm.signExtend 32)

/-- IORI (R128). -/
def execIori (g : PReg) (d a : VReg) (imm : BitVec 13) (s : State) : Host.Outcome State Fault Refusal :=
  s.lane1 g d a (fun A => A ||| imm.signExtend 32)

/-- IXORI (R128). -/
def execIxori (g : PReg) (d a : VReg) (imm : BitVec 13) (s : State) : Host.Outcome State Fault Refusal :=
  s.lane1 g d a (fun A => A ^^^ imm.signExtend 32)

/-- ISHLI (R128). -/
def execIshli (g : PReg) (d a : VReg) (imm : BitVec 13) (s : State) : Host.Outcome State Fault Refusal :=
  s.lane1 g d a (fun A => A <<< imm.toNat)

/-- ISHRI (R128). -/
def execIshri (g : PReg) (d a : VReg) (imm : BitVec 13) (s : State) : Host.Outcome State Fault Refusal :=
  s.lane1 g d a (fun A => A >>> imm.toNat)

/-- ISRAI (R128). -/
def execIsrai (g : PReg) (d a : VReg) (imm : BitVec 13) (s : State) : Host.Outcome State Fault Refusal :=
  s.lane1 g d a (fun A => A.sshiftRight imm.toNat)

/-- IMULI (R128). -/
def execImuli (g : PReg) (d a : VReg) (imm : BitVec 13) (s : State) : Host.Outcome State Fault Refusal :=
  s.lane1 g d a (fun A => A * imm.signExtend 32)

/-- MOVK (R129): the sign-extended constant; PLAN (R290). -/
def execMovk (g : PReg) (d : VReg) (imm : BitVec 20) (s : State) : Host.Outcome State Fault Refusal :=
  s.laneInt g d (fun _ _ => imm.signExtend 32) (fun _ _ => .plan)

/-- MOVH (R129): D shifted left by 20 bits and the constant; PLAN (R290). -/
def execMovh (g : PReg) (d : VReg) (imm : BitVec 20) (s : State) : Host.Outcome State Fault Refusal :=
  s.laneInt g d (fun t l => (readV t d.toNat l <<< (20 : Nat)) + imm.zeroExtend 32) (fun _ _ => .plan)

/-- MOVK_S (R129): the sign-extended constant into s[d]. -/
def execMovkS (d : SReg) (imm : BitVec 20) (s : State) : Host.Outcome State Fault Refusal :=
  s.scalarOp d (fun _ => imm.signExtend 64) (fun _ => .plan)

/-- MOVH_S (R129): s[d] shifted left by 20 bits and the constant. -/
def execMovhS (d : SReg) (imm : BitVec 20) (s : State) : Host.Outcome State Fault Refusal :=
  s.scalarOp d (fun t => (readS t d.toNat <<< (20 : Nat)) + imm.zeroExtend 64) (fun _ => .plan)

/-- CEQ (R130). -/
def execCeq (g p : PReg) (a b : VReg) (s : State) : Host.Outcome State Fault Refusal :=
  s.laneCmp g p a b (fun A B => A == B) (fun _ _ => 0#5)

/-- CNE (R130). -/
def execCne (g p : PReg) (a b : VReg) (s : State) : Host.Outcome State Fault Refusal :=
  s.laneCmp g p a b (fun A B => A != B) (fun _ _ => 0#5)

/-- CLT_I (R130). -/
def execCltI (g p : PReg) (a b : VReg) (s : State) : Host.Outcome State Fault Refusal :=
  s.laneCmp g p a b (fun A B => decide (A.toInt < B.toInt)) (fun _ _ => 0#5)

/-- CLE_I (R130). -/
def execCleI (g p : PReg) (a b : VReg) (s : State) : Host.Outcome State Fault Refusal :=
  s.laneCmp g p a b (fun A B => decide (A.toInt ≤ B.toInt)) (fun _ _ => 0#5)

/-- CLT_N (R130). -/
def execCltN (g p : PReg) (a b : VReg) (s : State) : Host.Outcome State Fault Refusal :=
  s.laneCmp g p a b (fun A B => decide (A.toNat < B.toNat)) (fun _ _ => 0#5)

/-- CLE_N (R130). -/
def execCleN (g p : PReg) (a b : VReg) (s : State) : Host.Outcome State Fault Refusal :=
  s.laneCmp g p a b (fun A B => decide (A.toNat ≤ B.toNat)) (fun _ _ => 0#5)

/-- FCEQ (R130). -/
def execFceq (g p : PReg) (a b : VReg) (s : State) : Host.Outcome State Fault Refusal :=
  s.laneCmp g p a b (fun A B => !unordered A B && cmp32 A B == 0) (cmpNv true)

/-- FCNE (R130): true when either is a NaN. -/
def execFcne (g p : PReg) (a b : VReg) (s : State) : Host.Outcome State Fault Refusal :=
  s.laneCmp g p a b (fun A B => unordered A B || cmp32 A B != 0) (cmpNv true)

/-- FCLT (R130): false when either is a NaN. -/
def execFclt (g p : PReg) (a b : VReg) (s : State) : Host.Outcome State Fault Refusal :=
  s.laneCmp g p a b (fun A B => !unordered A B && cmp32 A B == -1) (cmpNv false)

/-- FCLE (R130): false when either is a NaN. -/
def execFcle (g p : PReg) (a b : VReg) (s : State) : Host.Outcome State Fault Refusal :=
  s.laneCmp g p a b (fun A B => !unordered A B && cmp32 A B != 1) (cmpNv false)

/-- FCUN (R130). -/
def execFcun (g p : PReg) (a b : VReg) (s : State) : Host.Outcome State Fault Refusal :=
  s.laneCmp g p a b (fun A B => unordered A B) (cmpNv true)

/-- PAND (R131). -/
def execPand (g d a b : PReg) (s : State) : Host.Outcome State Fault Refusal :=
  s.lanePred g d [a, b] (fun x => x.getD 0 false && x.getD 1 false)

/-- POR (R131). -/
def execPor (g d a b : PReg) (s : State) : Host.Outcome State Fault Refusal :=
  s.lanePred g d [a, b] (fun x => x.getD 0 false || x.getD 1 false)

/-- PXOR (R131). -/
def execPxor (g d a b : PReg) (s : State) : Host.Outcome State Fault Refusal :=
  s.lanePred g d [a, b] (fun x => x.getD 0 false != x.getD 1 false)

/-- PNOT (R131). -/
def execPnot (g d a : PReg) (s : State) : Host.Outcome State Fault Refusal :=
  s.lanePred g d [a] (fun x => !x.getD 0 false)

/-- PMOV (R131). -/
def execPmov (g d a : PReg) (s : State) : Host.Outcome State Fault Refusal :=
  s.lanePred g d [a] (fun x => x.getD 0 false)

end Sys2Proof.Machine
end

