-- ==== Sys2Proof/Machine/LaneFp.lean ====
section
/-! DEFINITION. The FP32 and packed 16-bit lane instructions, majors 0x07 and 0x08 (R132 to R137). -/

namespace Sys2Proof.Machine
open Sys2Proof

/-- minimumNumber (`lo` true) or maximumNumber of two patterns (R133): −0 orders below +0, a NaN loses to a number, a
signalling NaN sets NV. -/
def minMax (f : Fmt) (lo : Bool) (a b : Nat) : FRes :=
  let x := f.dec a
  let y := f.dec b
  let fl : Flags := if x.isSnan || y.isSnan then flNV else 0#5
  if x.isNan && y.isNan then (firstNan f [x, y]).getD { x := 0 }
  else if x.isNan then { x := b, fl := fl }
  else if y.isNan then { x := a, fl := fl }
  else
    let c := fCmp x y
    let aLess := c == -1 || (c == 0 && x.neg? && !y.neg?)
    let bLess := c == 1 || (c == 0 && y.neg? && !x.neg?)
    if lo then { x := if bLess then b else a } else { x := if aLess then b else a }

/-- Rounding to an integral value of the format, exact flags only (R134). -/
def toIntegral (f : Fmt) (mode : RMode) (a : Nat) : FRes :=
  match f.dec a with
  | .nan n q w p => (firstNan f [.nan n q w p]).getD { x := 0 }
  | .inf _ => { x := a }
  | .fin n m e => if m = 0 then { x := a } else { x := (roundFin f .rne false n (roundTo mode n m e 0).1 0).x }

/-- Element `e` of a packed pair (R101). -/
def half (e : Nat) (x : Nat) : Nat := x / 2 ^ (16 * e) % 65536

/-- Both elements of a packed result (R136). -/
def pair2 (f : Nat → FRes) : FRes := { x := (f 0).x + 65536 * (f 1).x, fl := (f 0).fl ||| (f 1).fl }

/-- The packed format: FP16 when `hf` is set, else BF16 (R136). -/
def packFmt (hf : Bool) : Fmt := if hf then fp16 else bf16

/-- FADD (R132). -/
def execFadd (g : PReg) (d a b : VReg) (s : State) : Host.Outcome State Fault Refusal :=
  s.fp2 g d a b (fun m A B => fAdd fp32 m (fp32.dec A) (fp32.dec B))

/-- FSUB (R132). -/
def execFsub (g : PReg) (d a b : VReg) (s : State) : Host.Outcome State Fault Refusal :=
  s.fp2 g d a b (fun m A B => fSub fp32 m (fp32.dec A) (fp32.dec B))

/-- FMUL (R132). -/
def execFmul (g : PReg) (d a b : VReg) (s : State) : Host.Outcome State Fault Refusal :=
  s.fp2 g d a b (fun m A B => fMul fp32 m (fp32.dec A) (fp32.dec B))

/-- FFMA (R132): reads D, one rounding. -/
def execFfma (g : PReg) (d a b : VReg) (s : State) : Host.Outcome State Fault Refusal :=
  s.fp3 g d a b (fun m A B D => fFma fp32 m (fp32.dec A) (fp32.dec B) (fp32.dec D))

/-- FMIN (R133). -/
def execFmin (g : PReg) (d a b : VReg) (s : State) : Host.Outcome State Fault Refusal :=
  s.fp2 g d a b (fun _ A B => minMax fp32 true A B)

/-- FMAX (R133). -/
def execFmax (g : PReg) (d a b : VReg) (s : State) : Host.Outcome State Fault Refusal :=
  s.fp2 g d a b (fun _ A B => minMax fp32 false A B)

/-- FABS (R132): bit 31 cleared. -/
def execFabs (g : PReg) (d a : VReg) (s : State) : Host.Outcome State Fault Refusal :=
  s.lane1 g d a (fun A => A &&& 0x7FFFFFFF#32)

/-- FNEG (R132): bit 31 inverted. -/
def execFneg (g : PReg) (d a : VReg) (s : State) : Host.Outcome State Fault Refusal :=
  s.lane1 g d a (fun A => A ^^^ 0x80000000#32)

/-- FDIV (R132, R135): long-latency. -/
def execFdiv (g : PReg) (d a b : VReg) (la : BitVec 4) (s : State) : Host.Outcome State Fault Refusal :=
  s.laneLong g d la (fun t _ l => fDiv fp32 (rmode (rmOf t).toNat) (fp32.dec (readV t a.toNat l).toNat) (fp32.dec (readV t b.toNat l).toNat))
    (fun t _ l => joinTags [tagV t a.toNat l, tagV t b.toNat l])

/-- FSQRT (R132, R135): long-latency. -/
def execFsqrt (g : PReg) (d a : VReg) (la : BitVec 4) (s : State) : Host.Outcome State Fault Refusal :=
  s.laneLong g d la (fun t _ l => fSqrt fp32 (rmode (rmOf t).toNat) (fp32.dec (readV t a.toNat l).toNat))
    (fun t _ l => joinTags [tagV t a.toNat l])

/-- FFLOOR (R134). -/
def execFfloor (g : PReg) (d a : VReg) (s : State) : Host.Outcome State Fault Refusal :=
  s.fp1 g d a (fun _ A => toIntegral fp32 .rdn A)

/-- FCEIL (R134). -/
def execFceil (g : PReg) (d a : VReg) (s : State) : Host.Outcome State Fault Refusal :=
  s.fp1 g d a (fun _ A => toIntegral fp32 .rup A)

/-- FTRUNC (R134). -/
def execFtrunc (g : PReg) (d a : VReg) (s : State) : Host.Outcome State Fault Refusal :=
  s.fp1 g d a (fun _ A => toIntegral fp32 .rtz A)

/-- FROUND (R134). -/
def execFround (g : PReg) (d a : VReg) (s : State) : Host.Outcome State Fault Refusal :=
  s.fp1 g d a (fun _ A => toIntegral fp32 .rne A)

/-- FCOPYSIGN (R132). -/
def execFcopysign (g : PReg) (d a b : VReg) (s : State) : Host.Outcome State Fault Refusal :=
  s.lane2 g d a b (fun A B => (A &&& 0x7FFFFFFF#32) ||| (B &&& 0x80000000#32))

/-- HADD2 (R136). -/
def execHadd2 (g : PReg) (d a b : VReg) (hf : Bool) (s : State) : Host.Outcome State Fault Refusal :=
  s.fp2 g d a b (fun m A B => pair2 (fun e => fAdd (packFmt hf) m ((packFmt hf).dec (half e A)) ((packFmt hf).dec (half e B))))

/-- HSUB2 (R136). -/
def execHsub2 (g : PReg) (d a b : VReg) (hf : Bool) (s : State) : Host.Outcome State Fault Refusal :=
  s.fp2 g d a b (fun m A B => pair2 (fun e => fSub (packFmt hf) m ((packFmt hf).dec (half e A)) ((packFmt hf).dec (half e B))))

/-- HMUL2 (R136). -/
def execHmul2 (g : PReg) (d a b : VReg) (hf : Bool) (s : State) : Host.Outcome State Fault Refusal :=
  s.fp2 g d a b (fun m A B => pair2 (fun e => fMul (packFmt hf) m ((packFmt hf).dec (half e A)) ((packFmt hf).dec (half e B))))

/-- HFMA2 (R136): reads D. -/
def execHfma2 (g : PReg) (d a b : VReg) (hf : Bool) (s : State) : Host.Outcome State Fault Refusal :=
  s.fp3 g d a b (fun m A B D => pair2 (fun e =>
    fFma (packFmt hf) m ((packFmt hf).dec (half e A)) ((packFmt hf).dec (half e B)) ((packFmt hf).dec (half e D))))

/-- HMIN2 (R136). -/
def execHmin2 (g : PReg) (d a b : VReg) (hf : Bool) (s : State) : Host.Outcome State Fault Refusal :=
  s.fp2 g d a b (fun _ A B => pair2 (fun e => minMax (packFmt hf) true (half e A) (half e B)))

/-- HMAX2 (R136). -/
def execHmax2 (g : PReg) (d a b : VReg) (hf : Bool) (s : State) : Host.Outcome State Fault Refusal :=
  s.fp2 g d a b (fun _ A B => pair2 (fun e => minMax (packFmt hf) false (half e A) (half e B)))

/-- HCVT2 (R137): element 0 from A, element 1 from B. -/
def execHcvt2 (g : PReg) (d a b : VReg) (hf : Bool) (s : State) : Host.Outcome State Fault Refusal :=
  s.fp2 g d a b (fun m A B => pair2 (fun e => convInto (packFmt hf) m false (fp32.dec (if e = 0 then A else B))))

end Sys2Proof.Machine
end

