-- ==== Sys2Proof/Machine/LanePack.lean ====
section
/-! DEFINITION. The conversions, dot products and scaling of majors 0x09 and 0x0A (R138 to R144), with the block narrowing
of R111. -/

namespace Sys2Proof.Machine
open Sys2Proof

/-- FP32 to an integer within [lo, hi] (R139, R140): a NaN gives 0 with NV; a clamp sets NV, or NX when saturating. -/
def toInteger (mode : RMode) (sat : Bool) (lo hi : Int) (a : Nat) : Int × Flags :=
  match fp32.dec a with
  | .nan .. => (0, flNV)
  | .inf n => (if n then lo else hi, if sat then flNX else flNV)
  | .fin n m e =>
    let (k, inx) := roundInt mode n m e
    if k < lo then (lo, if sat then flNX else flNV)
    else if hi < k then (hi, if sat then flNX else flNV)
    else (k, if inx then flNX else 0#5)

/-- An integer to FP32 in a mode (R139). -/
def fromInteger (mode : RMode) (x : Int) : FRes := roundFin fp32 mode false (decide (x < 0)) x.natAbs 0

/-- A narrowing result in [15:0]. -/
def cvtNarrow (f : Fmt) (mode : RMode) (sat : Bool) (a : Nat) : FRes := convInto f mode sat (fp32.dec a)

/-- Widening to FP32: exact, NV for a signalling NaN only (R138). -/
def widen (f : Fmt) (x : Nat) : FRes := convInto fp32 .rne false (f.decNan x)

/-- The value of a block element (R108, R109): `c` is 6 for NB8, 2 for NB4. The least element under X = 0xFE and m = 0 has the value
−2^128, which is no finite FP32 number: the model gives minus infinity, with no flag (log 75). -/
def nbValue (c : Int) (q : Int) (x : Nat) (m : Nat) : FRes :=
  if x = 0xFF then { x := 0x7FC00000 }
  else if q = 0 then { x := 0 }
  else { x := (roundFin fp32 .rne false (decide (q < 0)) q.natAbs ((x : Int) - 127 - m - c)).x }

/-- EB(x) (R103): the biased exponent, 1 for a nonzero subnormal, 0 for a zero. -/
def ebOf (x : Nat) : Nat :=
  let e := x / 2 ^ 23 % 256
  if e = 0 then (if x % 2 ^ 23 = 0 then 0 else 1) else e

/-- A narrowed block: X, the micro byte, the elements, the flags. -/
structure Block where
  x : Nat
  micro : Nat
  q : List Int
  fl : Flags
  deriving DecidableEq, Repr

/-- One pair's micro-exponent (R111): both magnitudes lie below 2^(X − 127). -/
def microBit (x a b : Nat) : Bool :=
  let below := fun v =>
    match fp32.dec v with
    | .fin _ m e => m == 0 || (let q := (x : Int) - 127; if q ≤ e then decide (m * 2 ^ (e - q).toNat < 1) else decide (m < 2 ^ (q - e).toNat))
    | _ => false
  below a && below b

/-- The loop of R111 over the elements, in ascending order: `e` is the residual, an FP32 pattern. -/
def narrowLoop (fb : Bool) (c : Int) (lo hi : Int) (x micro : Nat) : Nat → Nat → List Nat → List Int × Flags
  | _, _, [] => ([], 0#5)
  | i, e, v :: vs =>
    let mj : Nat := micro / 2 ^ (i / 2) % 2
    let sc : Int := (x : Int) - 127 - mj - c
    -- tt as an FP32 pattern, held within ±MAXF
    let tt : Nat :=
      if fb then
        let r := (fAdd fp32 .rne (fp32.dec v) (fp32.dec e)).x
        if r % 2 ^ 31 = 0x7F800000 then fp32.maxBits (decide (2 ^ 31 ≤ r)) else r
      else v
    match fp32.dec tt with
    | .fin n m ex =>
      -- q = Clamp(RoundInt(tt / sc)): the multiple of 2^sc nearest to tt
      let (k, _) := roundTo .rne n m ex sc
      let q := clampInt (signedInt n k) lo hi
      -- tt − q · 2^sc, exactly
      let (dn, de) := exactAdd n m ex (decide (0 < q)) q.natAbs sc
      let res := if dn = 0 then 0 else (roundFin fp32 .rne false (decide (dn < 0)) dn.natAbs de).x
      let (qs, fl) := narrowLoop fb c lo hi x micro (i + 1) res vs
      (q :: qs, fl ||| (if dn = 0 then 0#5 else flNX))
    | _ =>
      let (qs, fl) := narrowLoop fb c lo hi x micro (i + 1) 0 vs
      (0 :: qs, fl)

/-- NarrowBlock (R111) on sixteen FP32 patterns. -/
def narrowBlock (nb8 fb : Bool) (xs : List Nat) : Block :=
  if xs.any (fun v => (fp32.dec v).isNan || (fp32.dec v).isInf) then
    { x := 0xFF, micro := 0, q := List.replicate 16 0, fl := flNV }
  else
    let x := xs.foldl (fun a v => max a (ebOf v)) 0
    let micro := (List.range 8).foldl (fun a j => if microBit x (xs.getD (2 * j) 0) (xs.getD (2 * j + 1) 0) then a + 2 ^ j else a) 0
    let c : Int := if nb8 then 6 else 2
    let lo : Int := if nb8 then -128 else -8
    let hi : Int := if nb8 then 127 else 7
    let (q, fl) := narrowLoop fb c lo hi x micro 0 0 xs
    { x := x, micro := micro, q := q, fl := fl }

/-- The block of the group with base `g`, inactive lanes as +0 (R141). -/
def groupBlock (t : Str) (m : Word32) (a g : Nat) (nb8 fb : Bool) : Block :=
  narrowBlock nb8 fb ((List.range 16).map (fun i => if m.getLsbD (g + i) then (readV t a (g + i)).toNat else 0))

/-- The narrowing instructions (R141): v[d] takes q, v[d+1] the scale word, in each active lane. The block's flags are charged to every
active lane of its group, so that xtcause.LANE names the lowest of them (R205, log 96). -/
def State.narrow (s : State) (g : PReg) (d a : VReg) (nb8 fb : Bool) : Host.Outcome State Fault Refusal :=
  s.onHead (fun t bu =>
    let m := activeMask bu g
    let ls := lanesOf m
    let b0 := groupBlock bu.lat m a.toNat 0 nb8 fb
    let b1 := groupBlock bu.lat m a.toNat 16 nb8 fb
    let blk := fun l => if l < 16 then b0 else b1
    let tag := fun l => joinTags ((ls.filter (fun k => k / 16 == l / 16)).map (fun k => tagV bu.lat a.toNat k))
    s.withFlags t bu (ls.map (fun l => (l, (blk l).fl)))
      (fun s =>
        let s := s.writeLanes bu g d.toNat ls (fun l => BitVec.ofInt 32 ((blk l).q.getD (l % 16) 0)) tag
        s.writeLanes bu g (d.toNat + 1) ls (fun l => BitVec.ofNat 32 ((blk l).x + 256 * (blk l).micro)) tag))

/-- The widening of a block element (R142). -/
def nbWiden (t : Str) (a l : Nat) (nb8 : Bool) : FRes :=
  let w := readV t a l
  let q : Int := if nb8 then (w.extractLsb' 0 8).toInt else (w.extractLsb' 0 4).toInt
  let sc := (readV t (a + 1) l).toNat
  nbValue (if nb8 then 6 else 2) q (sc % 256) (sc / 256 % 256 / 2 ^ (l % 16 / 2) % 2)

/-- CVT (R138, R139, R141, R142). -/
def execCvt (g : PReg) (d a : VReg) (sel : BitVec 6) (s : State) : Host.Outcome State Fault Refusal :=
  let mode := rmode (selMode sel)
  let one := fun (f : Nat → FRes) => s.fp1 g d a (fun _ A => f A)
  match selCode sel with
  | 0 => one (fun A => let (k, fl) := toInteger mode false i32Min i32Max A; { x := (BitVec.ofInt 32 k).toNat, fl := fl })
  | 1 => one (fun A => let (k, fl) := toInteger mode false 0 n32Max A; { x := (BitVec.ofInt 32 k).toNat, fl := fl })
  | 2 => one (fun A => fromInteger mode (BitVec.ofNat 32 A).toInt)
  | 3 => one (fun A => fromInteger mode A)
  | 4 => one (fun A => cvtNarrow bf16 mode false A)
  | 5 => one (fun A => cvtNarrow fp16 mode false A)
  | 6 => one (fun A => widen bf16 (A % 65536))
  | 7 => one (fun A => widen fp16 (A % 65536))
  | 8 => s.narrow g d a true false
  | 9 => s.narrow g d a false false
  | 10 => s.laneOp g d (fun t l => nbWiden t a.toNat l true) (fun t l => joinTags [tagV t a.toNat l, tagV t (a.toNat + 1) l])
  | _ => s.laneOp g d (fun t l => nbWiden t a.toNat l false) (fun t l => joinTags [tagV t a.toNat l, tagV t (a.toNat + 1) l])

/-- CVT_SAT (R139): codes 0, 1, 4 and 5. -/
def execCvtSat (g : PReg) (d a : VReg) (sel : BitVec 6) (s : State) : Host.Outcome State Fault Refusal :=
  let mode := rmode (selMode sel)
  let one := fun (f : Nat → FRes) => s.fp1 g d a (fun _ A => f A)
  match selCode sel with
  | 0 => one (fun A => let (k, fl) := toInteger mode true i32Min i32Max A; { x := (BitVec.ofInt 32 k).toNat, fl := fl })
  | 1 => one (fun A => let (k, fl) := toInteger mode true 0 n32Max A; { x := (BitVec.ofInt 32 k).toNat, fl := fl })
  | 4 => one (fun A => satFl A (cvtNarrow bf16 mode true A))
  | _ => one (fun A => satFl A (cvtNarrow fp16 mode true A))
where
  /-- an infinity that is clamped sets NX -/
  satFl (A : Nat) (r : FRes) : FRes := if (fp32.dec A).isInf then { r with fl := flNX } else r

/-- CVT_EF (R141): narrowing with error feedback. -/
def execCvtEf (g : PReg) (d a : VReg) (sel : BitVec 6) (s : State) : Host.Outcome State Fault Refusal :=
  s.narrow g d a (selCode sel == 8) true

/-- The element that a pack selector makes, with its width (R140). -/
def packElem (fmt : Nat) (mode : RMode) (a : Nat) : FRes × Nat :=
  let v := fp32.dec a
  match fmt with
  | 0 => (convInto e4m3 mode false v, 8)
  | 1 => (convInto e5m2 mode false v, 8)
  | 2 => (convInto e2m1 mode false v, 4)
  | 3 => (let (k, fl) := toInteger mode false (-128) 127 a; { x := (BitVec.ofInt 8 k).toNat, fl := fl }, 8)
  | 4 => (let (k, fl) := toInteger mode false (-8) 7 a; { x := (BitVec.ofInt 4 k).toNat, fl := fl }, 4)
  | 5 => (convInto bf16 mode false v, 16)
  | _ => (convInto fp16 mode false v, 16)

/-- CVT_PACK (R140): pack shifts an element into D from below; unpack widens an element of A. -/
def execCvtPack (g : PReg) (d a : VReg) (sel : BitVec 6) (s : State) : Host.Outcome State Fault Refusal :=
  if sel.toNat < 32 then
    s.laneOp g d
      (fun t l =>
        let (r, w) := packElem (sel.toNat % 8) (rmode (sel.toNat / 8)) (readV t a.toNat l).toNat
        { x := ((readV t d.toNat l).toNat * 2 ^ w + r.x) % 2 ^ 32, fl := r.fl })
      (fun t l => joinTags [tagV t a.toNat l, tagV t d.toNat l])
  else
    let i := (sel.toNat / 4) % 8
    s.fp1 g d a (fun _ A =>
      match sel.toNat % 4 with
      | 0 => widen e4m3 (A / 2 ^ (8 * i) % 256)
      | 1 => widen e5m2 (A / 2 ^ (8 * i) % 256)
      | _ => widen e2m1 (A / 2 ^ (4 * i) % 16))

/-- The signed or unsigned integer dot product of `n` elements of `w` bits (R143). -/
def dotInt (signed : Bool) (n w : Nat) (a b d : Word32) : Word32 :=
  let el := fun (x : Word32) i =>
    let e := x.toNat / 2 ^ (w * i) % 2 ^ w
    if signed && decide (2 ^ (w - 1) ≤ e) then (e : Int) - 2 ^ w else (e : Int)
  BitVec.ofInt 32 (d.toInt + (List.range n).foldl (fun acc i => acc + el a i * el b i) 0)

/-- The exact sum of a list of finite values as a multiple of 2^e (the least exponent among them). -/
def exactSum (vs : List (Bool × Nat × Int)) : Int × Int :=
  let e := vs.foldl (fun a v => if v.2.2 < a then v.2.2 else a) 0
  (vs.foldl (fun a v => a + signedInt v.1 v.2.1 * 2 ^ (v.2.2 - e).toNat) 0, e)

/-- The float dot product of `n` elements of format `f` added to D and rounded once (R143). A NaN beside a product of an infinity and
a zero, or beside infinite terms of opposite signs, gives the NaN's result, with NV for the product and without it for the terms
(log 77). -/
def dotFp (f : Fmt) (n w : Nat) (mode : RMode) (a b d : Nat) : FRes :=
  let el := fun x i => f.decNan (x / 2 ^ (w * i) % 2 ^ w)
  let as := (List.range n).map (el a)
  let bs := (List.range n).map (el b)
  let D := fp32.dec d
  let prods := as.zip bs
  let bad := prods.any (fun p => (p.1.isInf && p.2.isZero) || (p.1.isZero && p.2.isInf))
  match firstNan fp32 (as ++ bs ++ [D]) with
  | some r => if bad then { r with fl := r.fl ||| flNV } else r
  | none =>
    let infs := (prods.filter (fun p => p.1.isInf || p.2.isInf)).map (fun p => xor p.1.neg? p.2.neg?) ++
                  (if D.isInf then [D.neg?] else [])
    if bad || (infs.any (fun x => x) && infs.any (fun x => !x)) then invalid fp32
    else
      match infs with
      | n :: _ => { x := fp32.infBits n }
      | [] =>
        let fin := prods.map (fun p =>
          match p.1, p.2 with
          | .fin n1 m1 e1, .fin n2 m2 e2 => (xor n1 n2, m1 * m2, e1 + e2)
          | _, _ => (false, 0, 0)) ++ (match D with | .fin n m e => [(n, m, e)] | _ => [])
        let neg0 := if fin.all (fun v => v.1) then true else if fin.all (fun v => !v.1) then false else mode == .rdn
        roundSum fp32 mode neg0 (exactSum fin)

/-- DP4_I8 (R143). -/
def execDp4I8 (g : PReg) (d a b : VReg) (s : State) : Host.Outcome State Fault Refusal :=
  s.lane3 g d a b (fun A B D => dotInt true 4 8 A B D)

/-- DP4_N8 (R143). -/
def execDp4N8 (g : PReg) (d a b : VReg) (s : State) : Host.Outcome State Fault Refusal :=
  s.lane3 g d a b (fun A B D => dotInt false 4 8 A B D)

/-- DP8_I4 (R143). -/
def execDp8I4 (g : PReg) (d a b : VReg) (s : State) : Host.Outcome State Fault Refusal :=
  s.lane3 g d a b (fun A B D => dotInt true 8 4 A B D)

/-- DP4_E4M3 (R143). -/
def execDp4E4m3 (g : PReg) (d a b : VReg) (s : State) : Host.Outcome State Fault Refusal :=
  s.fp3 g d a b (fun m A B D => dotFp e4m3 4 8 m A B D)

/-- DP4_E5M2 (R143). -/
def execDp4E5m2 (g : PReg) (d a b : VReg) (s : State) : Host.Outcome State Fault Refusal :=
  s.fp3 g d a b (fun m A B D => dotFp e5m2 4 8 m A B D)

/-- DP8_E2M1 (R143). -/
def execDp8E2m1 (g : PReg) (d a b : VReg) (s : State) : Host.Outcome State Fault Refusal :=
  s.fp3 g d a b (fun m A B D => dotFp e2m1 8 4 m A B D)

/-- F(A) × 2^SB rounded once (R144). A shift beyond every exponent of FP32 is held at ±1,000, which rounds alike. -/
def fScale (mode : RMode) (a : Nat) (b : Int) : FRes :=
  match fp32.dec a with
  | .nan n q w p => (firstNan fp32 [.nan n q w p]).getD { x := 0 }
  | .inf _ => { x := a }
  | .fin n m e => if m = 0 then { x := a } else roundFin fp32 mode false n m (e + clampInt b (-1000) 1000)

/-- FSCL (R144). -/
def execFscl (g : PReg) (d a b : VReg) (s : State) : Host.Outcome State Fault Refusal :=
  s.fp2 g d a b (fun m A B => fScale m A (BitVec.ofNat 32 B).toInt)

end Sys2Proof.Machine
end

