-- ==== Sys2Proof/Machine/LaneCross.lean ====
section
/-! DEFINITION. The cross-lane instructions of major 0x0B (R145 to R149). -/

namespace Sys2Proof.Machine
open Sys2Proof

/-- A source lane: in the control profile every index names lane 0 (R145). -/
def srcLane (t : Str) (l : Nat) : Nat := if t.lanes = 1 then 0 else l

/-- A shuffle: the source lane of each active lane; the source lane's tag goes with it (R146, R290). -/
def State.shuffle (s : State) (g : PReg) (d a : VReg) (src : Str → Nat → Nat) : Host.Outcome State Fault Refusal :=
  s.laneInt g d (fun t l => readV t a.toNat (srcLane t (src t l))) (fun t l => tagV t a.toNat (srcLane t (src t l)))

/-- SHFL (R146). -/
def execShfl (g : PReg) (d a b : VReg) (s : State) : Host.Outcome State Fault Refusal :=
  s.laneInt g d (fun t l => readV t a.toNat (srcLane t ((readV t b.toNat l).toNat % 32)))
    (fun t l => tagV t a.toNat (srcLane t ((readV t b.toNat l).toNat % 32)))

/-- SHUP (R146). -/
def execShup (g : PReg) (d a : VReg) (k : BitVec 5) (s : State) : Host.Outcome State Fault Refusal :=
  s.shuffle g d a (fun _ l => if k.toNat ≤ l then l - k.toNat else l)

/-- SHDN (R146). -/
def execShdn (g : PReg) (d a : VReg) (k : BitVec 5) (s : State) : Host.Outcome State Fault Refusal :=
  s.shuffle g d a (fun _ l => if l + k.toNat ≤ 31 then l + k.toNat else l)

/-- SHX (R146). -/
def execShx (g : PReg) (d a : VReg) (k : BitVec 5) (s : State) : Host.Outcome State Fault Refusal :=
  s.shuffle g d a (fun _ l => l ^^^ k.toNat)

/-- BCAST (R146). -/
def execBcast (g : PReg) (d a : VReg) (k : BitVec 5) (s : State) : Host.Outcome State Fault Refusal :=
  s.shuffle g d a (fun _ _ => k.toNat)

/-- P of R147: the active lanes where the predicate holds. -/
def voteMask (bu : Bun) (g p : PReg) : Word32 := activeMask bu g &&& readP bu.lat p.toNat

/-- The tag of a vote: its sources are the predicate's active lanes (R290). -/
def voteTag (bu : Bun) (g p : PReg) : Tag := joinTags ((lanesOf (activeMask bu g)).map (fun l => tagP bu.lat p.toNat l))

/-- BALLOT (R147). -/
def execBallot (g : PReg) (d : VReg) (p : PReg) (s : State) : Host.Outcome State Fault Refusal :=
  s.onHead (fun _ bu => s.writeLanes bu g d.toNat (lanesOf (activeMask bu g)) (fun _ => voteMask bu g p) (fun _ => voteTag bu g p))

/-- VANY (R147). -/
def execVany (g q p : PReg) (s : State) : Host.Outcome State Fault Refusal :=
  s.onHead (fun _ bu => s.writePreds bu g q.toNat (lanesOf (activeMask bu g)) (fun _ => voteMask bu g p != 0#32) (fun _ => voteTag bu g p))

/-- VALL (R147). -/
def execVall (g q p : PReg) (s : State) : Host.Outcome State Fault Refusal :=
  s.onHead (fun _ bu =>
    s.writePreds bu g q.toNat (lanesOf (activeMask bu g)) (fun _ => voteMask bu g p == activeMask bu g) (fun _ => voteTag bu g p))

/-- MPFX (R147): what contributes to a lane are the active lanes below it (R290). -/
def execMpfx (g : PReg) (d : VReg) (p : PReg) (s : State) : Host.Outcome State Fault Refusal :=
  s.onHead (fun _ bu =>
    s.writeLanes bu g d.toNat (lanesOf (activeMask bu g))
      (fun l => BitVec.ofNat 32 (popCount (voteMask bu g p &&& BitVec.ofNat 32 (2 ^ l - 1))))
      (fun l => joinTags (((lanesOf (activeMask bu g)).filter (fun i => decide (i < l))).map (fun i => tagP bu.lat p.toNat i))))

/-- A node of the fixed tree (R149): 2^n lanes from `lo`; absent when none is active. One active lane is the result as it stands, a
signalling NaN among them, with no flag (log 76). -/
def treeNode (comb : Nat → Nat → FRes) (leaf : Nat → Option Nat) : Nat → Nat → Option FRes
  | 0, lo => (leaf lo).map (fun x => { x := x })
  | n + 1, lo =>
    match treeNode comb leaf n lo, treeNode comb leaf n (lo + 2 ^ n) with
    | none, r => r
    | some r, none => some r
    | some a, some b =>
      let c := comb a.x b.x
      some { x := c.x, fl := a.fl ||| b.fl ||| c.fl }

/-- The tree over the active lanes of v[a]. -/
def treeOf (t : Str) (m : Word32) (a : Nat) (comb : Nat → Nat → FRes) : FRes :=
  (treeNode comb (fun l => if m.getLsbD l then some (readV t a l).toNat else none) 5 0).getD { x := 0 }

/-- A reduction: every active lane receives one result (R148). The flags of a float tree's nodes are charged to every active lane, so that
xtcause.LANE names the lowest of them: no rule names a lane for a node of the tree (R205, log 96). -/
def State.reduce (s : State) (g : PReg) (d a : VReg) (la : BitVec 4) (f : Str → Word32 → FRes) :
    Host.Outcome State Fault Refusal :=
  s.laneLong g d la (fun t m _ => f t m) (fun t m _ => joinTags ((lanesOf m).map (fun l => tagV t a.toNat l)))

/-- REDADD_I (R148). -/
def execRedaddI (g : PReg) (d a : VReg) (la : BitVec 4) (s : State) : Host.Outcome State Fault Refusal :=
  s.reduce g d a la (fun t m => { x := ((lanesOf m).foldl (fun acc l => acc + readV t a.toNat l) 0#32).toNat })

/-- REDMAX_I (R148). -/
def execRedmaxI (g : PReg) (d a : VReg) (la : BitVec 4) (s : State) : Host.Outcome State Fault Refusal :=
  s.reduce g d a la (fun t m =>
    { x := ((lanesOf m).foldl (fun acc l => if acc.toInt < (readV t a.toNat l).toInt then readV t a.toNat l else acc) 0x80000000#32).toNat })

/-- REDADD_F (R149). -/
def execRedaddF (g : PReg) (d a : VReg) (la : BitVec 4) (s : State) : Host.Outcome State Fault Refusal :=
  s.reduce g d a la (fun t m => treeOf t m a.toNat (fun x y => fAdd fp32 (rmode (rmOf t).toNat) (fp32.dec x) (fp32.dec y)))

/-- REDMAX_F (R149). -/
def execRedmaxF (g : PReg) (d a : VReg) (la : BitVec 4) (s : State) : Host.Outcome State Fault Refusal :=
  s.reduce g d a la (fun t m => treeOf t m a.toNat (fun x y => minMax fp32 false x y))

end Sys2Proof.Machine
end

