-- ==== Sys2Proof/Machine/Tickets.lean ====
section
/-! DEFINITION. Fault tickets at the requester and at the owner (R309 to R317), the servicing of a page (R312, R362), and
replicas (R169). -/

namespace Sys2Proof.Machine
open Sys2Proof

/-! ### Frames of granary -/

/-- A free frame of the domains, outside the device-OS region. -/
def freeFrame (s : State) (m : BitVec 8) : Option Nat :=
  ((List.range (s.pages.length + areaFrames s + 1)).map (fun i => osPages + i)).find? (fun f => decide (f < frameCount) && !frameUsed s m f)

/-- Zero a range of a memory. -/
def zeroRange (m : Memory) (a n : Nat) : Memory := m.filter (fun c => decide (c.1 < a) || decide (a + n ≤ c.1))

/-- Zero a frame of a domain; its lines are zero lines (R122). -/
def zeroFrame (s : State) (dom f : Nat) : State :=
  let a := dom * 2 ^ 38 + f * 65536
  { s with gran := zeroRange s.gran a 65536,
           lineFault := s.lineFault.filter (fun (x : Nat × Nat × Bool) => decide (x.1 * 128 < a) || decide (a + 65536 ≤ x.1 * 128)) }

/-- Give a page without an owner entry a zeroed frame in the domains of a mask (R344, R362). -/
def givePage (s : State) (ctx page prim : Nat) (m : BitVec 8) : Option State :=
  (freeFrame s m).map (fun f =>
    let s := (domainsOf m).foldl (fun s d => zeroFrame s d f) s
    { s with pages := s.pages ++ [{ ctx := ctx, page := page, prim := prim, rmask := m, frame := f }] })

/-! ### Late traps -/

/-- The string stands at the first bundle of its handler, has issued nothing there, and waits on nothing, so that it may have trapped in this
clock. -/
def atHandler (t : Str) : Bool :=
  t.wait == .none && t.holdA == .none && t.holdB == .none && t.waitX.isNone && !t.idleA && !t.idleB && t.inTrap && tm0 t &&
    (slotOf t t.hB).any (fun (p : Path) => p.pc == t.xtvec) && t.undo.isEmpty && t.slotA == t.rp.a && t.slotB == t.rp.b

/-- REMOTE_NEG reaches a string (R182, R212): taken at once, or when its band is restored. One that arises in the clock in which a
bundle of the string traps (`same`) is owed until after the handler's `tret`. LANE is 0, as for a cause of the whole string (R205,
log 73). -/
def negAt (s : State) (b n code : Nat) (pc : Word64) (same : Bool) : State :=
  match s.band? b, s.str? b n with
  | some bd, some t =>
    if t.ended then s
    else
      match bd.place with
      | .resident _ =>
        if same then
          s.modStr b n (fun t => { t with late := t.late ++ [{ engine := false, detail := BitVec.ofNat 16 code, pc := pc, after := true }], wait := .none })
        else takeTrap s b n { cause := .remoteNeg, detail := code, bad := pc, late := true }
      | .saved _ | .parked _ =>
        s.modStr b n (fun t => { t with late := t.late ++ [{ engine := false, detail := BitVec.ofNat 16 code, pc := pc }], wait := .none })
      | _ => s
  | _, _ => s

/-- A reply's REMOTE_NEG: whether one that finds the string at its handler's first bundle arose in the clock in which that trap was taken
is open (log 86). A string that waits traps in no clock, and a FAILED notice meets one: `negAt` at once (R210, R212). -/
def remoteNeg (s : State) (b n code : Nat) (pc : Word64) : State :=
  let same := (s.str? b n).any atHandler && Config.freeBool s.nfree
  negAt { s with nfree := s.nfree + 1 } b n code pc same

/-! ### Parking (R310) -/

/-- Put a string on a ticket in its core's table; `none` where the table is full. -/
def parkOn (t : BitVec 32) (who : Nat × Nat) (c : Core) : Option Core :=
  if c.tickets.any (fun (e : TicketEnt) => e.t == t) then
    some { c with tickets := c.tickets.map (fun (e : TicketEnt) =>
      if e.t == t then { e with strs := if e.strs.contains who then e.strs else e.strs ++ [who] } else e) }
  else if c.tickets.length < 64 then some { c with tickets := c.tickets ++ [{ t := t, strs := [who] }] }
  else none

/-- The string's ticket fields after it parks (R317). -/
def parked (ticket : BitVec 32) (pc : Word64) (t : Str) : Str :=
  { t with wait := .ticket ticket, tkCount := min (t.tkCount + 1) 0xFFFF, tkId := ticket, tkPc := pc }

/-- A string parks, or, where the core's table is full, waits without a ticket (R310). A string of a saved band parks in its
save area. -/
def park (s : State) (b n : Nat) (ticket : BitVec 32) (pc : Word64) : State :=
  match s.band? b with
  | none => s
  | some bd =>
    match bd.place with
    | .resident c =>
      match (s.core? bd.die c).bind (parkOn ticket (b, n)) with
      | some k => (s.modCore bd.die c (fun _ => k)).modStr b n (parked ticket pc)
      | none => (s.modStr b n (fun t => { t with wait := .retry })).post [.ticketRetryExpiry b n]
    | _ => s.modStr b n (parked ticket pc)

/-- TICKET_RETRY_EXPIRY (R310). -/
def execTicketRetryExpiry (b n : Nat) (s : State) : Host.Outcome State Fault Refusal :=
  .next (s.modStr b n (fun t => if t.wait = .retry then { t with wait := .none } else t))

/-- A notice that the string's core remembers (R311). -/
def remembered (s : State) (r : Req) (ticket : BitVec 32) : Option (BitVec 8) :=
  (s.core? r.die r.core).bind (fun c => (c.notices.find? (fun x => x.1 == ticket)).map (fun x => x.2.1))

/-- A request that serves an operation ends without its bytes. -/
def discardReply (s : State) (r : Req) : State := reqDone s r

/-- A request goes to its home, or to its pantry, once more. -/
def State.again (s : State) (r : Req) : State :=
  if r.pdie.isSome then s.post [.pantryVerb r.id]
  else if r.home = s.dev ∨ r.home = 16 ∨ r.cached then (s.modReq r.id (fun x => { x with remote := 0 })).post [r.event]
  else s.toPeer r.home 0 (.request r.id)

/-- A string's access drew NR_NOPAGE (R182, R310, R314): rolled back and parked, unless the notice has already come. An access
older than the proof point is not undone: its request waits for the notice. -/
def missString (s : State) (r : Req) (o : Op) (ticket : BitVec 32) : State :=
  match s.str? o.b o.n with
  | none => discardReply s r
  | some t =>
    let older := decide (o.seq < t.rp.seq)
    match remembered s r ticket with
    | some code =>
      let s := if older && code = 0#8 then s.again r else s
      let s := if code = 0#8 then (rollback s o.b o.n).modStr o.b o.n (fun t => { t with tkLast := 3 })
        else remoteNeg (s.modStr o.b o.n (fun t => { t with tkLast := 3 })) o.b o.n code.toNat o.pc
      if older && code = 0#8 then s else discardReply (s.modOp o.id (fun x => { x with undone := true })) r
    | none =>
      let s := if older then s.modReq r.id (fun x => { x with held := some ticket }) else s
      let s := if t.wait matches .ticket _ then s else park (rollback s o.b o.n) o.b o.n ticket o.pc
      if older then s else discardReply s r

/-- An access that no string parks for, a job's (R271) or that of a released `put` (R182), waits for the notice of its ticket; one that its
core remembers is acted on at once (R311). -/
def waitForNotice (s : State) (r : Req) (ticket : BitVec 32) : State :=
  match remembered s r ticket with
  | none => s.modReq r.id (fun x => { x with held := some ticket })
  | some code => if code = 0#8 then s.again r else s.post [.negativeReply r.id code]

/-- NR_NOPAGE (R310): from a module that has been declared dead no notice will come, and the access fails with NR_PEER_DEAD (R348). A pinned
request's carries ticket 0, and the context suffers a fatal error (R316), also where a rollback has undone the access (log 106). Slot 0 of module 0 with generation 0
has the same id (R309): what tells the two apart is the request's own pinned bit (DEDUCED, log 104). -/
def execNrNopage (i : Nat) (ticket : BitVec 32) (s : State) : Host.Outcome State Fault Refusal :=
  .next (
    match s.req? i with
    | none => s
    | some r =>
      if r.home ≠ s.dev ∧ peerDead s r.home then s.post [.negativeReply i 5#8]
      else if ticket = 0#32 ∧ r.pinned then
        let c := match r.who with
          | .str b _ => ctxOf s b
          | .job j => ((s.job? j).map (fun (x : Job) => ctxOf s x.b)).getD r.ctx
          | _ => r.ctx
        reqDone (contextFatal (s.logWho 0x316 r.ctx r.line (r.requester s)) c) r
      else
        match r.op.bind (fun o => s.op? o) with
        | some o => if o.undone then discardReply s r else if o.isPut then waitForNotice s r ticket else missString s r o ticket
        | none => waitForNotice s r ticket)

/-! ### Notices (R311) -/

/-- A request that this module's home holds for a ticket. -/
def heldAtHome (s : State) (ticket : BitVec 32) : Bool :=
  s.reqs.any (fun (r : Req) => r.held == some ticket && r.home == s.dev && s.waitsAtHome r)

/-- A notice makes one string ready, or brings it the failure (R311, R317). -/
def noticeString (ticket : BitVec 32) (code : BitVec 8) (s : State) (w : Nat × Nat) : State :=
  match s.str? w.1 w.2 with
  | none => s
  | some t =>
    if t.wait ≠ .ticket ticket then s
    else if code = 0#8 then s.modStr w.1 w.2 (fun t => { t with wait := .none, tkLast := 1 })
    else negAt (s.modStr w.1 w.2 (fun t => { t with wait := .none, tkLast := 2 })) w.1 w.2 code.toNat t.tkPc false

/-- The notice goes to a core: one that its slot listed or its broadcast names, or one that has the ticket in its table. Of
another module's ticket, a core with a request there that may yet draw it counts as listed (R309, R311). -/
def noticeFor (s : State) (ticket : BitVec 32) (c : Core) : Bool :=
  c.tickets.any (fun (e : TicketEnt) => e.t == ticket) ||
    (match s.notes.find? (fun (x : NoticeTo) => x.ticket == ticket) with
     | some x => x.cores.contains (s.dev, c.die, c.num) || x.bcast.any (fun m => m.getLsbD s.dev)
     | none => s.reqs.any (fun (r : Req) => r.die == c.die && r.core == c.num && r.home == (ticket.extractLsb' 28 4).toNat && r.home != s.dev))

/-- A core's table and history after a notice. -/
def noticeCore (ticket : BitVec 32) (code : BitVec 8) (c : Core) : Core :=
  { c with tickets := c.tickets.filter (fun (e : TicketEnt) => e.t != ticket),
           notices := ((ticket, code, true) :: c.notices).take 16 }

/-- A request that waited for the notice (R314) is sent again, or refused. The failure of a string that was parked on the ticket has
reached it already: its older access is over without another. -/
def resend (ticket : BitVec 32) (code : BitVec 8) (told : List (Nat × Nat)) (s : State) : State :=
  let rs := s.reqs.filter (fun (r : Req) => r.held == some ticket)
  let s := { s with reqs := s.reqs.map (fun (r : Req) => if r.held == some ticket then { r with held := none } else r) }
  rs.foldl (fun s r =>
    if code = 0#8 then s.again r
    else match r.who, r.op with
      | .str b n, some o =>
        if told.contains (b, n) && !s.waitsAtHome r then discardReply (s.modOp o (fun x => { x with undone := true })) r
        else s.post [.negativeReply r.id code]
      | _, _ => s.post [.negativeReply r.id code]) s

/-- The other modules whose cores a ticket lists are told how its service ended. -/
def tellModules (s : State) (ticket : BitVec 32) (cores : List (Nat × Nat × Nat)) (bcast : Option (BitVec 16)) (code : BitVec 8) : State :=
  ((List.range 16).filter (fun m => m != s.dev && (cores.any (fun x => x.1 == m) || bcast.any (fun b => b.getLsbD m)))).foldl
    (fun s m => s.toPeer m 2 (.notice ticket code)) s

/-- The other modules on which cores wait for a ticket are told once what the owner held on the page is performed (R311). -/
def tellFar (s : State) (ticket : BitVec 32) (code : BitVec 8) : State :=
  match s.notes.find? (fun (x : NoticeTo) => x.ticket == ticket) with
  | none => s
  | some t => tellModules s ticket t.cores t.bcast code

/-- REPLAY_NOTICE (R311): it follows the released entries that the owner held; each parked string re-executes or takes
REMOTE_NEG; strings of saved bands are matched by the serai (R223). -/
def execReplayNotice (ticket : BitVec 32) (code : BitVec 8) (s : State) : Host.Outcome State Fault Refusal :=
  .next (
    if heldAtHome s ticket then s.post [.replayNotice ticket code]
    else
      let s := tellFar s ticket code
      let ws := (s.strs.filter (fun (t : Str) => t.wait == .ticket ticket)).map (fun (t : Str) => (t.band, t.num))
      let s := { s with cores := s.cores.map (fun (c : Core) => if noticeFor s ticket c then noticeCore ticket code c else c),
                        notes := s.notes.filter (fun (x : NoticeTo) => x.ticket != ticket) }
      let s := ws.foldl (noticeString ticket code) s
      wakeSaved (resend ticket code ws s))

/-! ### Servicing a page (R362) -/

/-- A held request is performed now: it is accepted, so that a move of the page that begins after this waits for it (R307, R311). -/
def State.acceptHeld (s : State) (r : Req) : State :=
  match homeRefusal s r with
  | some c => s.refuse r c
  | none => ({ s with nseq := s.nseq + 1 }.modReq r.id (fun x => { x with arr := s.nseq + 1 })).again r

/-- What the owner held on the ticket is performed, or answered with the failure's code (R182). -/
def releaseHeld (ticket : BitVec 32) (code : BitVec 8) (s : State) : State :=
  (s.reqs.filter (fun (r : Req) => r.held == some ticket && r.home == s.dev && s.waitsAtHome r)).foldl (fun s r =>
    if code = 0#8 then s.acceptHeld r else s.refuse r code) s

/-- A ticket ends: the slot is freed, its generation rises, and the notice is sent (R309, R311). -/
def endTicket (s : State) (t : TSlot) (code : BitVec 8) : State :=
  let id := ticketId s.dev t.slot t.gen
  let s := releaseHeld id code s
  let s := s.setTicket { t with used := false, gen := t.gen + 1#12, cores := [], bcast := none }
  { s with notes := s.notes ++ [({ ticket := id, cores := t.cores, bcast := t.bcast } : NoticeTo)] }.post [.replayNotice id code]

/-- The tickets of a page end with a code. -/
def endPageTickets (s : State) (ctx page : Nat) (code : BitVec 8) : State :=
  (s.tslots.filter (fun (t : TSlot) => t.used && t.ctx == ctx && t.page == page)).foldl (fun s t => endTicket s t code) s

/-- The allocation in which a page lies, as the device operating system's tables have it: it comes to this machine at the page's first
service, its mask open (log 80); mask 0 stands for a page in no allocation, since an empty mask is refused (R20). -/
def learnAlloc (s : State) (ctx page : Nat) (inOne : Bool) : State × BitVec 8 :=
  match s.allocs.find? (fun (a : Alloc) => a.ctx == ctx && a.page == page) with
  | some a => (s, a.mask)
  | none =>
    let m : BitVec 8 := if inOne then (Config.freeWord s.nfree).extractLsb' 0 8 else 0#8
    ({ s with nfree := s.nfree + 1, allocs := s.allocs ++ [{ ctx := ctx, page := page, mask := m }] }, m)

/-- A zeroed frame for a page in some domain of a mask, which one is open; `none` where none of them has a frame (R362). -/
def giveIn (s : State) (ctx page : Nat) (m : BitVec 8) : Option State :=
  let ds := domainsOf m
  let k := (Config.freeWord s.nfree).toNat % max 1 ds.length
  (ds.drop k ++ ds.take k).findSome? (fun d => givePage { s with nfree := s.nfree + 1 } ctx page d (1#8 <<< d))

/-- PAGE_SERVICE_DONE (R312, R362): code 0 is RESOLVED; a moving page's ticket ends with its move. A page without an entry gets a frame
in a domain of its allocation's mask (R20), fails with NOMEM where none is to be found, and with UNBACKED where it lies in no
allocation. -/
def execPageServiceDone (slot : Nat) (code : BitVec 8) (s : State) : Host.Outcome State Fault Refusal :=
  .next (
    match s.tslots.find? (fun (t : TSlot) => t.slot == slot && t.used) with
    | none => s
    | some t =>
      match s.page? t.ctx t.page with
      | some p =>
        if p.mov then s
        else if p.v then endTicket s t 0#8
        else if code = 0#8 then endTicket (s.modPage t.ctx t.page (fun p => { p with v := true })) t 0#8
        else if code = 0x81#8 ∨ code = 0x83#8 ∨ code = 0x84#8 then endTicket s t code
        else s
      | none =>
        if code = 0#8 ∨ code = 0x81#8 ∨ code = 0x82#8 then
          let r := learnAlloc s t.ctx t.page (code != 0x82#8)
          if r.2 = 0#8 then endTicket r.1 t 0x82#8
          else match giveIn r.1 t.ctx t.page r.2 with
            | some s => endTicket s t 0#8
            | none => endTicket r.1 t 0x81#8
        else s)

/-- REPLICA_DROP (R169): readers of the dropped replica are redirected to the primary. -/
def execReplicaDrop (ctx page dom : Nat) (s : State) : Host.Outcome State Fault Refusal :=
  .next (s.modPage ctx page (fun p =>
    if dom < 8 ∧ dom ≠ p.prim ∧ p.rmask.getLsbD dom = true then
      { p with rmask := p.rmask &&& ~~~(1#8 <<< dom), dropped := p.dropped ||| (1#8 <<< dom), lock := p.lock &&& ~~~(1#8 <<< dom) }
    else p))

end Sys2Proof.Machine
end

