-- ==== Sys2Proof/Machine/Matrix.lean ====
section
/-! DEFINITION. The matrix unit (R256 to R266) and its exact arithmetic (R113, R115 to R121). -/

namespace Sys2Proof.Machine
open Sys2Proof

/-! ### Formats and layout (R112, R113, R256) -/

/-- Element bits of a format code. -/
def elemBits (c : Nat) : Nat := if c = 1 ∨ c = 2 then 16 else if c = 5 ∨ c = 7 ∨ c = 9 then 4 else 8
/-- K_max of a format code as B. -/
def kMax (c : Nat) : Nat := if elemBits c = 16 then 256 else if elemBits c = 8 then 512 else 1024
/-- NB8 or NB4. -/
def isNb (c : Nat) : Bool := c == 8 || c == 9
/-- The format codes of a recipe (R112). -/
def rcpA (r : BitVec 10) : Nat := (r.extractLsb' 0 4).toNat
/-- BFMT -/
def rcpB (r : BitVec 10) : Nat := (r.extractLsb' 4 4).toNat
/-- ACC -/
def rcpAcc (r : BitVec 10) : Nat := (r.extractLsb' 8 2).toNat
/-- A supported recipe (R113). -/
def rcpOk (r : BitVec 10) : Bool :=
  let a := rcpA r
  let b := rcpB r
  let f8 := fun x => x == 3 || x == 4 || x == 5
  let ii := fun x => x == 6 || x == 7
  (rcpAcc r == 0 && ((a == 1 && b == 1) || (a == 2 && b == 2) || (f8 a && f8 b) || (ii a && ii b) || (isNb a && isNb b))) ||
    (rcpAcc r == 1 && ii a && ii b)
/-- K obeys the multiple rule of a format (R256). -/
def kMultOk (k c : Nat) : Bool := if isNb c then k % 16 == 0 else if elemBits c = 4 then k % 2 == 0 else true
/-- N: columns of B (R256). -/
def matN (p : Profile) : Nat := if p = .array then 256 else 64

/-! ### Arithmetic (R115 to R120) -/

/-- The value of a float or integer element. -/
def elemVal (c x : Nat) : FVal :=
  match c with
  | 1 => bf16.dec x
  | 2 => fp16.dec x
  | 3 => e4m3.dec x
  | 4 => e5m2.dec x
  | 5 => e2m1.dec x
  | 7 | 9 => let i := (BitVec.ofNat 4 x).toInt; .fin (decide (i < 0)) i.natAbs 0
  | _ => let i := (BitVec.ofNat 8 x).toInt; .fin (decide (i < 0)) i.natAbs 0

/-- The pattern of element `i` of a plane at `base` (R101, R256). -/
def planeElem (m : Memory) (base c i : Nat) : Nat :=
  match elemBits c with
  | 16 => leNat (memBytes m (base + 2 * i) 2)
  | 4 => (memGet m (base + i / 2)).toNat / 16 ^ (i % 2) % 16
  | _ => (memGet m (base + i)).toNat

/-- An NB element with its block's scale bytes (R108, R109): a void block's elements are NaNs. -/
def nbElem (c x sh micro j : Nat) : FVal :=
  if sh = 255 then .nan false true 0 0
  else
    match elemVal c x with
    | .fin n m _ => .fin n m ((sh : Int) - 127 - (micro / 2 ^ (j / 2) % 2 : Nat) - (if c = 8 then 6 else 2))
    | v => v

/-- W of R116; 0 for a format that is not aligned. -/
def alignW (c : Nat) : Nat := if c = 1 then 18 else if c = 2 then 22 else if c = 3 ∨ c = 4 ∨ c = 5 then 12 else 0
/-- emin of a float format code. -/
def eminOf (c : Nat) : Int :=
  match c with
  | 1 => bf16.emin
  | 2 => fp16.emin
  | 3 => e4m3.emin
  | 4 => e5m2.emin
  | _ => e2m1.emin
/-- EX of a finite nonzero value (R103). -/
def exOf (c m : Nat) (e : Int) : Int := max (e + (bitLen m : Int) - 1) (eminOf c)

/-- Align (R116). -/
def alignGroup (c : Nat) (xs : List FVal) : List FVal :=
  if alignW c = 0 then xs
  else
    let exs := xs.filterMap (fun x => match x with | .fin _ m e => if m = 0 then none else some (exOf c m e) | _ => none)
    match exs with
    | [] => xs
    | e0 :: es =>
      let q := es.foldl max e0 - alignW c + 1
      xs.map (fun x => match x with
        | .fin n m e => if m = 0 then x else .fin n (roundTo .rne n m e q).1 q
        | v => v)

/-- Group `g` of a row or column of `k` elements: `i` names the row or column, `stride` its distance in elements when
packed, the rows' own byte stride otherwise. -/
def matGroup (m : Memory) (base scale c k : Nat) (row : Nat) (rowBytes : Nat) (g : Nat) : List FVal :=
  let n := min 16 (k - 16 * g)
  let b := base + row * rowBytes
  if isNb c then
    let blk := scale + 2 * (row * (k / 16) + g)
    let sh := (memGet m blk).toNat
    let micro := (memGet m (blk + 1)).toNat
    (List.range n).map (fun j => nbElem c (planeElem m b c (16 * g + j)) sh micro j)
  else alignGroup c ((List.range n).map (fun j => elemVal c (planeElem m b c (16 * g + j))))

/-- The canonical NaN of the accumulator (R119). -/
def accNan : Word32 := 0x7FC00000#32

/-- One group added to an FP32 accumulator (R118, R119). -/
def accFp (as bs : List FVal) (acc : Word32) : Word32 :=
  let D := fp32.dec acc.toNat
  let prods := as.zip bs
  if (as ++ bs).any FVal.isNan || D.isNan then accNan
  else if prods.any (fun p => (p.1.isInf && p.2.isZero) || (p.1.isZero && p.2.isInf)) then accNan
  else
    let infs := (prods.filter (fun p => p.1.isInf || p.2.isInf)).map (fun p => xor p.1.neg? p.2.neg?) ++
                  (if D.isInf then [D.neg?] else [])
    if infs.any (fun x => x) && infs.any (fun x => !x) then accNan
    else
      match infs with
      | n :: _ => BitVec.ofNat 32 (fp32.infBits n)
      | [] =>
        let fin := prods.map (fun p =>
          match p.1, p.2 with
          | .fin n1 m1 e1, .fin n2 m2 e2 => (xor n1 n2, m1 * m2, e1 + e2)
          | _, _ => (false, 0, 0)) ++ (match D with | .fin n m e => [(n, m, e)] | _ => [])
        BitVec.ofNat 32 (roundSum fp32 .rne false (exactSum fin)).x

/-- One group added to an INT32 accumulator, with whether the clamp changed the value (R120). -/
def accInt (as bs : List FVal) (acc : Word32) : Word32 × Bool :=
  let el := fun (v : FVal) => match v with | .fin n m _ => signedInt n m | _ => 0
  let x := acc.toInt + (as.zip bs).foldl (fun a p => a + el p.1 * el p.2) 0
  let y := clampInt x (-(2 ^ 31 - 1)) (2 ^ 31 - 1)
  (BitVec.ofInt 32 y, decide (x ≠ y))

/-- Every group of one element, in ascending order (R115). -/
def accAll (int : Bool) : List (List FVal × List FVal) → Word32 × Bool → Word32 × Bool
  | [], a => a
  | (as, bs) :: gs, a =>
    if int then
      let r := accInt as bs a.1
      accAll int gs (r.1, a.2 || r.2)
    else accAll int gs (accFp as bs a.1, a.2)

/-! ### Checks at issue (R259) -/

/-- Byte ranges of a matrix operation on the bench: read and written (R259, R270). -/
def mopFeet (p : Profile) (minor : Nat) (rcp : BitVec 10) (sa sb : Word64) (bd : Option BDesc) : List Foot × List Foot :=
  let a := sa.toNat
  let n := matN p
  let sc := (sb.extractLsb' 32 24).toNat
  match minor with
  | 0 =>
    let k := (sb.extractLsb' 0 11).toNat
    let c := rcpB rcp
    ([{ sp := .bench, a := a, n := n * k * elemBits c / 8 }] ++ (if isNb c then [{ sp := .bench, a := sc, n := 2 * (n * (k / 16)) }] else []), [])
  | 1 | 2 =>
    let k := (bd.map (fun (d : BDesc) => d.k)).getD 0
    let c := rcpA rcp
    let row := k * elemBits c / 8
    let st := (sb.extractLsb' 0 24).toNat
    ([{ sp := .bench, a := a, n := 63 * (if st = 0 then row else st) + row }] ++
      (if isNb c then [{ sp := .bench, a := sc, n := 2 * (64 * (k / 16)) }] else []), [])
  | 3 =>
    let row := if (sb.extractLsb' 0 4).toNat = 0 then 256 else 128
    let st := (sb.extractLsb' 8 24).toNat
    ([], [{ sp := .bench, a := a, n := 63 * (if st = 0 then row else st) + row }])
  | _ => ([], [])

/-- The first cause that applies (R259), with its DETAIL. `lo` and `hi` bound the bench. -/
def mopCheck (bd : Band) (lo hi : Nat) (minor tile : Nat) (rcp : BitVec 10) (sa sb : Word64) : Option (Cause × Nat) :=
  let last := if bd.prof = .array ∧ (minor = 1 ∨ minor = 2) then tile + 3 else tile
  let c := rcpB rcp
  let k := if minor = 0 then (sb.extractLsb' 0 11).toNat else (bd.bdesc.map (fun (d : BDesc) => d.k)).getD 0
  let ofmt := (sb.extractLsb' 0 4).toNat
  let mm := minor = 1 ∨ minor = 2
  if 1 ≤ minor ∧ minor ≤ 4 ∧ bd.ntiles ≤ last then some (.accRange, max tile bd.ntiles)
  else if minor = 4 then none
  else if !rcpOk rcp || (minor == 0 && (k == 0 || decide (kMax c < k) || !kMultOk k c)) ||
      (decide mm && (bd.bdesc.all (fun (d : BDesc) => d.fmt != c) || !kMultOk k (rcpA rcp))) ||
      (minor == 3 && (decide (3 ≤ ofmt) || (ofmt != 0 && rcpAcc rcp == 1))) then some (.recipe, rcp.toNat)
  else if sa.toNat % 16 ≠ 0 ∨ (minor ≠ 3 ∧ isNb (if minor = 0 then c else rcpA rcp) = true ∧ (sb.extractLsb' 32 24).toNat % 2 ≠ 0) ∨
      (mm ∧ (sb.extractLsb' 0 24).toNat % 16 ≠ 0) ∨ (minor = 3 ∧ (sb.extractLsb' 8 24).toNat % 16 ≠ 0) then some (.align, 0)
  else
    let f := mopFeet bd.prof minor rcp sa sb bd.bdesc
    if (f.1 ++ f.2).all (fun (x : Foot) => decide (lo ≤ x.a) && decide (x.a + x.n ≤ hi)) then none else some (.benchBound, 0)

/-- The tiles that an operation names. -/
def mopTiles (p : Profile) (minor tile : Nat) : List Nat :=
  if minor = 0 ∨ 5 ≤ minor then [] else if p = .array ∧ (minor = 1 ∨ minor = 2) then [tile, tile + 1, tile + 2, tile + 3] else [tile]

/-- Queued matrix operations of a band. -/
def bandMops (s : State) (b : Nat) : List MOp := s.mops.filter (fun (m : MOp) => m.b == b)

/-- An earlier operation of the band to a tile has not retired: `mst` and `mclr` stall (R264). -/
def tileBusy (s : State) (b : Nat) (p : Profile) (tile : Nat) : Bool :=
  (bandMops s b).any (fun (m : MOp) => (mopTiles p m.minor m.tile).contains tile)

/-- A matrix instruction at issue (R259, R264, R266): checks, stalls, and the operation that its release sends. -/
def State.matrix (s : State) (minor tile : Nat) (a b : SReg) : Host.Outcome State Fault Refusal :=
  s.onHead (fun t bu =>
    match s.band? t.band with
    | none => s
    | some bd =>
      let rcp := bu.lat.rcp.seen
      let sa := readS bu.lat a.toNat
      let sb := readS bu.lat b.toNat
      match mopCheck bd bu.lat.benchb.toNat bu.lat.benchl.toNat minor tile rcp sa sb with
      | some (c, d) => s.raise t bu { cause := c, detail := d }
      | none =>
        let tears := bu.lat.wbOpen && ((minor != 4 && tagS bu.lat a.toNat == .data) || (minor != 4 && tagS bu.lat b.toNat == .data))
        s.tearAt t bu tears 2 (fun s =>
          if (minor = 3 ∨ minor = 4) ∧ tileBusy s t.band bd.prof tile = true then s.hold bu .tile
          else if 64 ≤ (bandMops s t.band).length then s.hold bu .unit
          else
            let m : MOp := { id := s.nextId, b := t.band, n := t.num, minor := minor, tile := tile, rcp := rcp, sa := sa, sb := sb,
                             msat := false, seq := s.nseq }
            ({ s with nextId := s.nextId + 1, nseq := s.nseq + 1 }).modBun (fun x => { x with mops := x.mops ++ [m] })))

/-- MLOAD (R258 to R260). -/
def execMload (a b : SReg) (s : State) : Host.Outcome State Fault Refusal := s.matrix 0 0 a b
/-- MMUL (R258, R259, R261). -/
def execMmul (t : BitVec 7) (a b : SReg) (s : State) : Host.Outcome State Fault Refusal := s.matrix 1 t.toNat a b
/-- MMULZ (R258, R259, R261). -/
def execMmulz (t : BitVec 7) (a b : SReg) (s : State) : Host.Outcome State Fault Refusal := s.matrix 2 t.toNat a b
/-- MST (R258, R259, R262). -/
def execMst (t : BitVec 7) (a b : SReg) (s : State) : Host.Outcome State Fault Refusal := s.matrix 3 t.toNat a b
/-- MCLR (R258, R259, R262): it reads no s register. -/
def execMclr (t : BitVec 7) (s : State) : Host.Outcome State Fault Refusal := s.matrix 4 t.toNat 0#6 0#6

/-- MBATCH (R263): path 5 rises at issue; the batch closes at the release. -/
def execMbatch (s : State) : Host.Outcome State Fault Refusal :=
  s.onHead (fun t bu =>
    match fullPath bu.lat [5] with
    | some p => s.hold bu (.full p)
    | none =>
      let op : Op := { id := 0, b := t.band, n := t.num, seq := 0, path := some 5, pc := bu.pc, kind := .batch [] }
      let r := s.addOp [5] op
      r.1.modBun (fun x => { x with batch := some r.2 }))

/-! ### Submission (R60, R264, R270) -/

/-- Jobs of a band that an arriving command has an edge to (R270). -/
def jobEdges (s : State) (b : Nat) (rd wr : List Foot) : List Nat :=
  (s.jobs.filter (fun (j : Job) => j.b == b && (feetMeet rd j.wr || feetMeet wr j.rd || feetMeet wr j.wr))).map (fun (j : Job) => j.id)

/-- Matrix operations of a band that an arriving job has an edge to. -/
def mopEdges (s : State) (b : Nat) (rd wr : List Foot) : List Nat :=
  (s.mops.filter (fun (m : MOp) => m.b == b && (feetMeet rd m.wr || feetMeet wr m.rd || feetMeet wr m.wr))).map (fun (m : MOp) => m.id)

/-- A matrix operation reaches the unit. `mload` sets the band's B descriptor (R260). -/
def submitMop (s : State) (m : MOp) : State :=
  match s.band? m.b with
  | none => s
  | some bd =>
    let f := mopFeet bd.prof m.minor m.rcp m.sa m.sb bd.bdesc
    let desc : Option BDesc := if m.minor = 0 then
        some { k := (m.sb.extractLsb' 0 11).toNat, fmt := rcpB m.rcp, elem := m.sa.toNat, scale := (m.sb.extractLsb' 32 24).toNat }
      else bd.bdesc
    let m := { m with rd := f.1, wr := f.2, bd := desc, deps := jobEdges s m.b f.1 f.2, die := bd.die, core := bd.place.core?.getD 0 }
    let s := if m.minor = 0 then s.modBand m.b (fun x => { x with bdesc := desc }) else s
    ({ s with mops := s.mops ++ [m] }).post [.matrixOpStart bd.die (bd.place.core?.getD 0)]

/-- The batches of a band's string that are already closed. -/
def inBatch (s : State) (i : Nat) : Bool :=
  s.ops.any (fun (o : Op) => match o.kind with | .batch l => l.contains i | _ => false)

/-- A batch closes (R263): it holds the string's operations of no earlier batch. An empty batch retires at once. -/
def closeBatch (s : State) (b n o : Nat) : State :=
  let ids := (s.mops.filter (fun (m : MOp) => m.b == b && m.n == n && !inBatch s m.id)).map (fun (m : MOp) => m.id)
  let s := s.modOp o (fun x => { x with kind := .batch ids, sent := true, fin := ids.isEmpty, done := ids.isEmpty })
  if ids.isEmpty then s.post [.operationReturn o] else s

/-! ### The unit (R260 to R266) -/

/-- Accesses of a string before an issue number that meet some regions are performed (R173). -/
def strClear (s : State) (b n q : Nat) (feet : List Foot) : Bool :=
  !s.rels.any (fun x => x.1 == b && x.2.1 == n && decide (x.2.2.seq < q) && feetMeet (realFeet s b x.2.2.ents (s.entryWrites x.2.2)) (realFeet s b [] feet)) &&
    !s.ops.any (fun (o : Op) => o.b == b && o.n == n && decide (o.seq < q) && o.isAccess && !o.done && !o.undone && feetMeet (realFeet s b o.ents o.foot) (realFeet s b [] feet))

/-- Every operation and job that a command waits for has returned. -/
def depsDone (s : State) (deps : List Nat) : Bool :=
  !deps.any (fun d => s.jobs.any (fun (j : Job) => j.id == d) || s.mops.any (fun (m : MOp) => m.id == d))

/-- The operations that were sent to a core's unit, in release order. -/
def coreMops (s : State) (die core : Nat) : List MOp := s.mops.filter (fun (m : MOp) => m.die == die && m.core == core)

/-- The operation that a core's unit may start next. -/
def mopReady (s : State) (die core : Nat) : Option MOp :=
  match coreMops s die core with
  | m :: _ => if !m.started && depsDone s m.deps && strClear s m.b m.n m.seq (m.rd ++ m.wr) && !s.claimed m.b m.n [] (m.rd ++ m.wr) then some m else none
  | [] => none

/-- Copy B into the weight banks (R260). -/
def loadB (bd : Band) (d : BDesc) : Memory :=
  let n := matN bd.prof
  let m := memWrite [] 0 (memBytes bd.bench d.elem (n * d.k * elemBits d.fmt / 8))
  if isNb d.fmt then memWrite m (2 ^ 24) (memBytes bd.bench d.scale (2 * (n * (d.k / 16)))) else m

/-- A word range of a memory as a k-group of a racing `mmul` reads it: each word as one of the benches that the operation has met has it,
which one is open (R280). `q` numbers the group. -/
def raceWords (i q : Nat) (snaps : List Memory) (m : Memory) (a n : Nat) : Memory :=
  ((List.range ((a + n + 3) / 4 - a / 4)).map (a / 4 + ·)).foldl (fun m w =>
    memWrite m (4 * w) (memBytes (snaps.getD ((Config.freeWord (i + q * 2 ^ 18 + w)).toNat % snaps.length) []) (4 * w) 4)) m

/-- The bench as k-group `g` of row `r` of an `mmul` reads it (R116, R280): as it stands, where no word of A has changed since the operation
started. -/
def groupBench (i : Nat) (bd : Band) (m : MOp) (k st r g : Nat) : Memory :=
  if m.snaps.all (fun x => x == bd.bench) then bd.bench
  else
    let c := rcpA m.rcp
    let a := m.sa.toNat + r * st + 16 * g * elemBits c / 8
    let mem := raceWords i (128 * r + g) m.snaps bd.bench a (16 * elemBits c / 8)
    if isNb c then raceWords i (128 * r + g) m.snaps mem ((m.sb.extractLsb' 32 24).toNat + 2 * (r * (k / 16) + g)) 2 else mem

/-- MatMul (R261): new tile words with their keys, and whether a clamp changed a value. `i`: the free values of a race. -/
def matMul (i : Nat) (bd : Band) (w : Memory) (d : BDesc) (m : MOp) : List (Nat × Word32) × Bool :=
  let ca := rcpA m.rcp
  let k := d.k
  let groups := (k + 15) / 16
  let row := k * elemBits ca / 8
  let st := (m.sb.extractLsb' 0 24).toNat
  let st := if st = 0 then row else st
  let int := rcpAcc m.rcp == 1
  let aRows := (List.range 64).map (fun r => (List.range groups).map (fun g =>
    matGroup (groupBench i bd m k st r g) m.sa.toNat (m.sb.extractLsb' 32 24).toNat ca k r st g))
  let cols := (List.range (matN bd.prof)).map (fun j =>
    (List.range groups).map (matGroup w 0 (2 ^ 24) d.fmt k j (k * elemBits d.fmt / 8)))
  let words := aRows.zipIdx.flatMap (fun ra => cols.zipIdx.map (fun cb =>
    let key := 4096 * (m.tile + cb.2 / 64) + 64 * ra.2 + cb.2 % 64
    let acc := if m.minor = 2 then 0#32 else smGet 0#32 bd.tiles key
    (key, accAll int (ra.1.zip cb.1) (acc, false))))
  (words.map (fun x => (x.1, x.2.1)), words.any (fun x => x.2.2))

/-- Element of `mst` (R262). -/
def mstBytes (ofmt : Nat) (x : Word32) : List Byte :=
  let f := if ofmt = 1 then bf16 else fp16
  if ofmt = 0 then leBytes 4 x.toNat
  else
    match fp32.dec x.toNat with
    | .nan .. => leBytes 2 (f.nanBits false)
    | v => leBytes 2 (convInto f .rne false v).x

/-- The bytes that `mst` writes, row by row, ascending: where a stride below the row's bytes makes rows overlap, the later one stands; the
spec gives their order nowhere (R262, log 94). -/
def mstWrite (bd : Band) (m : MOp) : Memory :=
  let ofmt := (m.sb.extractLsb' 0 4).toNat
  let row := if ofmt = 0 then 256 else 128
  let st := (m.sb.extractLsb' 8 24).toNat
  let st := if st = 0 then row else st
  (List.range 64).foldl (fun mem i =>
    memWrite mem (m.sa.toNat + i * st) ((List.range 64).flatMap (fun j => mstBytes ofmt (smGet 0#32 bd.tiles (4096 * m.tile + 64 * i + j))))) bd.bench

/-- Write tile words. -/
def putTiles (ws : List (Nat × Word32)) (bd : Band) : Band := { bd with tiles := ws.foldl (fun t w => smPut 0#32 t w.1 w.2) bd.tiles }

/-- MSAT in the issuing string's xstat, if one issued it, and in the launch's record (R120). The operation is past its proof release,
so a rollback keeps the bit (R202). -/
def setMsat (s : State) (m : MOp) : State :=
  let s := s.modStr m.b m.n (fun t => { t with stat := t.stat ||| 0x80#64, rp := { t.rp with stat := t.rp.stat ||| 0x80#64 } })
  match s.band? m.b with
  | some bd => s.modLaunch bd.launch (fun l => { l with msat := true })
  | none => s

/-- `mmul` and `mmulz`. -/
def mulOp (m : MOp) : Bool := m.minor == 1 || m.minor == 2

/-- An `mmul` has read all of A: its tiles take the sums (R261). -/
def finishMul (s : State) (m : MOp) : State :=
  match s.band? m.b, m.bd, s.core? m.die m.core with
  | some bd, some d, some c =>
    let r := matMul s.nfree bd c.wdata d m
    let s := { s with nfree := s.nfree + 2 ^ 32 }.modBand m.b (putTiles r.1)
    if r.2 then setMsat s m else s
  | _, _, _ => s

/-- A matrix operation starts (R260 to R262): B is reloaded where another band's is resident; `mst` and `mclr` have their effect; an `mmul`
begins to read A. -/
def performMop (s : State) (die core : Nat) (bd : Band) (m : MOp) : State :=
  let s := match m.bd, s.core? die core with
    | some d, some c =>
      if m.minor = 0 ∨ c.wbank ≠ some m.b then s.modCore die core (fun c => { c with wbank := some m.b, wdata := loadB bd d }) else s
    | _, _ => s
  match m.minor with
  | 3 => s.modBand m.b (fun b => { b with bench := mstWrite b m })
  | 4 => s.modBand m.b (fun b => { b with tiles := b.tiles.filter (fun x => x.1 / 4096 != m.tile) })
  | _ => s

/-- MATRIX_OP_START (R264, R265): the oldest operation of the core starts once its edges allow. -/
def execMatrixOpStart (die core : Nat) (s : State) : Host.Outcome State Fault Refusal :=
  .next (
    match mopReady s die core with
    | none => if (coreMops s die core).any (fun (m : MOp) => !m.started) then s.post [.matrixOpStart die core] else s
    | some m =>
      match s.band? m.b with
      | none => s
      | some bd =>
        let s := performMop s die core bd m
        ({ s with mops := s.mops.map (fun (x : MOp) => if x.id == m.id then { x with started := true, snaps := if mulOp m then [bd.bench] else [] } else x) }).post
          [.matrixOpRetire die core])

/-- Strings that waited for the unit look again. -/
def wakeUnit (s : State) (b : Nat) : State :=
  { s with strs := s.strs.map (fun (t : Str) => if t.band == b then unitFree t else t) }

/-- A retired operation leaves its batch; the batch that it completes returns (R263). -/
def retireFrom (s : State) (i : Nat) : State :=
  let hit := fun (o : Op) => match o.kind with | .batch l => l.contains i | _ => false
  let full := fun (o : Op) => match o.kind with | .batch l => l == [i] | _ => false
  let done := s.ops.filter full
  ({ s with ops := s.ops.map (fun (o : Op) =>
      if hit o then
        match o.kind with
        | .batch l => { o with kind := .batch (l.filter (fun x => x != i)), fin := o.fin || full o, done := o.done || full o }
        | _ => o
      else o) }).post (done.map (fun (o : Op) => Instr.operationReturn o.id))

/-- MATRIX_OP_RETIRE (R263, R266). An `mmul` may meet the bench of A more than once before it has read it all, which is open: a word that a
store changes in the meantime is read with any of the values that it had (R280). -/
def execMatrixOpRetire (die core : Nat) (s : State) : Host.Outcome State Fault Refusal :=
  .next (
    match (coreMops s die core).find? (fun (m : MOp) => m.started) with
    | none => s
    | some m =>
      let now := ((s.band? m.b).map (fun (b : Band) => b.bench)).getD []
      let m := if mulOp m then { m with snaps := m.snaps ++ [now] } else m
      let more := mulOp m && !m.snaps.all (fun x => x == now) && Config.freeBool s.nfree
      let s := if mulOp m then { s with nfree := s.nfree + 1 } else s
      if more then { s with mops := s.mops.map (fun (x : MOp) => if x.id == m.id then m else x) }.post [.matrixOpRetire die core]
      else
        let s := if mulOp m then finishMul s m else s
        wakeUnit (retireFrom { s with mops := s.mops.filter (fun (x : MOp) => x.id != m.id) } m.id) m.b)

end Sys2Proof.Machine
end

