-- ==== Sys2Proof/Machine/Jobs.lean ====
section
/-! DEFINITION. Engine jobs (R267 to R279): cards and their checks, the scheduler, copy, gather, collectives and multicast, and
the delivery of their errors (R212, R278). -/

namespace Sys2Proof.Machine
open Sys2Proof

/-! ### Cards (R267, R268) -/

/-- Byte offsets of the regions' bases and lengths: IN0, IN1, OUT0, OUT1. -/
def regionAt : List (Nat × Nat) := [(8, 16), (20, 28), (32, 40), (44, 52)]

/-- A declared region: space code, base, length, and the offsets of its fields. -/
structure Region where
  sp : Nat
  base : Nat
  len : Nat
  at_ : Nat
  atLen : Nat
  deriving DecidableEq, Repr

/-- The four regions of a card. -/
def cardRegions (c : List Byte) : List Region :=
  regionAt.zipIdx.map (fun x =>
    { sp := field c 3 1 / 4 ^ x.2 % 4, base := field c x.1.1 8, len := field c x.1.2 4, at_ := x.1.1, atLen := x.1.2 })

/-- W0, W1, W2. -/
def cardW0 (c : List Byte) : Nat := field c 4 4
/-- W1 -/
def cardW1 (c : List Byte) : Nat := field c 56 4
/-- W2 -/
def cardW2 (c : List Byte) : Nat := field c 60 4
/-- KIND -/
def cardKind (c : List Byte) : Nat := field c 0 1
/-- Row bytes of a copy or gather. -/
def rowBytes (c : List Byte) : Nat := cardW0 c / 65536 * 8
/-- Rows of a copy or gather. -/
def rowCount (c : List Byte) : Nat := cardW0 c % 65536
/-- OP of a collective -/
def colOp (c : List Byte) : Nat := cardW0 c % 16
/-- TYPE of a collective -/
def colType (c : List Byte) : Nat := cardW0 c / 16 % 16
/-- GROUP of a collective -/
def colGroup (c : List Byte) : Nat := cardW0 c / 256 % 256
/-- Element bytes of a reduction. -/
def colBytes (c : List Byte) : Nat := if colType c = 1 then 2 else 4
/-- The bytes that a job reads from IN0 as one row, where it is no copy or gather. -/
def inBytes (c : List Byte) : Nat :=
  if cardKind c = 3 then (if colOp c = 2 then cardW1 c else cardW1 c * colBytes c) else field c 16 4

/-- A pantry region lies in reach (R267): base bits, DIE, and the named die's capacity. -/
def pantryRegionOk (s : State) (die : Nat) (r : Region) : Bool :=
  let d := r.base / 2 ^ 27 % 16
  decide (r.base < 2 ^ 31) && !(decide (8 ≤ d) && decide (d ≤ 14)) &&
    decide (r.base % 2 ^ 27 + r.len ≤ pantryReach s (if d = 15 then die else d))

/-- A region's resolved first address. -/
def regionAddr (die : Nat) (r : Region) : Nat :=
  if r.sp = 1 then (if r.base / 2 ^ 27 % 16 = 15 then die * 2 ^ 27 + r.base % 2 ^ 27 else r.base) else r.base

/-- The space of a code. -/
def spaceOf (c : Nat) : Space := if c = 0 then .glob else if c = 1 then .pantry else .bench

/-- The declared footprint of a used region. -/
def regionFoot (die : Nat) (r : Region) : Foot := { sp := spaceOf r.sp, a := regionAddr die r, n := r.len }

/-- What a kind asks of its parameters (R268, R274, R275): sub-codes of CARD_FIELD, in ascending byte offset. Which byte is a wrong field's is
the model's choice: a missing region's is that of its length, a wrong base's that of the base, and of W0 that of the half which is
wrong (log 22). -/
def kindErrors (c : List Byte) : List (Bool × Nat × Nat) :=
  let rs := cardRegions c
  let len := fun i => (rs[i]?.map (fun r => r.len)).getD 0
  let sp := fun i => (rs[i]?.map (fun r => r.sp)).getD 0
  match cardKind c with
  | 1 => [(rowCount c == 0, 2, 4), (rowBytes c == 0, 2, 6), (len 0 == 0, 2, 16), (len 2 == 0, 2, 40), (cardW1 c % 8 != 0, 4, 56), (cardW2 c % 8 != 0, 4, 60)]
  | 2 => [(sp 0 == 2 || sp 1 != 2 || sp 2 != 2, 2, 3), (rowCount c == 0, 2, 4), (len 0 == 0, 2, 16),
          (decide (len 1 < rowCount c * (if cardW2 c % 2 = 1 then 8 else 4)), 2, 28), (len 2 == 0 || decide (len 2 < rowCount c * rowBytes c), 2, 40),
          (cardW1 c % 8 != 0, 4, 56), (cardW2 c / 2 != 0, 2, 60)]
  | 3 => [(decide (2 < colOp c) || decide (2 < colType c) || (colOp c == 2 && colType c != 0), 2, 4), (cardW0 c / 65536 != 0, 2, 6),
          (len 0 == 0 || decide (len 0 < inBytes c), 2, 16),
          (len 2 == 0 || decide (len 2 < (if colOp c = 2 then 16 * cardW1 c else inBytes c)), 2, 40),
          (colOp c == 2 && cardW1 c % 8 != 0, 2, 56), (cardW2 c != 0, 2, 60)]
  | 4 => [(len 0 == 0, 2, 16), (cardW2 c == 0 || decide (65535 < cardW2 c), 2, 60)]
  | _ => [(len 2 == 0, 2, 40), (len 2 != 0 && sp 2 != 2, 2, 3), (cardW1 c != 0, 2, 56), (cardW2 c != 0, 2, 60)]

/-- What a region's fields must be (R267). -/
def regionErrors (s : State) (die bench : Nat) (r : Region) : List (Bool × Nat × Nat) :=
  [(r.len == 0 && r.base != 0, 2, r.at_), (r.len == 0 && r.sp != 0 || (r.len != 0 && r.sp == 3), 2, 3),
   (r.len != 0 && r.base % 8 != 0, 4, r.at_), (r.len % 8 != 0, 4, r.atLen),
   (r.len != 0 && r.sp == 2 && decide (bench < r.base + r.len), 5, r.at_),
   (r.len != 0 && r.sp == 1 && !pantryRegionOk s die r, 2, r.at_)]

/-- The card error that a job ends with before any access: code and sub-code (R272). Where several apply, the model takes
CARD_KIND first and then the order of this list. -/
def cardError (s : State) (bd : Band) (mn : Nat) (c : List Byte) : Option (Nat × Nat) :=
  let k := cardKind c
  if !(if mn = 3 then k == 4 || k == 5 else k == mn + 1) then some (1, k)
  else
    let head : List (Bool × Nat × Nat) :=
      [(field c 1 1 / 2 != 0 || (field c 1 1 == 1 && k != 2), 2, 1), (field c 2 1 != 4, 2, 2)]
    let all := head ++ (cardRegions c).flatMap (regionErrors s bd.die bd.benchBytes) ++ kindErrors c
    (all.find? (fun x => x.1)).map (fun x => x.2)

/-! ### Issue (R269) -/

/-- The card as a bench load reads it: the string's own withheld bytes first (R58). -/
def readCard (s : State) (t : Str) (bd : Band) (a q : Nat) : List Byte :=
  (List.range 64).map (fun i => (ownByte s t q .bench [] (a + i)).getD (memGet bd.bench (a + i)))

/-- Jobs issued on a core that have not returned, those of its saved bands too (R51, R269). -/
def coreJobs (s : State) (die core : Nat) : List Job := s.jobs.filter (fun (j : Job) => j.die == die && j.core == core)

/-- A bench load of the card may not be performed yet: an earlier access of the string that it follows is not (R155, R158, R164, R166), or
its bytes are another agent's to perform first. -/
def cardBusy (s : State) (t : Str) (mask : Word32) (a q : Nat) : Bool :=
  let f : List Foot := [{ sp := .bench, a := a, n := 64 }]
  s.claimed t.band t.num [] f ||
    !s.plainFree t { b := t.band, n := t.num, q := q, mask := mask, feet := realFeet s t.band [] f, read := true, rel := false, fenced := false, self := 0 }

/-- A job form at issue (R269). -/
def State.jobForm (s : State) (mn : Nat) (a : SReg) : Host.Outcome State Fault Refusal :=
  s.onHead (fun t bu =>
    match s.band? t.band with
    | none => s
    | some bd =>
      let x := (readS bu.lat a.toNat).toNat
      if x % 64 ≠ 0 then s.raise t bu { cause := .align }
      else if x < bu.lat.benchb.toNat ∨ bu.lat.benchl.toNat < x + 64 then s.raise t bu { cause := .benchBound }
      else if case6 s bu.lat [] [{ sp := .bench, a := x, n := 64 }] then s.holdRelease bu (.drain 0 bu.seq)
      else if cardBusy s bu.lat bu.mask x bu.seq then s.hold bu (.card x)
      else if 64 ≤ (coreJobs s bd.die (bd.place.core?.getD 0)).length then s.hold bu .unit
      else
        match fullPath bu.lat [4] with
        | some p => s.hold bu (.full p)
        | none =>
          let op : Op := { id := 0, b := t.band, n := t.num, seq := 0, path := some 4, pc := bu.pc, kind := .job s.nextId }
          let card := readCard s bu.lat bd x s.nseq
          let q := s.nseq
          let r := s.addOp [4] op
          let j : Job := { id := r.2, b := t.band, n := some t.num, card := card, cardAt := x, mn := mn, pc := bu.pc, seq := q, op := r.2,
                           die := bd.die, core := bd.place.core?.getD 0 }
          r.1.modBun (fun y => { y with jobs := y.jobs ++ [j] }))

/-- JOB_CPY (R269). -/
def execJobCpy (a : SReg) (s : State) : Host.Outcome State Fault Refusal := s.jobForm 0 a
/-- JOB_GTH (R269). -/
def execJobGth (a : SReg) (s : State) : Host.Outcome State Fault Refusal := s.jobForm 1 a
/-- JOB_COL (R269). -/
def execJobCol (a : SReg) (s : State) : Host.Outcome State Fault Refusal := s.jobForm 2 a
/-- JOB_MC (R269). -/
def execJobMc (a : SReg) (s : State) : Host.Outcome State Fault Refusal := s.jobForm 3 a

/-- JOBQ (R278, R279). -/
def execJobq (d : SReg) (s : State) : Host.Outcome State Fault Refusal :=
  s.onHead (fun _ bu => s.writeScalar bu d.toNat bu.lat.jobErr .data)

/-! ### The scheduler (R270, R271) -/

/-- A job reaches the scheduler (R60, R270). -/
def submitJob (s : State) (j : Job) : State :=
  match s.band? j.b with
  | none => s
  | some bd =>
    let rs := (cardRegions j.card).zipIdx.filter (fun x => x.1.len != 0)
    let rd := (rs.filter (fun x => decide (x.2 < 2))).map (fun x => regionFoot bd.die x.1)
    let wr := (rs.filter (fun x => decide (2 ≤ x.2))).map (fun x => regionFoot bd.die x.1)
    let j := { j with rd := rd, wr := wr, deps := jobEdges s j.b rd wr ++ mopEdges s j.b rd wr }
    let s := s.modOp j.op (fun o => { o with sent := true })
    ({ s with jobs := s.jobs ++ [j] }).post [.jobStart j.id]

/-- A job's request has been answered or is still out. -/
def jobOut (s : State) (j : Nat) : Bool := s.reqs.any (fun (r : Req) => r.who == .job j)

/-- The job ends with an error, unless it has one (R272). -/
def jobFail (s : State) (j code sub : Nat) : State :=
  (s.modJob j (fun x => { x with err := if x.err.isSome then x.err else some (code, sub), ph := 4, todo := [] })).post [.jobReturn j]

/-- The job error record (R278). -/
def jobRecord (j : Job) (code sub : Nat) : Word64 :=
  1#1 ++ 0#7 ++ BitVec.ofNat 8 code ++ BitVec.ofNat 8 sub ++ BitVec.ofNat 4 (cardKind j.card) ++ 0#16 ++ BitVec.ofNat 20 j.cardAt

/-- A job error reaches its string: owed until the next delivery point, or the band is killed where the string has ended
(R212); a replaying band faults (R297). -/
def jobError (s : State) (j : Job) (code sub : Nat) : State :=
  match j.n with
  | none => (s.modBand j.b (fun b => { b with replayFault := true })).post [.replayFaultSettle j.b]
  | some n =>
    match s.str? j.b n with
    | some t =>
      if t.ended then killBand s j.b
      else
        let w : Late := { engine := true, detail := BitVec.ofNat 16 (sub * 256 + code), pc := j.pc, err := jobRecord j code sub }
        s.modStr j.b n (fun t => { t with late := t.late ++ [w] })
    | none => killBand s j.b

/-- A job returns (R271): path 4 falls, and strings that wait for a place look again. -/
def jobGone (s : State) (j : Job) : State :=
  let s := { s with jobs := s.jobs.filter (fun (x : Job) => x.id != j.id) }
  let s := { s with strs := s.strs.map unitFree }
  match j.n with
  | some _ => (s.modOp j.op (fun o => { o with fin := true, done := true })).post [.operationReturn j.op]
  | none => s

/-! ### Moving bytes (R271, R273, R274) -/

/-- A request of a job. -/
def jobReq (j : Job) (bd : Band) (k : ReqKind) (ty : Nat) (pinned : Bool) : Req :=
  { id := 0, who := .job j.id, kind := k, die := bd.die, core := j.core, pinned := pinned, ty := ty }

/-- The span entries of a global range, with the right that it needs; `none` is JOB_SPAN. -/
def jobSpans (s : State) (core : Nat) (bd : Band) (a n : Nat) (need : Word64 → Option Bad) : State × Option (List (Nat × Word64)) :=
  if 2 ^ 48 < a + n then (s, none)
  else
    (spansOf a n).foldl (fun (r : State × Option (List (Nat × Word64))) sp =>
      match r.2 with
      | none => r
      | some es =>
        let x := lookupSpan r.1 bd.die core bd.ctx sp
        match x.2 with
        | some e => (x.1, if (need e).isNone then some (es ++ [(sp, e)]) else none)
        | none => (x.1, none)) (s, some [])

/-- Read `n` bytes of a space for a job: from its own bench and die by their units, granule by granule, from elsewhere by requests. -/
def jobRead (s : State) (j : Job) (bd : Band) (sp : Nat) (a n : Nat) : State :=
  let s := s.modJob j.id (fun x => { x with got := [], todo := [], ph := 1 })
  let all := (List.range n).map (fun i => (i, a + i))
  let here := fun (s : State) => s.modJob j.id (fun x => { x with todo := all })
  let pin := pinnedOf s j.b
  match sp with
  | 2 => here s
  | 1 =>
    if a / 2 ^ 27 = bd.die then here s
    else (piecesByLine all).foldl (fun s x =>
      s.addReq { jobReq j bd (.read x.2) 3 pin with pdie := some (a / 2 ^ 27), line := x.1 } (fun i => [Instr.pantryVerb i])) s
  | _ =>
    match jobSpans s j.core bd a n needR with
    | (s, none) => jobFail s j.id 6 0
    | (s, some es) => (piecesByLine all).foldl (fun s x =>
      let h := homeOf (entFor es (x.1 * 128)) (x.1 * 128)
      s.addReq { jobReq j bd (.read x.2) 3 pin with home := h.1, ctx := h.2.1, line := h.2.2 / 128 } (homeEvent s h.1 (fun i => Instr.homeRequest i))) s

/-- Write bytes to a space for a job. -/
def jobWrite (s : State) (j : Job) (bd : Band) (sp : Nat) (a : Nat) (bytes : List Byte) : State :=
  let s := s.modJob j.id (fun x => { x with ph := 3, todo := [], data := bytes })
  let ws : List WByte := bytes.zipIdx.map (fun x => { a := a + x.2, v := x.1, seq := 0 })
  let here := fun (s : State) => s.modJob j.id (fun x => { x with todo := (List.range bytes.length).map (fun i => (i, a + i)) })
  let pin := pinnedOf s j.b
  match sp with
  | 2 => here s
  | 1 =>
    if a / 2 ^ 27 = bd.die then here s
    else (byLine ws).foldl (fun s x =>
      s.addReq { jobReq j bd (.write x.2) 4 pin with pdie := some (a / 2 ^ 27), line := x.1 } (fun i => [Instr.pantryVerb i])) s
  | _ =>
    match jobSpans s j.core bd a bytes.length needW with
    | (s, none) => jobFail s j.id 6 0
    | (s, some es) => (byLine ws).foldl (fun s x =>
      let h := homeOf (entFor es (x.1 * 128)) (x.1 * 128)
      s.addReq { jobReq j bd (.write x.2) 4 pin with home := h.1, ctx := h.2.1, line := h.2.2 / 128 } (homeEvent s h.1 (fun i => Instr.homeRequest i))) s

/-- The core's own units serve some granules of a job's row: which, is open (R154, R271). -/
def jobMore (s : State) (j : Job) (bd : Band) : State :=
  let now := someOf s.nfree (fun (p : Nat × Nat) => p.2) j.todo
  let rest := othersOf s.nfree (fun (p : Nat × Nat) => p.2) j.todo
  let s := { s with nfree := s.nfree + 1 }
  let pantry := (field j.card 3 1 / (if j.ph = 1 then 1 else 16) % 4 == 1)
  if j.ph = 1 then
    let m := if pantry then ((s.site? bd.die).map (fun (x : Site) => x.pantry)).getD [] else bd.bench
    let take := fun (g : SMap Byte) (p : Nat × Nat) => smPut 0#8 g p.1 (memGet m (if pantry then p.2 % 2 ^ 27 else p.2))
    s.modJob j.id (fun x => { x with todo := rest, got := now.foldl take x.got })
  else
    let ws : List WByte := now.map (fun p => { a := p.2, v := j.data.getD p.1 0#8, seq := 0 })
    let s := if pantry then writePantry s bd.die ws else s.modBand j.b (fun b => { b with bench := ws.foldl (fun m (w : WByte) => memPut m w.a w.v) b.bench })
    s.modJob j.id (fun x => { x with todo := rest })

/-- A region of the card by its place in the list. -/
def Job.region (j : Job) (i : Nat) : Region := (cardRegions j.card).getD i { sp := 0, base := 0, len := 0, at_ := 0, atLen := 0 }

/-- The index of a gather's row (R274). -/
def gatherIdx (j : Job) (bd : Band) : Int :=
  let w := if cardW2 j.card % 2 = 1 then 8 else 4
  let x := leNat (memBytes bd.bench ((j.region 1).base + j.row * w) w)
  if w = 8 then (BitVec.ofNat 64 x).toInt else (BitVec.ofNat 32 x).toInt

/-- Every row of a copy lies in its regions (R273). -/
def copyFits (j : Job) : Bool :=
  (List.range (rowCount j.card)).all (fun r =>
    decide (r * cardW1 j.card + rowBytes j.card ≤ (j.region 0).len) && decide (r * cardW2 j.card + rowBytes j.card ≤ (j.region 2).len))

/-- The bytes that a job has read for its row. -/
def Job.bytes (j : Job) (n : Nat) : List Byte := (List.range n).map (fun i => smGet 0#8 j.got i)

/-- The first address of a region plus an offset, as `jobRead` and `jobWrite` take it. -/
def Job.addr (j : Job) (die i off : Nat) : Nat := regionAddr die (j.region i) + off

/-- A job begins its next row, or is done with its rows. -/
def jobRow (s : State) (j : Job) (bd : Band) : State :=
  let rb := rowBytes j.card
  match cardKind j.card with
  | 1 =>
    if rowCount j.card ≤ j.row then s.modJob j.id (fun x => { x with ph := 4 })
    else jobRead s j bd (j.region 0).sp (j.addr bd.die 0 (j.row * cardW1 j.card)) rb
  | 2 =>
    if rowCount j.card ≤ j.row then s.modJob j.id (fun x => { x with ph := 4 })
    else
      let off := gatherIdx j bd * (cardW1 j.card : Int)
      if off < 0 ∨ ((j.region 0).len : Int) < off + rb then
        if field j.card 1 1 % 2 = 1 then jobWrite s j bd 2 (j.addr bd.die 2 (j.row * rb)) (List.replicate rb 0#8)
        else jobFail s j.id 8 0
      else jobRead s j bd (j.region 0).sp (j.addr bd.die 0 off.toNat) rb
  | _ => jobRead s j bd (j.region 0).sp (j.addr bd.die 0 0) (inBytes j.card)

/-- The group of a context. -/
def State.group? (s : State) (c g : Nat) : Option Group := s.groups.find? (fun (x : Group) => x.ctx == c && x.id == g)
/-- Change a group. -/
def State.modGroup (s : State) (c g : Nat) (f : Group → Group) : State :=
  { s with groups := s.groups.map (fun (x : Group) => if x.ctx == c && x.id == g then f x else x) }
/-- The member index of this module's die. -/
def memberOf (s : State) (g : Group) (die : Nat) : Option Nat :=
  g.members.findIdx? (fun (m : Member) => m.m == s.dev && m.die == die)

/-- A collective job's bytes reach the serai (R275): it belongs to its member's next instance, and the members on other modules are
sent its part. -/
def colReach (s : State) (j : Job) (bd : Band) : State :=
  let gi := colGroup j.card
  match s.group? bd.ctx gi with
  | none => jobFail s j.id 9 0
  | some g =>
    match memberOf s g bd.die with
    | none => jobFail s j.id 9 0
    | some k =>
      let inst := ((g.members[k]?).map (fun (m : Member) => m.issued)).getD 0
      let s := s.modGroup bd.ctx gi (fun x => { x with members := x.members.modify k (fun m => { m with issued := m.issued + 1 }) })
      let x : Sent := { idx := k, inst := inst, op := cardW0 j.card % 256, w1 := cardW1 j.card, bytes := j.bytes (inBytes j.card) }
      let far := (List.range 16).filter (fun m => m != s.dev && g.members.any (fun (y : Member) => y.m == m))
      let s := far.foldl (fun s m => s.toPeer m 0 (.sent bd.ctx gi x)) s
      (s.modJob j.id (fun x => { x with ph := 2, inst := inst })).post [.collectiveInstanceComplete bd.ctx gi inst]

/-- A job's row has been read: it is written, or handed to the collective or the multicast. -/
def jobHave (s : State) (j : Job) (bd : Band) : State :=
  let rb := rowBytes j.card
  match cardKind j.card with
  | 1 => jobWrite s j bd (j.region 2).sp (j.addr bd.die 2 (j.row * cardW2 j.card)) (j.bytes rb)
  | 2 => jobWrite s j bd 2 (j.addr bd.die 2 (j.row * rb)) (j.bytes rb)
  | 3 => colReach s j bd
  | _ => (s.modJob j.id (fun x => { x with ph := 2 })).post
      ((List.range (cardW2 j.card)).map (fun i => Instr.multicastFill j.id (cardW1 j.card + i)))

/-- The die of the job's engine is not held in isolation (R330). -/
def engineOn (s : State) (j : Job) : Bool := (s.site? j.die).all (fun (x : Site) => x.st == .admitted || x.st == .quiescing)

/-- JOB_RETURN (R271): the job goes on as its accesses are performed, and returns when all of them are or it has ended in
error (R272). -/
def execJobReturn (i : Nat) (s : State) : Host.Outcome State Fault Refusal :=
  .next (
    match s.job? i with
    | none => s
    | some j =>
      match s.band? j.b with
      | none => s
      | some bd =>
        if !j.started || j.ph == 2 || j.ph == 5 || (j.ph == 3 && cardKind j.card == 5) then s
        else if jobOut s i || (j.err.isNone && !engineOn s j) then s.post [.jobReturn i]
        else if !j.todo.isEmpty then (jobMore s j bd).post [.jobReturn i]
        else
          match j.err with
          | some (c, x) => jobGone (jobError s j c x) j
          | none =>
            if j.ph = 4 then jobGone s j
            else if j.ph = 1 then (jobHave s j bd).post (if cardKind j.card ≤ 2 then [.jobReturn i] else [])
            else
              let s := if j.ph = 3 then s.modJob i (fun x => { x with row := x.row + 1, ph := if cardKind j.card ≤ 2 then 0 else 4 }) else s
              match s.job? i with
              | some j => if j.ph = 4 then s.post [.jobReturn i] else (jobRow s j bd).post [.jobReturn i]
              | none => s)

/-! ### Collectives (R275, R276) -/

/-- The measurement of the bale that a band runs. -/
def bandMeas (s : State) (bd : Band) : BitVec 512 := ((s.bale? bd.bale).map (fun (b : Bale) => b.meas)).getD 0#512

/-- A collective job is accepted for its group, or ends with COL_GROUP or COL_MEASUREMENT_CHANGED (R275, R276). -/
def joinInstance (s : State) (j : Job) (bd : Band) : State :=
  let gi := colGroup j.card
  match s.group? bd.ctx gi with
  | none => jobFail s j.id 9 0
  | some g =>
    match memberOf s g bd.die with
    | none => jobFail s j.id 9 0
    | some k =>
      match g.members[k]? with
      | none => jobFail s j.id 9 0
      | some m =>
        let meas := bandMeas s bd
        if g.broken then jobFail s j.id 11 g.changed
        else if m.recheck && m.meas.any (fun x => x != meas) then
          jobFail (s.modGroup bd.ctx gi (fun x => { x with broken := true, changed := k })) j.id 11 k
        else
          (s.modGroup bd.ctx gi (fun x => { x with members := x.members.modify k (fun m =>
            { m with meas := some (m.meas.getD meas), recheck := false }) })).post [.jobReturn j.id]

/-- The mark of a `fence.rel` that stands before a job of its string is not yet met (R163). -/
def fenceBefore (s : State) (j : Job) : Bool :=
  match j.n with
  | some n => s.rels.any (fun x => pendingRel j.b n j.seq x && x.2.2.isFence)
  | none => false

/-- JOB_START (R163, R173, R270, R272): once its edges and its string's earlier accesses and fences allow; a card error ends it before
any access. -/
def execJobStart (i : Nat) (s : State) : Host.Outcome State Fault Refusal :=
  .next (
    match s.job? i with
    | none => s
    | some j =>
      if j.started then s
      else if !(depsDone s j.deps && strClear s j.b (j.n.getD 32) j.seq (j.rd ++ j.wr)) || fenceBefore s j ||
          s.claimed j.b (j.n.getD 32) [] (j.rd ++ j.wr) || !engineOn s j then s.post [.jobStart i]
      else
        match s.band? j.b with
        | none => s
        | some bd =>
          let s := s.modJob i (fun x => { x with started := true })
          match cardError s bd j.mn j.card with
          | some (c, x) => jobFail s i c x
          | none =>
            match cardKind j.card with
            | 1 => if copyFits j then s.post [.jobReturn i] else jobFail s i 3 0
            | 3 => joinInstance s j bd
            | 5 => s.modJob i (fun x => { x with ph := 5 })
            | _ => s.post [.jobReturn i])

/-- What a member has sent: OP with TYPE, W1, its bytes. -/
def memberSent (s : State) (c gi k : Nat) (g : Group) (m : Member) (idx : Nat) : Option (Nat × Nat × List Byte) :=
  if m.m = s.dev then
    (s.jobs.find? (fun (j : Job) => cardKind j.card == 3 && colGroup j.card == gi && j.inst == k && j.ph == 2 &&
      (s.band? j.b).any (fun (bd : Band) => bd.ctx == c && bd.die == m.die))).map
        (fun (j : Job) => (cardW0 j.card % 256, cardW1 j.card, j.bytes (inBytes j.card)))
  else (g.sent.find? (fun (x : Sent) => x.idx == idx && x.inst == k)).map (fun x => (x.op, x.w1, x.bytes))

/-- Element `e` of a member's bytes. -/
def colElem (w : Nat) (e : Nat) (bs : List Byte) : Nat := field bs (w * e) w

/-- One element of a reduction over the members, by the tree of R149. -/
def reduceElem (op ty : Nat) (xs : List Nat) : Nat :=
  let leaf := fun i => (xs[i]?).map (fun x => if ty = 1 then (widen bf16 x).x else x)
  let comb : Nat → Nat → FRes := fun x y =>
    if ty = 2 then
      (if op = 0 then { x := (x + y) % 2 ^ 32 }
       else { x := if (BitVec.ofNat 32 x).toInt < (BitVec.ofNat 32 y).toInt then y else x })
    else if op = 0 then fAdd fp32 .rne (fp32.dec x) (fp32.dec y)
    else minMax fp32 false x y
  let r := ((treeNode comb leaf 4 0).getD { x := 0 }).x
  if ty = 1 then (convInto bf16 .rne false (fp32.decNan r)).x else r

/-- The result of an instance (R275). -/
def colResult (op ty w1 : Nat) (sent : List (List Byte)) : List Byte :=
  if op = 2 then sent.flatMap (fun bs => bs.take w1)
  else
    let w := if ty = 1 then 2 else 4
    (List.range w1).flatMap (fun e => leBytes w (reduceElem op ty (sent.map (colElem w e))))

/-- The local jobs of an instance. -/
def instJobs (s : State) (c gi k : Nat) : List Job :=
  s.jobs.filter (fun (j : Job) => cardKind j.card == 3 && colGroup j.card == gi && j.inst == k && j.started && j.err.isNone &&
    (s.band? j.b).any (fun (bd : Band) => bd.ctx == c))

/-- A member of another module sends its part of an instance (R275), when it does: what it brings is its own, and free here. One that was
reset may come with another measurement, which breaks the group (R276). -/
def farMember (ctx gi k op w1 n : Nat) (s : State) (x : Member × Nat) : State :=
  let i := s.nfree
  let s := { s with nfree := s.nfree + n + 5 }
  match s.group? ctx gi with
  | none => s
  | some g =>
    if x.1.m = s.dev ∨ g.broken = true ∨ g.sent.any (fun (y : Sent) => y.idx == x.2 && y.inst == k) = true ∨ Config.freeBool i = false then s
    else if x.1.recheck && Config.freeBool (i + 1) then s.modGroup ctx gi (fun g => { g with broken := true, changed := x.2 })
    else
      let same := Config.freeBool (i + 2)
      let y : Sent := { idx := x.2, inst := k, op := if same then op else (Config.freeWord (i + 3)).toNat % 256,
                        w1 := if same then w1 else (Config.freeWord (i + 4)).toNat % 2 ^ 32,
                        bytes := (List.range n).map (fun e => (Config.freeWord (i + 5 + e)).extractLsb' 0 8) }
      s.modGroup ctx gi (fun g => { g with sent := g.sent ++ [y], members := g.members.modify x.2 (fun m => { m with recheck := false }) })

/-- COLLECTIVE_INSTANCE_COMPLETE (R275): every member has sent; every member receives the same bits, or, where the members
disagree, COL_GROUP. Parts that members of other modules still owe are waited for. A job that waits in an instance as its group breaks:
the rule speaks of later jobs alone (R276); it ends with COL_MEASUREMENT_CHANGED where the group has a member on another module, and waits on
where all are here (log 95). -/
def execCollectiveInstanceComplete (ctx grp k : Nat) (s : State) : Host.Outcome State Fault Refusal :=
  .next (
    match s.group? ctx grp, (instJobs s ctx grp k).filter (fun (j : Job) => j.ph == 2) with
    | none, _ | _, [] => s
    | some g0, j0 :: rest =>
      let js := j0 :: rest
      let s := g0.members.zipIdx.foldl (farMember ctx grp k (cardW0 j0.card % 256) (cardW1 j0.card) (inBytes j0.card)) s
      match s.group? ctx grp with
      | none => s
      | some g =>
        if g.broken then js.foldl (fun s j => jobFail s j.id 11 g.changed) s
        else
          let sent := g.members.zipIdx.filterMap (fun x => memberSent s ctx grp k g x.1 x.2)
          if sent.length < g.members.length then
            (if g.members.any (fun (m : Member) => m.m != s.dev) then s.post [.collectiveInstanceComplete ctx grp k] else s)
          else
            match sent with
            | [] => s
            | (op, w1, _) :: _ =>
              let s := s.modGroup ctx grp (fun x => { x with sent := x.sent.filter (fun (y : Sent) => y.inst != k) })
              if sent.all (fun x => x.1 == op && x.2.1 == w1) then
                let res := colResult (op % 16) (op / 16) w1 (sent.map (fun x => x.2.2))
                js.foldl (fun s j =>
                  match s.band? j.b with
                  | some bd => (jobWrite s j bd (j.region 2).sp (j.addr bd.die 2 0) res).post [.jobReturn j.id]
                  | none => s) s
              else js.foldl (fun s j => jobFail s j.id 9 0) s)

/-- A job of an instance has all its writes performed. -/
def colWritten (s : State) (j : Job) : Bool := j.ph == 4 || (j.ph == 3 && j.todo.isEmpty && !jobOut s j.id)

/-- The instances in progress on a group (R276): a member's job has reached the serai, and not every member's writes are performed. Of a
member on another module that is free. -/
def openInstances (s : State) (g : Group) : List Nat :=
  let js := s.jobs.filter (fun (j : Job) => cardKind j.card == 3 && colGroup j.card == g.id && j.started && j.err.isNone && decide (2 ≤ j.ph) &&
    (s.band? j.b).any (fun (bd : Band) => bd.ctx == g.ctx))
  let far := g.members.any (fun (m : Member) => m.m != s.dev)
  (sortNats (js.map (fun (j : Job) => j.inst) ++ g.sent.map (fun (x : Sent) => x.inst))).filter (fun k =>
    g.sent.any (fun (x : Sent) => x.inst == k) || js.any (fun (j : Job) => j.inst == k && (!colWritten s j || (far && Config.freeBool s.nfree))))

/-- A member's die leaves ADMITTED, or is lost: every instance in progress on its groups is aborted on every member, and numbering restarts; what has
not reached the serai belongs to the instances after it (R276). A member's job that has returned keeps its success (log 95). -/
def abortCollectives (s : State) (m die : Nat) : State :=
  let hit := s.groups.filter (fun (g : Group) => g.members.any (fun (x : Member) => x.m == m && x.die == die))
  hit.foldl (fun s g =>
    let idx := (g.members.findIdx? (fun (x : Member) => x.m == m && x.die == die)).getD 0
    let ks := openInstances s g
    let s := { s with nfree := s.nfree + 1 }
    let js := s.jobs.filter (fun (j : Job) => cardKind j.card == 3 && colGroup j.card == g.id && j.started && j.err.isNone && decide (2 ≤ j.ph) &&
      ks.contains j.inst && (s.band? j.b).any (fun (bd : Band) => bd.ctx == g.ctx))
    let s := js.foldl (fun s j => jobFail s j.id 10 idx) s
    s.modGroup g.ctx g.id (fun x => { x with sent := if ks.isEmpty then x.sent else [], members := x.members.map (fun (y : Member) =>
      { y with issued := if ks.isEmpty then y.issued else 0, recheck := y.recheck || (y.m == m && y.die == die) }) })) s

/-! ### Multicast (R277) -/

/-- A target of a send is settled; the send returns when every target is. -/
def targetDone (s : State) (j target : Nat) (err : Option (Nat × Nat)) : State :=
  let s := s.modJob j (fun x => { x with filled := x.filled ++ [target], err := if x.err.isSome then x.err else err })
  match s.job? j with
  | some x =>
    if cardW2 x.card ≤ x.filled.length then (s.modJob j (fun x => { x with ph := 4 })).post [.jobReturn j] else s
  | none => s

/-- The die of a band index. -/
def bandDie (l : Launch) (b : Nat) : Nat :=
  let n := l.dies.length
  let i := if l.placeIdx = 255 then b % n
    else
      let a := ((l.args.getD l.placeIdx 0#64).toNat + b * l.stride) % 2 ^ 64
      (a / 2 ^ 21 ^^^ a / 2 ^ 29) % n
  l.dies.getD i 0

/-- A receive that waits for a fill: one that a send which is gone was filling waits again. -/
def waitsFill (s : State) (r : Job) : Bool :=
  cardKind r.card == 5 && r.ph != 4 && (r.ph != 3 || (s.job? r.inst).isNone)

/-- MULTICAST_FILL (R277, R223): the oldest matching receive of the target takes the bytes, once it has started, some granules at a time (R154);
a target without one waits, unless it has ended; a target on a die that is not ADMITTED draws NR_DIE_ABSENT (R335), unless it is a saved
band. -/
def execMulticastFill (i target : Nat) (s : State) : Host.Outcome State Fault Refusal :=
  .next (
    match s.job? i with
    | none => s
    | some j =>
      if j.ph ≠ 2 ∨ j.filled.contains target = true then s
      else
        match (s.band? j.b).bind (fun (bd : Band) => s.launch? bd.launch) with
        | none => s
        | some l =>
          if l.x * l.y * l.z ≤ target then targetDone s i target (some (12, 0))
          else
            let bands := s.bands.filter (fun (b : Band) => b.launch == l.id && b.index == target)
            let absent := !(s.site? (bandDie l target)).any (fun (st : Site) => st.st == .admitted) &&
              !bands.any (fun (b : Band) => match b.place with | .saved _ | .ended => true | _ => false)
            if absent then targetDone s i target (some (7, 4))
            else
              let mine := s.jobs.filter (fun (r : Job) => cardKind r.card == 5 && bands.any (fun (b : Band) => b.id == r.b))
              match mine.find? (fun (r : Job) => r.ph == 3 && r.inst == i),
                    mine.find? (fun (r : Job) => waitsFill s r && cardW0 r.card == cardW0 j.card) with
              | some r, _ =>
                if r.todo.isEmpty then targetDone ((s.modJob r.id (fun x => { x with ph := 4 })).post [.jobReturn r.id]) i target none
                else
                  match s.band? r.b with
                  | some b => (jobMore s r b).post [.multicastFill i target]
                  | none => s
              | none, some r =>
                let n := inBytes j.card
                if r.ph ≠ 5 ∧ r.ph ≠ 3 then s.post [.multicastFill i target]
                else if (r.region 2).len ≠ n then targetDone (jobFail s r.id 13 0) i target (some (13, 0))
                else
                  (s.modJob r.id (fun x => { x with ph := 3, inst := i, data := j.bytes n,
                                                    todo := (List.range n).map (fun k => (k, (r.region 2).base + k)) })).post [.multicastFill i target]
              | none, none =>
                if bands.any (fun (b : Band) => b.place == .ended) || (bands.isEmpty && l.stopped) then targetDone s i target (some (12, 0))
                else s.post [.multicastFill i target])

end Sys2Proof.Machine
end

