-- ==== Sys2Proof/Machine/Reply.lean ====
section
/-! DEFINITION. Negative replies (R182, R212, R271, R315, R367), and what the dispatcher and the executive firmware read and
write in memory for themselves (R34, R35, R285, R341). -/

namespace Sys2Proof.Machine
open Sys2Proof

/-! ### Negative replies -/

/-- The context of an agent's accesses. -/
def Req.agentCtx (s : State) (r : Req) : Nat :=
  match r.who with
  | .str b _ => ctxOf s b
  | .job j => ((s.job? j).map (fun (x : Job) => ctxOf s x.b)).getD r.ctx
  | _ => r.ctx

/-- A released entry is refused (R182): its count falls and its band is killed. -/
def entryRefused (s : State) (r : Req) (b : Nat) : State := reqDone (killBand s b) r

/-- A load, `get` or returning atomic is refused (R182, R212): its result is never written, and REMOTE_NEG is raised. -/
def opRefused (s : State) (r : Req) (o : Op) (code : Nat) : State :=
  let strike := fun (w : List Owed) => w.filter (fun (x : Owed) => x.o != o.id)
  let s := s.modStr o.b o.n (fun t => { t with owed := strike t.owed, rp := { t.rp with owed := strike t.rp.owed },
                                               wait := if t.wait = .reply o.id then .none else t.wait })
  reqDone (remoteNeg (s.modOp o.id (fun x => { x with undone := true })) o.b o.n code o.pc) r

/-- The host's access is refused (R367): a read or AtomicOp completes as Completer Abort, a posted write is discarded and
recorded. -/
def hostRefused (s : State) (r : Req) (off : Nat) : State :=
  let s := match r.kind with
    | .write _ => let a := r.va.getD (r.ctx, r.line * 128); s.logErr 0x367 a.1 a.2
    | _ => { s with replies := s.replies ++ [(off, HostReply.abort)] }
  s.dropReq r.id

/-- NEGATIVE_REPLY (R182, R212, R271, R315): one to a die that is lost is discarded (R335); NR_RETRY is sent again; every other code ends the access. In a confidential
context NR_PERM and NR_KEY quarantine it (R221): those that a string's or a job's access drew, not the host's or the serai's, whose
access is not said to be the context's (log 98), and also where a rollback has undone the access (log 106). -/
def execNegativeReply (i : Nat) (code : BitVec 8) (s : State) : Host.Outcome State Fault Refusal :=
  .next (
    match s.req? i with
    | none => s
    | some r =>
      if !dieTakes s r.die then s.dropReq i
      else if code = 9#8 then (s.modReq i Req.away).again r
      else
        let c := r.agentCtx s
        let op := r.op.bind (fun o => s.op? o)
        let s := match op with
          | some o =>
            if o.undone then reqDone s r
            else if o.isPut then entryRefused (s.modOp o.id (fun x => { x with undone := true })) r o.b
            else opRefused s r o code.toNat
          | none =>
            match r.who with
            | .str b _ => entryRefused s r b
            | .job j => jobFail (s.dropReq i) j 7 code.toNat
            | .host off => hostRefused s r off
            | .serai .. => (s.logErr 0x35 r.ctx (r.line * 128)).dropReq i
            | _ => s.dropReq i
        if (code = 2#8 ∨ code = 6#8) ∧ (match r.who with | .str .. | .job _ => true | _ => false) = true then violation s c else s)

/-! ### Reads by the dispatcher and the firmware -/

/-- What a read meets: the bytes, with the free values that another module's were drawn from counted; a line on which a transaction is in progress, or a page that has just been serviced, so that
the read is made again; or a failure. -/
inductive Peek where
  | bytes (s : State) (bs : List Byte)
  | again (s : State)
  | fail (s : State)
  deriving DecidableEq, Repr

/-- The span entry of an address in a context, read by the serai. -/
def seraiSpan (s : State) (ctx va : Nat) : State × Option Word64 :=
  if 2 ^ 48 ≤ va then (s, none) else walkSpan s 15 0 ctx (va / 2 ^ 21)

/-- A line's value at its home, as the serai reads it: a holder's, or memory's, whose errors are those of R315 and R357. -/
def peekValue (s : State) (ctx line : Nat) : State × Option LineData :=
  match if (s.heldLine ctx line).isSome then (s, none) else s.lineCheck ctx line with
  | (s, some e) => (if e.2 then quarantine s ctx else s, none)
  | (s, none) => (s, some (s.lineNow ctx line))

/-- Read some bytes of one line at this module's home (R285, R341). An absent page is serviced, or is found to have no data:
which is open (R362). -/
def peekHome (s : State) (ctx ha n : Nat) : Peek :=
  let line := ha / 128
  if (s.txn? ctx line).isSome || s.homeClaimed ctx ha n then .again s
  else if ctx ≠ 0 ∧ (s.ctx? ctx).isNone then .fail s
  else
    match s.page? ctx (ha / 65536) with
    | some p =>
      if p.mov then .again s
      else if p.v then
        match peekValue s ctx line with
        | (s, none) => .fail s
        | (s, some d) => .bytes (shadowRead s 15 0 ctx ha) (d.drop (ha % 128) |>.take n)
      else
        let k := { s with nfree := s.nfree + 1 }
        if Config.freeBool s.nfree then .again (k.modPage ctx (ha / 65536) (fun p => { p with v := true })) else .fail k
    | none =>
      let r := learnAlloc { s with nfree := s.nfree + 1 } ctx (ha / 65536) (Config.freeBool s.nfree)
      match if r.2 = 0#8 then none else giveIn r.1 ctx (ha / 65536) r.2 with
      | some s => .again s
      | none => .fail r.1

/-- Read some bytes of one line of a context's address space. Bytes of another module are its own: free here. -/
def peekLine (s : State) (ctx va n : Nat) : Peek :=
  match seraiSpan s ctx va with
  | (s, none) => .fail s
  | (s, some e) =>
    if !entR e then .fail s
    else
      let h := homeOf e va
      if h.1 = 16 then .bytes s (memBytes s.host h.2.2 n)
      else if h.1 = s.dev then peekHome s h.2.1 h.2.2 n
      else if peerDead s h.1 then .fail s
      else .bytes { s with nfree := s.nfree + n } ((List.range n).map (fun i => (Config.freeWord (s.nfree + i)).extractLsb' 0 8))

/-- Read a range, line by line; `fuel` bounds the lines. -/
def peekFrom : Nat → State → Nat → Nat → Nat → List Byte → Peek
  | 0, s, _, _, _, acc => .bytes s acc
  | fuel + 1, s, ctx, va, n, acc =>
    if n = 0 then .bytes s acc
    else
      let k := min n (128 - va % 128)
      match peekLine s ctx va k with
      | .bytes s bs => peekFrom fuel s ctx (va + k) (n - k) (acc ++ bs)
      | r => r

/-- Read `n` bytes of a context's address space. -/
def peekVa (s : State) (ctx va n : Nat) : Peek := peekFrom (n / 128 + 2) s ctx va n []

/-! ### Writes by the serai -/

/-- Send the serai's write of some bytes, line by line; one whose span is missing or refuses it is logged and dropped. -/
def seraiWrite (s : State) (q sq ctx va : Nat) (bs : List Byte) : State :=
  let ws : List WByte := bs.zipIdx.map (fun x => { a := va + x.2, v := x.1, seq := 0 })
  (byLine ws).foldl (fun s x =>
    match seraiSpan s ctx (x.1 * 128) with
    | (s, none) => s.logErr 0x35 ctx (x.1 * 128)
    | (s, some e) =>
      if !entW e then s.logErr 0x35 ctx (x.1 * 128)
      else
        let h := homeOf e (x.1 * 128)
        s.addReq { id := 0, who := .serai q sq, kind := .write x.2, home := h.1, ctx := h.2.1, line := h.2.2 / 128, ty := 1 }
          (homeEvent s h.1 (fun i => Instr.homeRequest i))) s

/-- A completion record (R35). A count above 65,535 does not fit its bytes 4 and 5, and the spec does not say what they hold then: the model
writes it modulo 2^16 (log 97). -/
def completionRec (status count flags sq : Nat) : List Byte :=
  leBytes 4 status ++ leBytes 2 count ++ [BitVec.ofNat 8 flags, 0#8] ++ leBytes 8 sq

/-- A packet's record has been sent and performed. -/
def pktDone (s : State) (q : Nat) (p : Pkt) : Bool := p.done && !s.reqs.any (fun (r : Req) => r.who == .serai q p.sq)

/-- A packet ends with its completion record (R35). -/
def endPacket (s : State) (q sq ctx va status count flags : Nat) : State :=
  let s := s.modQueue q (fun x => { x with pkts := x.pkts.map (fun (p : Pkt) => if p.sq = sq then { p with done := true } else p) })
  seraiWrite s q sq ctx va (completionRec status count flags sq)

/-- A packet that writes no record is counted (R33). -/
def dropPacket (s : State) (q sq : Nat) : State :=
  s.modQueue q (fun x => { x with errcnt := x.errcnt + 1#32, pkts := x.pkts.filter (fun (p : Pkt) => p.sq != sq) })

end Sys2Proof.Machine
end

