-- ==== Sys2Proof/Machine/Launch.lean ====
section
/-! DEFINITION. Launches (R32 to R37, R341): a packet's checks, the launch that it starts, the die of each band (R53), its
placement (R54, R56), its start and its end, and the launch's completion (R35, R175, R292). -/

namespace Sys2Proof.Machine
open Sys2Proof

/-! ### Bales and packets -/

/-- A band of a bale is left: one that has not ended, or one that a launch of it has still to make. -/
def baleBusy (s : State) (i : Nat) : Bool :=
  s.bands.any (fun (b : Band) => b.bale == i && !b.over) ||
    s.launches.any (fun (l : Launch) => l.bale == i && !l.complete && !l.stopped && decide (l.next < l.x * l.y * l.z))

/-- The bale that a launch of a context and code uses (R354): one that a later LOAD replaces serves until no band of it is left. -/
def State.baleFor (s : State) (ctx code : Nat) : Option Bale :=
  match s.bales.find? (fun (b : Bale) => b.ctx == ctx && b.code == code && b.old && baleBusy s b.id) with
  | some b => some b
  | none => s.bales.find? (fun (b : Bale) => b.ctx == ctx && b.code == code && !b.old)

/-- The dies of a code's kind (R33). -/
def kindDies (code : Nat) : List Nat := if code = 1 then [0, 1, 2, 3] else if code = 2 then [4, 5, 6, 7] else [8, 9]

/-- The dies that a launch may use: packet mask and queue mask, of the code's kind (R33, R341). -/
def maskDies (q : Queue) (bs : List Byte) : List Nat :=
  (kindDies (field bs 2 1)).filter (fun d => (BitVec.ofNat 10 (field bs 30 2) &&& q.mask).getLsbD d)

/-- The packet's completion signal address is one that a record can be written to (R33). -/
def signalOk (bs : List Byte) : Bool := field bs 40 8 != 0 && field bs 40 8 % 16 == 0

/-- A field of a launch packet lies outside R32, or a check of R33 or R341 fails. -/
def badLaunch (s : State) (q : Queue) (bs : List Byte) : Bool :=
  let code := field bs 2 1
  let fl := field bs 3 1
  let x := field bs 12 4
  let y := field bs 16 4
  let z := field bs 20 4
  let bench := field bs 24 4
  field bs 0 2 != 1 || decide (code < 1) || decide (3 < code) || decide (32 ≤ fl) || decide (field bs 5 1 < 1) ||
    decide (32 < field bs 5 1) || decide (field bs 6 1 < 1) || decide (16 < field bs 6 1) || decide (16 < field bs 7 1) ||
    x == 0 || y == 0 || z == 0 || bench % 128 != 0 || decide (48 < field bs 28 1) || decide (1024 ≤ field bs 30 2) ||
    field bs 32 8 % 8 != 0 || !signalOk bs || decide (4096 ≤ field bs 56 2) || field bs 58 6 != 0 ||
    decide (2 ^ 32 < x * y * z) || (fl / 2 % 4 != 0 && field bs 52 4 == 0) ||
    (code == 3 && (field bs 5 1 != 1 || bench != 0 || field bs 28 1 != 0 || field bs 7 1 != 0)) ||
    (maskDies q bs).isEmpty || field bs 56 2 != q.ctx ||
    (match s.baleFor q.ctx code with
     | none => true
     | some b =>
       decide (b.len ≤ field bs 8 4) || (field bs 29 1 != 255 && decide (b.nargs ≤ field bs 29 1)) || field bs 5 1 != b.strings ||
         decide (8 * field bs 6 1 < b.regs) || decide (bench < b.bench) || decide (field bs 28 1 < b.tiles) ||
         decide (field bs 7 1 < b.bars))

/-- A signal or drop packet uses only its own fields (R34). -/
def badSignal (q : Queue) (bs : List Byte) (drop : Bool) : Bool :=
  let used := fun i => i < 2 || (40 ≤ i && i < 48) || (56 ≤ i && i < 58) || (drop && 52 ≤ i && i < 56)
  bs.zipIdx.any (fun x => !used x.2 && x.1 != 0#8) || decide (4096 ≤ field bs 56 2) || field bs 56 2 != q.ctx || !signalOk bs

/-- A packet in progress. -/
def State.pkt? (s : State) (q sq : Nat) : Option (Queue × Pkt) :=
  match s.queue? q with
  | none => none
  | some x => (x.pkts.find? (fun (p : Pkt) => p.sq == sq)).map (fun p => (x, p))

/-- An earlier signal packet of the queue has not completed (R34). -/
def behindSignal (s : State) (x : Queue) (sq : Nat) : Bool :=
  x.pkts.any (fun (p : Pkt) => decide (p.sq < sq) && field p.bytes 0 2 == 2 && !pktDone s x.q p)

/-! ### Dies and cores of a band (R53, R54) -/

/-- Profile of a code. -/
def codeProf (code : Nat) : Profile := if code = 1 then .lane else if code = 2 then .array else .control

/-- A core's limits: partitions, strings per partition, register bytes per partition, bench bytes (R15, R18). -/
def coreLimits (p : Profile) : Nat × Nat × Nat × Nat :=
  match p with
  | .lane => (16, 8, 131072, 524288)
  | .array => (16, 8, 131072, 1048576)
  | _ => (1, 1, 131072, 0)

/-- The register bytes of a string: registers per lane, 4 bytes, its lanes. -/
def strBytes (p : Profile) (regs : Nat) : Nat := regs * 4 * (if p = .lane ∨ p = .array then 32 else 1)

/-- Strings of a band on partition `p`. -/
def strsOn (bd : Band) (parts p : Nat) : Nat := ((List.range bd.nstr).filter (fun n => n % parts == p)).length

/-- Bench and stack bytes of a band (R37). -/
def benchNeed (bd : Band) : Nat := if bd.prof = .control then 0 else bd.benchBytes + 4096 * bd.nstr

/-- Bands that hold a core's resources. -/
def coreBands (s : State) (die core : Nat) : List Band :=
  s.bands.filter (fun (b : Band) => b.die == die && (match b.place with | .resident c | .parked c | .killed c => c == core | _ => false))

/-- Room for one more band beside some bands (R54). -/
def fits (others : List Band) (bd : Band) : Bool :=
  let (parts, per, bytes, bench) := coreLimits bd.prof
  let all := bd :: others
  (List.range parts).all (fun p =>
    decide ((all.map (fun b => strsOn b parts p)).sum ≤ per) &&
    decide ((all.map (fun b => strsOn b parts p * strBytes b.prof b.regs)).sum ≤ bytes)) &&
  decide ((all.map benchNeed).sum ≤ bench) && decide ((all.map (fun (b : Band) => b.nbars)).sum ≤ 16) &&
  decide ((all.map (fun (b : Band) => b.ntiles)).sum ≤ 48) && decide (all.length ≤ 16)

/-- A band as it is placed: one that replays has its bench and tiles, and no strings (R296). -/
def placedAs (s : State) (bd : Band) : Band :=
  if bd.replayAt.isSome || (!bd.plain && (s.launch? bd.launch).any (fun (l : Launch) => l.replay)) then { bd with nstr := 0 } else bd

/-- A core with room for a band. -/
def roomOn (s : State) (die core : Nat) (bd : Band) : Bool := fits ((coreBands s die core).map (placedAs s)) (placedAs s bd)

/-- Core numbers of a die, round robin from the one after `last`. -/
def robin (s : State) (die last : Nat) : List Nat :=
  let cs := (s.cores.filter (fun (c : Core) => c.die == die)).map (fun (c : Core) => c.num)
  cs.filter (fun c => decide (last < c)) ++ cs.filter (fun c => decide (c ≤ last))

/-- The cores of a die in the order of the dispatcher's visits (R54). -/
def nextCores (s : State) (die : Nat) : List Nat :=
  match s.site? die with
  | none => []
  | some st => robin s die st.lastCore

/-! ### A band starts -/

/-- The segment of a bale that holds a bundle index. -/
def segOf (bl : Bale) (i : Nat) : Option (Nat × Segment) :=
  (bl.segs.zipIdx.find? (fun x => decide (x.1.first ≤ i) && decide (i < x.1.first + x.1.len))).map (fun x => (x.2, x.1))

/-- The bench bounds of a segment for a band (R64). -/
def segBounds (bd : Band) (sg : Segment) : Word64 × Word64 :=
  if sg.benchb = 0 ∧ sg.benchl = 0 then (0#64, BitVec.ofNat 64 bd.benchBytes)
  else (BitVec.ofNat 64 (min sg.benchb bd.benchBytes), BitVec.ofNat 64 (min sg.benchl bd.benchBytes))

/-- A string at band start (R37, R39, R58): every register reads zero (log 2); MODE is set in the device OS and in
the executive firmware (R244). -/
def freshStr (bd : Band) (bl : Bale) (entry n q : Nat) : Str :=
  let lanes := if bd.prof = .control then 1 else 32
  let p : Path := { pc := bl.base + BitVec.ofNat 64 (16 * entry), mask := if lanes = 1 then 1#32 else 0xFFFFFFFF#32 }
  let bounds := match segOf bl entry with
    | some (_, sg) => segBounds bd sg
    | none => (0#64, BitVec.ofNat 64 bd.benchBytes)
  let stat : Word64 := if bd.prof = .executive ∨ (bd.prof = .control ∧ bd.ctx = 0) then 0x10#64 else 0#64
  { band := bd.id, num := n, lanes := lanes, stat := stat, slotA := some p, rp := { a := some p, stat := stat, seq := q, segA := (segOf bl entry).map (fun x => x.1) }, benchb := bounds.1, benchl := bounds.2,
    segA := (segOf bl entry).map (fun x => x.1) }

/-- A band's own state at its start. -/
def freshBand (bd : Band) (l : Launch) (core : Nat) : Band :=
  { bd with place := .resident core, bench := [], tiles := [], bars := List.replicate bd.nbars { exp := bd.nstr }, xswap := 16384,
            gbarCnt := l.gbarCnt, gbarArr := [], bdesc := none, shadow := [], recs := [], patches := [], seals := [], recRcp := none,
            replayAt := if l.replay && !bd.plain then some 0 else none, replayFault := false, preempt := false }

/-- The partition of a string (R36); a control core has one. -/
def partOf (p : Profile) (n : Nat) : Nat := match p with
  | .lane | .array => n % 16
  | _ => 0

/-- The strings that are resident on one partition of a core. -/
def partStrs (s : State) (die core part : Nat) : List Str :=
  s.strs.filter (fun (t : Str) => (s.band? t.band).any (fun (b : Band) =>
    b.die == die && b.place == .resident core && partOf b.prof t.num == part))

/-- The strings of a band take the lowest free residency slots of their partitions (R45). -/
def seatStrs (s : State) (die core : Nat) (p : Profile) (b : Nat) : State :=
  (s.strs.filter (fun (t : Str) => t.band == b && !t.ended)).foldl (fun s t =>
    let used := (partStrs s die core (partOf p t.num)).map (fun (u : Str) => u.rslot)
    s.modStr b t.num (fun u => { u with rslot := ((List.range 8).find? (fun i => !used.contains i)).getD 8 })) s

/-- Two frames hold the same segment of the same bale measurement (R62). -/
def Frame.same (f g : Frame) : Bool := f.meas == g.meas && f.seg == g.seg

/-- The frame of the segment that holds a bundle index becomes the one entered last (R37, R63). -/
def entered (bl : Bale) (i : Nat) (fs : List Frame) : List Frame :=
  match segOf bl i with
  | some (k, _) => let f : Frame := { meas := bl.meas, seg := k }; fs.filter (fun x => !f.same x) ++ fs.filter f.same
  | none => fs

/-- A band becomes resident on a core (R37, R54). A replaying band has no strings (R296). -/
def startBand (s : State) (b core : Nat) : State :=
  match s.band? b with
  | none => s
  | some bd =>
    match s.launch? bd.launch, s.bale? bd.bale with
    | some l, some bl =>
      let replay := l.replay && !bd.plain
      let s := { s with strs := s.strs.filter (fun (t : Str) => t.band != b), nextId := s.nextId + 1 }
      let s := s.modBand b (fun x => { freshBand x l core with started := s.nextId })
      let strs := if replay then [] else (List.range bd.nstr).map (fun n => freshStr bd bl l.entry n s.nseq)
      let s := if replay then s else s.modCore bd.die core (fun c => { c with frames := entered bl l.entry c.frames })
      let s := seatStrs { s with strs := s.strs ++ strs } bd.die core bd.prof b
      if replay then s.post [.replayBandRecord] else recordBand s b
    | _, _ => s

/-! ### The dispatcher (R54, R56) -/

/-- A launch still places bands. -/
def Launch.open? (l : Launch) : Bool := !l.stopped && !l.complete

/-- The next band index of a launch on a die that has not been made. -/
def nextIndex (l : Launch) (die : Nat) : Nat → Nat → Option Nat
  | 0, _ => none
  | fuel + 1, i => if bandDie l i = die then some i else nextIndex l die fuel (i + 1)

/-- Bands are made in ascending index, each at its die (R53); `n` of them. -/
def makeBands : Nat → State → Nat → State
  | 0, s, _ => s
  | n + 1, s, li =>
    match s.launch? li with
    | none => s
    | some l =>
      if l.x * l.y * l.z ≤ l.next then s
      else
        let i := l.next
        let d := bandDie l i
        let bd : Band := { id := s.nextId, launch := li, index := i, ctx := l.ctx, die := d, prof := codeProf l.code,
                           bx := i % l.x, byy := i / l.x % l.y, bz := i / (l.x * l.y), nstr := l.nstr, regs := l.regs, nbars := l.nbars,
                           benchBytes := l.bench, ntiles := l.tiles, prio := l.prio, bale := l.bale }
        makeBands n (({ s with nextId := s.nextId + 1, bands := s.bands ++ [bd] }).modLaunch li (fun l => { l with next := l.next + 1 })) li

/-- Make the bands of every open launch up to its next one on a die. -/
def makeFor (s : State) (die : Nat) : State :=
  (s.launches.filter (fun (l : Launch) => l.open? && l.dies.contains die)).foldl (fun s l =>
    if s.bands.any (fun (b : Band) => b.launch == l.id && b.die == die && b.place == .waiting) then s
    else
      match nextIndex l die (l.x * l.y * l.z - l.next) l.next with
      | some i => makeBands (i + 1 - l.next) s l.id
      | none => s) s

/-- Which of two bands the dispatcher takes first: priority, saved bands before bands not yet started, packet order, index. -/
def before (s : State) (a b : Band) : Bool :=
  let key := fun (x : Band) => ((s.launch? x.launch).map (fun (l : Launch) => l.started)).getD 0
  let saved := fun (x : Band) => x.place == .saved true
  if a.prio ≠ b.prio then decide (b.prio < a.prio)
  else if saved a ≠ saved b then saved a
  else if key a ≠ key b then decide (key a < key b)
  else decide (a.index < b.index)

/-- The first of some bands. -/
def firstBand (s : State) : List Band → Option Band
  | [] => none
  | b :: bs =>
    match firstBand s bs with
    | none => some b
    | some c => if before s b c then some b else some c

/-- A band that the dispatcher may take on a die. -/
def wanted (s : State) (die : Nat) (b : Band) : Bool :=
  b.die == die && (b.place == .saved true || (b.place == .waiting && (s.launch? b.launch).any (fun l => l.open?))) &&
    !(s.ctx? b.ctx).any (fun c => c.frozen)

/-- The resident band that a pre-emption request names for a waiting band (R213): lowest priority, latest launch, highest
index. -/
def victim (s : State) (w : Band) : Option Band :=
  let key := fun (x : Band) => ((s.launch? x.launch).map (fun (l : Launch) => l.started)).getD 0
  (s.bands.filter (fun (b : Band) => b.die == w.die && (b.place matches .resident _) && decide (b.prio < w.prio))).foldl (fun r b =>
    match r with
    | none => some b
    | some (c : Band) =>
      if b.prio < c.prio ∨ (b.prio = c.prio ∧ (key c < key b ∨ (key c = key b ∧ c.index < b.index))) then some b else some c) none

/-- A band of the die is being pre-empted, or a request that names one is on its way. -/
def preempting (s : State) (die : Nat) : Bool :=
  s.bands.any (fun (b : Band) => b.die == die && (b.place matches .resident _) && (b.preempt || s.agenda.contains (.preemptionRequest b.id)))

/-- A band waits to become resident on a die, at the dispatcher or in a core's queue: where no core of the die has room for it, the
dispatcher names a band to pre-empt (R213). -/
def askRoom (s : State) (bd : Band) : State :=
  if preempting s bd.die || (nextCores s bd.die).any (fun c => roomOn s bd.die c bd) then s
  else
    match victim s bd with
    | some v => s.post [.preemptionRequest v.id]
    | none => s

/-- A band that finds no room: a core's queue in stealing mode, the dispatcher otherwise. -/
def noRoom (s : State) (bd : Band) : State :=
  let steal := (s.launch? bd.launch).any (fun (l : Launch) => l.steal)
  match if steal && bd.place == .waiting then
      (nextCores s bd.die).find? (fun c => (s.core? bd.die c).any (fun (k : Core) => decide (k.bandQ.length < 4))) else none with
  | some c =>
    ((((s.modCore bd.die c (fun k => { k with bandQ := k.bandQ ++ [bd.id] })).modBand bd.id (fun x => { x with place := .queued c })).modSite
      bd.die (fun st => { st with lastCore := c })).post [.queuedBandResident bd.die c, .bandDispatch bd.die])
  | none => askRoom s bd

/-- BAND_DISPATCH (R53, R54): the next band of an ADMITTED die goes to the first core with room. -/
def execBandDispatch (die : Nat) (s : State) : Host.Outcome State Fault Refusal :=
  .next (
    if !(s.site? die).any (fun st => st.st == .admitted) then s
    else
      let s := makeFor s die
      match firstBand s (s.bands.filter (wanted s die)) with
      | none => s
      | some bd =>
        match (nextCores s die).find? (fun c => roomOn s die c bd) with
        | some c =>
          if bd.place = .waiting then (startBand (s.modSite die (fun st => { st with lastCore := c })) bd.id c).post [.bandDispatch die]
          else s.post [.bandRestore bd.id c true]
        | none => noRoom s bd)

/-- QUEUED_BAND_RESIDENT (R54): in queue order, once the core has room. A band that stands in the queue when its launch is stopped by
a BANDFATAL counts as dispatched and becomes resident (R217, log 78). -/
def execQueuedBandResident (die core : Nat) (s : State) : Host.Outcome State Fault Refusal :=
  .next (
    match s.core? die core with
    | none => s
    | some c =>
      match c.bandQ with
      | [] => s
      | b :: rest =>
        match s.band? b with
        | none => s.modCore die core (fun k => { k with bandQ := rest })
        | some bd =>
          if bd.place ≠ .queued core then s.modCore die core (fun k => { k with bandQ := rest })
          else if roomOn s die core bd && (s.site? die).any (fun st => st.st == .admitted) then
            (startBand (s.modCore die core (fun k => { k with bandQ := rest })) b core).post
              [.bandDispatch die, .queuedBandResident die core]
          else (askRoom s bd).post [.queuedBandResident die core])

/-- One step of the 16-bit Fibonacci LFSR with taps 16, 14, 13 and 11 (R56). -/
def lfsrStep (x : BitVec 16) : BitVec 16 :=
  let b := x.getLsbD 0 ^^ x.getLsbD 2 ^^ x.getLsbD 3 ^^ x.getLsbD 5
  (x >>> 1) ||| (if b then 0x8000#16 else 0#16)

/-- The victim: the register steps until it names another core; `fuel` bounds the steps. -/
def stealVictim (die core n : Nat) : Nat → BitVec 16 → BitVec 16 × Nat
  | 0, x => (x, core)
  | fuel + 1, x =>
    let y := lfsrStep x
    if y.toNat % n = core then stealVictim die core n fuel y else (y, y.toNat % n)

/-- STEAL_REQUEST (R56): an idle core asks another core of its die, which gives up its queue's highest-indexed band. -/
def execStealRequest (die core : Nat) (s : State) : Host.Outcome State Fault Refusal :=
  .next (
    match s.core? die core with
    | none => s
    | some c =>
      let n := (s.cores.filter (fun (k : Core) => k.die == die)).length
      if c.backoff || !c.bandQ.isEmpty || decide (n < 2) || !s.launches.any (fun (l : Launch) => l.steal && !l.complete) then s
      else
        let v := stealVictim die core n 64 c.lfsr
        let s := s.modCore die core (fun k => { k with lfsr := v.1 })
        let qs := ((s.core? die v.2).map (fun (k : Core) => k.bandQ)).getD []
        let best := qs.foldl (fun (r : Option Band) b =>
          match s.band? b, r with
          | some x, some y => if y.index < x.index then some x else some y
          | some x, none => some x
          | none, r => r) none
        match if v.2 = core then none else best with
        | none => (s.modCore die core (fun k => { k with backoff := true })).post [.stealBackoffExpiry die core]
        | some b =>
          let s := s.modCore die v.2 (fun k => { k with bandQ := k.bandQ.filter (fun x => x != b.id) })
          let s := s.modCore die core (fun k => { k with bandQ := k.bandQ ++ [b.id] })
          (s.modBand b.id (fun x => { x with place := .queued core })).post [.queuedBandResident die core, .bandDispatch die])

/-- STEAL_BACKOFF_EXPIRY (R56). -/
def execStealBackoffExpiry (die core : Nat) (s : State) : Host.Outcome State Fault Refusal :=
  .next (s.modCore die core (fun k => { k with backoff := false }))

/-! ### Launch packets -/

/-- Statuses add up to the lowest nonzero code (R35). -/
def worst (a b : Nat) : Nat := if a = 0 then b else if b = 0 then a else min a b

/-- A launch's completion address, context and so on, as its packet gives them. -/
def launchOf (s : State) (q : Queue) (p : Pkt) (bl : Bale) (args : List Word64) (dies : List Nat) : Launch :=
  let bs := p.bytes
  let fl := field bs 3 1
  { id := s.nextId, q := q.q, sq := p.sq, ctx := q.ctx, bale := bl.id, code := field bs 2 1, idem := fl % 2 == 1,
    pinned := fl / 8 % 2 == 1, steal := fl / 16 % 2 == 1 || s.smode != 0, retry := field bs 4 1 / 16, prio := field bs 4 1 % 16,
    nstr := field bs 5 1, regs := 8 * field bs 6 1, nbars := field bs 7 1, entry := field bs 8 4, x := field bs 12 4, y := field bs 16 4,
    z := field bs 20 4, bench := field bs 24 4, tiles := field bs 28 1, dies := dies, args := args, handle := field bs 52 4,
    done := BitVec.ofNat 64 (field bs 40 8), stride := field bs 48 4, placeIdx := field bs 29 1, started := s.nextId }

/-- A waybill of the context that replays may use (R281). -/
def State.waybill? (s : State) (ctx handle : Nat) : Option Waybill :=
  s.waybills.find? (fun (w : Waybill) => w.ctx == ctx && w.handle == handle && w.valid)

/-- A seal's check: whether it holds, or the read is made again (R295). -/
def sealCheck (s : State) (l : Launch) : List Seal → Except State (State × Bool)
  | [] => .ok (s, true)
  | x :: xs =>
    let a := if x.arg = 255 then x.addr else x.addr + l.args.getD x.arg 0#64
    match peekVa s l.ctx a.toNat 8 with
    | .again s => .error s
    | .fail s => .ok (s, false)
    | .bytes s bs => if BitVec.ofNat 64 (leNat bs) &&& x.mask = x.exp then sealCheck s l xs else .ok (s, false)

/-- WAYBILL_REPLAY_CHECK (R295). -/
def replayCheck (s : State) (l : Launch) (bl : Bale) : Except State (State × Bool) :=
  match s.waybill? l.ctx l.handle, s.ctx? l.ctx with
  | some w, some c =>
    if w.code = l.code ∧ w.x = l.x ∧ w.y = l.y ∧ w.z = l.z ∧ w.bench = l.bench ∧ w.tiles = l.tiles ∧ w.strings = l.nstr ∧
        w.meas = bl.meas.extractLsb' 0 128 ∧ w.keygen = c.keygen ∧ w.spangen = c.spangen then sealCheck s l w.seals
    else .ok (s, false)
  | _, _ => .ok (s, false)

/-- A waybill that is to be replayed is copied back into its die's store, once others have made room there; where none can be made,
or its die is not ADMITTED, it stays in the pool (R281, R335). -/
def copyBack (s : State) (w : Waybill) : State :=
  if !w.spilled || !(s.site? w.die).any (fun (x : Site) => x.st == .admitted) then s
  else
    let s0 := dropWaybill s w
    match storeRoom s0.waybills.length s0 w.die (waybillSize w) with
    | some s1 => { s1 with waybills := s1.waybills ++ [{ w with spilled := false }] }
    | none => s

/-- A launch starts (R292, R295): it replays, records, or runs plainly. -/
def startLaunch (s : State) (l : Launch) (replay : Bool) (fl : Nat) : State :=
  let wantRec := fl / 2 % 2 == 1
  let busy := wantRec && !replay && s.launches.any (fun (x : Launch) => x.ctx == l.ctx && x.handle == l.handle && x.recording && !x.complete)
  let l := { l with replay := replay, wb := if replay then s.waybill? l.ctx l.handle else none, fallback := fl / 4 % 2 == 1 && !replay, recording := wantRec && !replay && !busy, busy := busy }
  let s := match l.wb with
    | some w => copyBack s w
    | none => s
  let s := { s with nextId := s.nextId + 1, launches := s.launches ++ [l], waybills := s.waybills.map (fun (w : Waybill) =>
    if replay && w.ctx == l.ctx && w.handle == l.handle then { w with used := s.nextId } else w) }
  s.post (l.dies.map (fun d => Instr.bandDispatch d))

/-- An earlier launch packet of the queue, of the same priority, has not been served: launches are served in packet order (R54). -/
def behindLaunch (s : State) (x : Queue) (p : Pkt) : Bool :=
  x.pkts.any (fun (y : Pkt) => decide (y.sq < p.sq) && field y.bytes 0 2 == 1 && field y.bytes 4 1 % 16 == field p.bytes 4 1 % 16 && !pktDone s x.q y &&
    !s.launches.any (fun (l : Launch) => l.q == x.q && l.sq == y.sq))

/-- A band of a context that a fatal error or a quarantine killed has not ended yet: the context runs again once it has (R316). -/
def ctxEnding (s : State) (c : Nat) : Bool :=
  s.bands.any (fun (b : Band) => b.ctx == c && (b.place matches .killed _) && (s.launch? b.launch).any (fun (l : Launch) => l.atOnce))

/-- LAUNCH_PACKET (R33, R53, R54, R285, R295): refused, completed at once with a status, or started. -/
def execLaunchPacket (q sq : Nat) (s : State) : Host.Outcome State Fault Refusal :=
  .next (
    match s.pkt? q sq with
    | none => s
    | some (x, p) =>
      let again := Instr.launchPacket q sq
      let stop := fun (s : State) st => endPacket s q sq x.ctx (field p.bytes 40 8) st 0 0
      if p.done then s
      else if (s.ctx? x.ctx).any (fun c => c.frozen) || ctxEnding s x.ctx || behindSignal s x sq || behindLaunch s x p then s.post [again]
      else if !signalOk p.bytes then dropPacket s q sq
      else if badLaunch s x p.bytes then stop s 1
      else
        match s.baleFor x.ctx (field p.bytes 2 1) with
        | none => stop s 1
        | some bl =>
          let dies := (maskDies x p.bytes).filter (fun d => (s.site? d).any (fun st => st.st == .admitted))
          let probe : Band := { id := 0, launch := 0, index := 0, ctx := 0, die := 0, prof := codeProf (field p.bytes 2 1), nstr := field p.bytes 5 1,
                                regs := 8 * field p.bytes 6 1, nbars := field p.bytes 7 1, benchBytes := field p.bytes 24 4, ntiles := field p.bytes 28 1 }
          if dies.isEmpty then stop s 2
          else if !fits [] probe then stop s 3
          else
            match peekVa s x.ctx (field p.bytes 32 8) (8 * bl.nargs) with
            | .again s => s.post [again]
            | .fail s => stop s 4
            | .bytes s bs =>
              let args := (List.range bl.nargs).map (fun i => BitVec.ofNat 64 (field bs (8 * i) 8))
              let l := launchOf s x p bl args dies
              let fl := field p.bytes 3 1
              if fl / 4 % 2 = 1 then
                match replayCheck s l bl with
                | .error s => s.post [again]
                | .ok x => startLaunch x.1 l x.2 fl
              else startLaunch s l false fl)

/-- SIGNAL_PACKET (R34): refused, or left to complete in its turn. -/
def execSignalPacket (q sq : Nat) (s : State) : Host.Outcome State Fault Refusal :=
  .next (
    match s.pkt? q sq with
    | none => s
    | some (x, p) =>
      if p.done then s
      else if (s.ctx? x.ctx).any (fun c => c.frozen) then s.post [.signalPacket q sq]
      else if !signalOk p.bytes then dropPacket s q sq
      else if badSignal x p.bytes false then endPacket s q sq x.ctx (field p.bytes 40 8) 1 0 0
      else s.post [.signalPacketComplete q sq])

/-- SIGNAL_PACKET_COMPLETE (R34): once every earlier packet of the queue has completed. -/
def execSignalPacketComplete (q sq : Nat) (s : State) : Host.Outcome State Fault Refusal :=
  .next (
    match s.pkt? q sq with
    | none => s
    | some (x, p) =>
      if p.done then s
      else if x.pkts.any (fun (y : Pkt) => decide (y.sq < sq) && !pktDone s q y) then s.post [.signalPacketComplete q sq]
      else endPacket s q sq x.ctx (field p.bytes 40 8) 0 0 0)

/-- WAYBILL_DROP_PACKET (R288). -/
def execWaybillDropPacket (q sq : Nat) (s : State) : Host.Outcome State Fault Refusal :=
  .next (
    match s.pkt? q sq with
    | none => s
    | some (x, p) =>
      if p.done then s
      else if (s.ctx? x.ctx).any (fun c => c.frozen) || behindSignal s x sq then s.post [.waybillDropPacket q sq]
      else if !signalOk p.bytes then dropPacket s q sq
      else if badSignal x p.bytes true then endPacket s q sq x.ctx (field p.bytes 40 8) 1 0 0
      else
        let h := field p.bytes 52 4
        endPacket { s with waybills := s.waybills.filter (fun (w : Waybill) => !(w.ctx == x.ctx && w.handle == h)) } q sq x.ctx
          (field p.bytes 40 8) 0 0 0)

/-! ### A band ends (R43, R217) -/

/-- Something of a band is still in flight beside jobs that `skip` names: a released entry, an operation, a matrix operation, a job, the read
of a seal that its recording takes (R292). -/
def bandBusyBut (skip : Job → Bool) (s : State) (b : Nat) : Bool :=
  s.rels.any (fun x => x.1 == b) || s.mops.any (fun (m : MOp) => m.b == b) || s.jobs.any (fun (j : Job) => j.b == b && !skip j) ||
    s.ops.any (fun (o : Op) => o.b == b && !o.undone && (match o.kind with
      | .calc _ | .ack | .load .. | .jtab .. => false
      | .seal .. => s.records o.b && !o.done
      | .job i => !(s.job? i).any skip
      | _ => true))
/-- Something of a band is still in flight. -/
def bandBusy (s : State) (b : Nat) : Bool := bandBusyBut (fun _ => false) s b
/-- A job without a write footprint (R175). -/
def Job.reads (j : Job) : Bool := j.wr.isEmpty

/-- A core without band `b`: its tickets, its place in the queue, its weight banks. -/
def dropBand (b : Nat) (c : Core) : Core :=
  { dropBandTickets b c with wbank := if c.wbank == some b then none else c.wbank, bandQ := c.bandQ.filter (fun x => x != b) }

/-- An operation of a band that is gone: it stays until the requests that it has sent are answered, and its result is discarded. -/
def orphanOps (s : State) (b : Nat) : List Op :=
  s.ops.filterMap (fun (o : Op) =>
    if o.b ≠ b then some o
    else if s.reqs.any (fun (r : Req) => r.op == some o.id) then some { o with undone := true, todo := [] }
    else none)

/-- What ends with a run of a band: its strings, its bench and tiles, its place. -/
def clearBand (s : State) (b : Nat) (f : Band → Band) : State :=
  match s.band? b with
  | none => s
  | some bd =>
    let s := { s with strs := s.strs.filter (fun (t : Str) => t.band != b), cores := s.cores.map (dropBand b),
                      ops := orphanOps s b }
    let s := s.modBand b (fun x => f { x with bench := [], tiles := [], bars := [], preempt := false, area := none })
    (gbarCheck s bd.launch).post [.bandDispatch bd.die, .launchComplete bd.launch]

/-- A band ends. -/
def closeBand (s : State) (b : Nat) : State := clearBand s b (fun x => { x with place := .ended })

/-- A band waits to be placed again (R217, R297); it keeps nothing of the run that was killed, and has not arrived at the launch
barrier in progress. -/
def relaunchBand (s : State) (b : Nat) (l : Launch) (f : Band → Band) : State :=
  clearBand (s.modLaunch l.id (fun l => { l with relaunched := l.relaunched + 1 })) b (fun x =>
    f { x with place := .waiting, gbarCnt := l.gbarCnt, gbarArr := [] })

/-- Every string of a resident band has ended and nothing of it is in flight. -/
def bandOver (s : State) (b : Band) : Bool :=
  (b.place matches .resident _) && b.replayAt.isNone && !(b.prof == .executive) && s.strs.any (fun (t : Str) => t.band == b.id) &&
    (s.strs.filter (fun (t : Str) => t.band == b.id)).all (fun (t : Str) => t.ended) && !bandBusy s b.id

/-- A launch's status takes one more code (R35), and the launch places no further band; one that completes at once keeps the status
that it was given (R222, R316, R366). -/
def failLaunch (s : State) (l : Launch) (code : Nat) : State :=
  s.modLaunch l.id (fun l => { l with stopped := true, status := if l.atOnce then l.status else worst l.status code })

/-- A faulted or killed replay band is settled (R297): it runs once more without replaying or recording, or the launch places no
further band and carries WBFAULT. -/
def settleReplay (s : State) (bd : Band) (l : Launch) : State :=
  if l.idem && !l.stopped && !l.atOnce && !(s.ctx? bd.ctx).any (fun c => c.frozen) then
    relaunchBand s bd.id l (fun x => { x with plain := true, replayAt := none, replayFault := false })
  else closeBand (failLaunch s l 6) bd.id

/-- BAND_SETTLE (R217): relaunched under the retry limit, or the launch places no further band and carries BANDFATAL. -/
def execBandSettle (b : Nat) (s : State) : Host.Outcome State Fault Refusal :=
  .next (
    match s.band? b with
    | none => s
    | some bd =>
      match bd.place with
      | .killed _ =>
        if bandBusy s b then s.post [.bandSettle b]
        else
          match s.launch? bd.launch with
          | none => closeBand s b
          | some l =>
            if bd.replayAt.isSome then settleReplay s bd l
            else if l.idem && decide (bd.relaunches < l.retry) && !l.stopped && !l.atOnce && !(s.ctx? bd.ctx).any (fun c => c.frozen) then
              relaunchBand s b l (fun x => { x with relaunches := x.relaunches + 1 })
            else closeBand (failLaunch s l 5) b
      | _ => s)

/-! ### Completion of a launch (R35, R175, R292) -/

/-- A band's BAND record and its records, in ascending band index (R283). -/
def waybillRecs (bs : List Band) : List (List Byte) × List Patch :=
  bs.foldl (fun (r : List (List Byte) × List Patch) b =>
    let base := r.1.length + 1
    let hd := [0#8, 0#8, 0#8, 0#8] ++ leBytes 4 b.index ++ leBytes 4 b.recs.length ++ List.replicate 52 0#8
    (r.1 ++ [hd] ++ b.recs, r.2 ++ b.patches.map (fun (p : Patch) => { p with recno := p.recno + base }))) ([], [])

/-- Insert a band by index. -/
def insertBand (b : Band) : List Band → List Band
  | [] => [b]
  | x :: xs => if b.index < x.index then b :: x :: xs else x :: insertBand b xs

/-- The waybill that a recording launch commits (R282). Its commit stands for its last replay until it has one (R281, log 100); the context's
generations are those of the commit (log 110); in the store of a die that is not ADMITTED it is invalid (R335). -/
def waybillOf (s : State) (l : Launch) : Waybill :=
  let bs := (s.bands.filter (fun (b : Band) => b.launch == l.id)).foldl (fun r b => insertBand b r) []
  let rs := waybillRecs bs
  let c := s.ctx? l.ctx
  let die := l.dies.headD 0
  { ctx := l.ctx, handle := l.handle, die := die, code := l.code, valid := (s.site? die).any (fun (x : Site) => x.st == .admitted),
    meas := ((s.bale? l.bale).map (fun (b : Bale) => b.meas.extractLsb' 0 128)).getD 0#128, x := l.x, y := l.y, z := l.z, bench := l.bench,
    tiles := l.tiles, strings := l.nstr, rcp := (bs.findSome? (fun (b : Band) => b.recRcp)).getD 0#10,
    spangen := (c.map (fun x => x.spangen)).getD 0, keygen := (c.map (fun x => x.keygen)).getD 0, recs := rs.1, patches := rs.2,
    seals := bs.flatMap (fun (b : Band) => b.seals), used := s.nextId }

/-- WAYBILL_COMMIT (R292): an untorn recording of a launch that completes OK; no room in the store tears it (cause 8). -/
def commitWaybill (s : State) (l : Launch) : State :=
  let w := waybillOf s l
  if !l.recording || l.torn || l.status != 0 || decide (65536 < w.recs.length) then s
  else
    let old := s.waybills.find? (fun (v : Waybill) => v.ctx == w.ctx && v.handle == w.handle)
    let s0 := { s with waybills := s.waybills.filter (fun (v : Waybill) => !(v.ctx == w.ctx && v.handle == w.handle)) }
    match storeRoom s0.waybills.length s0 w.die (waybillSize w) with
    | some s1 => { s1 with waybills := s1.waybills ++ [w] }
    | none => match old with
      | some _ => s
      | none => s0

/-- Every band of a launch has ended, and none will be made. -/
def launchOver (s : State) (l : Launch) : Bool :=
  (l.stopped || decide (l.x * l.y * l.z ≤ l.next)) &&
    (s.bands.filter (fun (b : Band) => b.launch == l.id)).all (fun (b : Band) => b.over || (l.stopped && (b.place == .waiting)))

/-- The strings of a band have ended, and it waits for nothing but jobs without a write footprint. -/
def onlyReads (s : State) (b : Band) : Bool :=
  (b.place matches .resident _) && b.replayAt.isNone && s.strs.any (fun (t : Str) => t.band == b.id) &&
    (s.strs.filter (fun (t : Str) => t.band == b.id)).all (fun (t : Str) => t.ended && t.late.isEmpty) && !bandBusyBut Job.reads s b.id

/-- Nothing of a launch is left but such jobs: its record may be written while they still read (R175). -/
def launchReads (s : State) (l : Launch) : Bool :=
  !l.stopped && decide (l.x * l.y * l.z ≤ l.next) &&
    (s.bands.filter (fun (b : Band) => b.launch == l.id)).all (fun (b : Band) => b.over || onlyReads s b)

/-- Every access of every band of a launch is performed, and every job with a write footprint has returned (R175). -/
def launchQuiet (s : State) (l : Launch) : Bool :=
  (s.bands.filter (fun (b : Band) => b.launch == l.id)).all (fun (b : Band) =>
    !s.rels.any (fun x => x.1 == b.id) && !s.mops.any (fun (m : MOp) => m.b == b.id) && !s.jobs.any (fun (j : Job) => j.b == b.id && !j.reads) &&
      !s.ops.any (fun (o : Op) => o.b == b.id && o.sent && !o.fin))

/-- LAUNCH_COMPLETE (R35, R175): the waybill is committed, then the record is written. -/
def execLaunchComplete (i : Nat) (s : State) : Host.Outcome State Fault Refusal :=
  .next (
    match s.launch? i with
    | none => s
    | some l =>
      if l.complete then
        if launchOver s l then
          { s with bands := s.bands.filter (fun (b : Band) => b.launch != i), launches := s.launches.filter (fun (x : Launch) => x.id != i) }
        else s
      else if !(l.atOnce || launchOver s l || launchReads s l) then s
      else if !launchQuiet s l then s.post [.launchComplete i]
      else
        let s := commitWaybill s l
        let s := endPacket s l.q l.sq l.ctx l.done.toNat l.status l.relaunched l.msat.toNat
        let s := s.modLaunch i (fun x => { x with complete := true, stopped := true })
        s.post [.launchComplete i])

end Sys2Proof.Machine
end

