-- ==== Sys2Proof/Machine/Preempt.lean ====
section
/-! DEFINITION. What time and the dispatcher do to strings and bands: pre-emption (R213 to R215, R364), saving and restoring
a band (R218 to R220), swap-out (R51), the ends of `yield` and `idle` (R232), and segment copies (R62, R63). -/

namespace Sys2Proof.Machine
open Sys2Proof

/-! ### Stopping strings (R213, R214) -/

/-- The string waits in `idle` (R232). -/
def Str.idles (t : Str) : Bool := t.idleA || t.idleB

/-- A waiting string that holds withheld entries is rolled back to its last proof point, since no save holds such an entry (R213,
R219); its wait stands until it is met. -/
def backToProof (s : State) (t : Str) : State :=
  if t.buf.isEmpty then s
  else (rollback s t.band t.num).modStr t.band t.num (fun u =>
    { u with idleA := t.idles && u.slotA.isSome, idleB := t.idles && u.slotB.isSome,
             holdA := if t.holdA.isFull && u.slotA.isSome then fullOver u t.holdA else .none,
             holdB := if t.holdB.isFull && u.slotB.isSome then fullOver u t.holdB else .none,
             wait := match t.wait with | .path p thr => if thr < pathCount u p then .path p thr else .none | _ => .none })

/-- A waiting string stops at once; one that holds withheld entries is rolled back first (R213). -/
def stopWaiting (s : State) (t : Str) : State :=
  (backToProof s t).modStr t.band t.num (fun u => { u with stop := .stopped, idleA := false, idleB := false })

/-- A pre-emption request reaches one live string. -/
def askStop (s : State) (t : Str) : State :=
  if t.ended || t.stop != .none then s
  else if longWait s t then stopWaiting s t
  else
    let mode := if tm0 t then Stop.deferred else .asked
    (s.modStr t.band t.num (fun u => { u with stop := mode, idleA := false, idleB := false })).post
      [if tm0 t then .preemptDeferralExpiry t.band t.num else .preemptStopTimeout t.band t.num]

/-- The live strings of a band. -/
def liveStrs (s : State) (b : Nat) : List Str := s.strs.filter (fun (t : Str) => t.band == b && !t.ended)

/-- PREEMPTION_REQUEST (R213, R214, R364): every live string stops at its first stopping point, and the band is then saved. -/
def execPreemptionRequest (b : Nat) (s : State) : Host.Outcome State Fault Refusal :=
  .next (
    match s.band? b with
    | none => s
    | some bd =>
      match bd.place with
      | .resident _ =>
        if bd.preempt || bd.prof == .executive then s
        else
          let s := s.modBand b (fun x => { x with preempt := true })
          ((liveStrs s b).foldl askStop s).post [.bandSave b]
      | _ => s)

/-- A string rolled back to its proof point counts as stopped (R213, R214). -/
def forceStop (s : State) (b n : Nat) : State := (rollback s b n).modStr b n (fun t => { t with stop := .stopped })

/-- PREEMPT_STOP_TIMEOUT (R213): 2^20 clocks after the request. -/
def execPreemptStopTimeout (b n : Nat) (s : State) : Host.Outcome State Fault Refusal :=
  .next (
    match s.str? b n with
    | none => s
    | some t => if t.stop = .asked ∧ t.ended = false then forceStop s b n else s)

/-- PREEMPT_DEFERRAL_EXPIRY (R214): the deferral ends, and 2^20 clocks later the string is rolled back. -/
def execPreemptDeferralExpiry (b n : Nat) (s : State) : Host.Outcome State Fault Refusal :=
  .next (
    match s.str? b n with
    | none => s
    | some t =>
      if t.ended then s
      else if t.stop = .deferred then (s.modStr b n (fun t => { t with stop := .late })).post [.preemptDeferralExpiry b n]
      else if t.stop = .late then forceStop s b n
      else s)

/-! ### Saving (R218, R219) -/

/-- Nothing that a save waits for is outstanding: results owed, and matrix operations, which use the band's tiles and bench. A
replaying band waits for all that it has submitted (R364). -/
def saveQuiet (s : State) (bd : Band) : Bool :=
  (liveStrs s bd.id).all (fun (t : Str) => t.owed.all (fun (w : Owed) => w.val.isSome)) &&
    !s.mops.any (fun (m : MOp) => m.b == bd.id) && !(bd.replayAt.isSome && bandBusy s bd.id)

/-- A band may be saved for a request. A faulted replay band is settled first (R297). -/
def saveReady (s : State) (b : Nat) : Bool :=
  match s.band? b with
  | none => false
  | some bd => bd.preempt && (bd.place matches .resident _) && (liveStrs s b).all (fun (t : Str) => t.stop == .stopped) && saveQuiet s bd &&
      !bd.replayFault

/-- An area is needed for a band: spilled waybills yield, and with room the band is saved, so that the dispatcher may take it again
at once or not; where none is left to yield, a band of a quarantined context is parked in place, and any other goes on waiting
(R219, R222, R364). -/
def saveAs (s : State) (bd : Band) (ready : Bool) (wait : List Instr) : State :=
  let s := makeRoom s bd.ctx (saveSize bd)
  if roomFor s bd.ctx (saveSize bd) then (saveBand s bd.id).modBand bd.id (fun x => { x with place := .saved ready })
  else if (s.ctx? bd.ctx).any (fun (c : Ctx) => c.quarantined) then s.modBand bd.id (fun x => { x with place := .parked (x.place.core?.getD 0) })
  else s.post wait

/-- BAND_SAVE (R213, R218): once every live string has stopped and every result owed has arrived. A pre-emption waits for an
area (R219). -/
def execBandSave (b : Nat) (s : State) : Host.Outcome State Fault Refusal :=
  .next (
    match s.band? b with
    | none => s
    | some bd =>
      if !(bd.preempt && (bd.place matches .resident _)) then s
      else if saveReady s b then saveAs s bd (bd.replayAt.isSome || (liveStrs s b).any (fun (t : Str) => !longWait s t)) [.bandSave b]
      else s.post [.bandSave b])

/-- A band is queued for a core (R51). -/
def queuedFor (s : State) (die core : Nat) : Bool :=
  s.bands.any (wanted s die) || (s.core? die core).any (fun (c : Core) => !c.bandQ.isEmpty)

/-- A band may be swapped out, were its clocks of waiting over (R51). -/
def swapReady (s : State) (b : Nat) : Bool :=
  match s.band? b with
  | none => false
  | some bd =>
    match bd.place with
    | .resident c =>
      !bd.preempt && bd.replayAt.isNone && bd.prof != .executive && !(liveStrs s b).isEmpty && (liveStrs s b).all (longWait s) &&
        queuedFor s bd.die c && saveQuiet s bd &&
        (roomFor (makeRoom s bd.ctx (saveSize bd)) bd.ctx (saveSize bd) || s.waybills.any (fun (w : Waybill) => w.ctx == bd.ctx && w.spilled))
    | _ => false

/-- XSWAP_EXPIRY (R51): the waiting band is saved and its core goes to queued work. -/
def execXswapExpiry (b : Nat) (s : State) : Host.Outcome State Fault Refusal :=
  .next (
    match s.band? b with
    | none => s
    | some bd =>
      if swapReady s b then
        let s := (liveStrs s b).foldl backToProof s
        saveAs s bd ((liveStrs s b).any (fun (t : Str) => !longWait s t)) []
      else s)

/-! ### Restoring (R220) -/

/-- A restored string: a drained loop refills (R215), and one that was rolled back in `idle` performs its span again. -/
def restoreStr (rec : Bool) (t : Str) : Str :=
  let again := t.slotA == t.rp.a && t.slotB == t.rp.b
  let t := if again then { t with idleA := false, idleB := false } else t
  let t := { t with wait := match t.wait with | .retry | .tile | .drain .. => .none | w => w, holdA := .none, holdB := .none }
  refillLoop rec t

/-- A string that is still parked stands in its new core's ticket table (R310). -/
def repark (core : Nat) (s : State) (t : Str) : State :=
  match t.wait, s.band? t.band with
  | .ticket k, some bd =>
    match (s.core? bd.die core).bind (parkOn k (t.band, t.num)) with
    | some c => s.modCore bd.die core (fun _ => c)
    | none => (s.modStr t.band t.num (fun u => { u with wait := .retry })).post [.ticketRetryExpiry t.band t.num]
  | _, _ => s

/-- REMOTE_NEG that came while the band was saved is delivered (R212, R223). -/
def deliverLate (s : State) (t : Str) : State :=
  let mine := t.late.filter (fun (l : Late) => !l.engine && !l.after)
  let s := s.modStr t.band t.num (fun u => { u with late := u.late.filter (fun (l : Late) => l.engine || l.after) })
  mine.foldl (fun s (l : Late) => takeTrap s t.band t.num { cause := .remoteNeg, detail := l.detail.toNat, bad := l.pc, late := true }) s

/-- The events of a replaying band, of which the one for its next record acts (R296). -/
def replayEvents : List Instr :=
  [.replayBandRecord, .replayFillRecord, .replayJobRecord, .replayMatrixRecord, .replayWaitRecord, .replayGbarRecord]

/-- BAND_RESTORE (R215, R220, R364): on a core of the band's die with room; a line of the save area that fails its MAC check kills the band and
quarantines the context. A line whose ECC is uncorrectable has no MAC check (R357); the band cannot be restored from it and is
killed (log 81). -/
def execBandRestore (b core : Nat) (macOk : Bool) (s : State) : Host.Outcome State Fault Refusal :=
  .next (
    match s.band? b with
    | none => s
    | some bd =>
      if bd.place ≠ .saved true then s
      else if !(s.site? bd.die).any (fun (st : Site) => st.st == .admitted) || (s.core? bd.die core).isNone || !roomOn s bd.die core bd ||
          (s.ctx? bd.ctx).any (fun (c : Ctx) => c.frozen) then s.post [.bandDispatch bd.die]
      else
        let s := (s.modBand b (fun x => { x with place := .resident core, area := none })).modSite bd.die (fun st => { st with lastCore := core })
        let bad := areaFaults s bd
        if !macOk || bad.any (fun x => x.1 != 0 && !x.2) then quarantine (killBand s b) bd.ctx
        else if bad.any (fun x => x.1 == 0) then killBand s b
        else
          let rec' := s.records b
          let s := { s with strs := s.strs.map (fun (t : Str) => if t.band == b && !t.ended then restoreStr rec' t else t) }
          let s := seatStrs s bd.die core bd.prof b
          let s := (liveStrs s b).foldl (repark core) s
          let s := (liveStrs s b).foldl deliverLate s
          s.post (Instr.bandDispatch bd.die :: (if bd.replayAt.isSome then replayEvents else [])))

/-! ### Yield and idle (R232) -/

/-- YIELD_EXPIRY (R232). -/
def execYieldExpiry (b n : Nat) (s : State) : Host.Outcome State Fault Refusal :=
  .next (s.modStr b n (fun t => { t with yielding := false }))

/-- IDLE_TIMEOUT (R232); a saved band that waited in `idle` is queued again (R51). -/
def execIdleTimeout (b n : Nat) (s : State) : Host.Outcome State Fault Refusal :=
  .next (wakeSaved (s.modStr b n (fun t => { t with idleA := false, idleB := false })))

/-! ### Segments (R62, R63) -/

/-- The segment that holds a bundle address of a bale. -/
def segAt (bl : Bale) (pc : Word64) : Option (Nat × Segment) := segOf bl ((pc - bl.base) >>> 4).toNat

/-- The frames that hold a slot's current bundle on a core. -/
def heldFrames (s : State) (die core : Nat) : List Frame :=
  s.strs.flatMap (fun (t : Str) =>
    match s.band? t.band with
    | some bd =>
      if bd.die == die && bd.place == .resident core && !t.ended then
        match s.bale? bd.bale with
        | some bl => ([t.slotA, t.slotB].filterMap id).filterMap (fun (p : Path) =>
            (segAt bl p.pc).map (fun x => ({ meas := bl.meas, seg := x.1 } : Frame)))
        | none => []
      else []
    | none => [])

/-- Put a segment into one of four frames: the least recently entered one that holds no current bundle, or, where each holds
one, the least recently entered (R63). -/
def fillFrame (held : List Frame) (f : Frame) (fs : List Frame) : List Frame :=
  if fs.any f.same then fs
  else if fs.length < 4 then fs ++ [f]
  else
    match fs.find? (fun x => !held.any x.same) with
    | some v => fs.filter (fun x => x != v) ++ [f]
    | none => fs.drop 1 ++ [f]

/-- SEGMENT_COPY_DONE (R63, R355): the segment is resident, as ciphertext; a block whose tag does not match stays shut. -/
def execSegmentCopyDone (die core : Nat) (bale seg : Nat) (s : State) : Host.Outcome State Fault Refusal :=
  .next (
    match s.bale? bale with
    | none => s
    | some bl =>
      let f : Frame := { meas := bl.meas, seg := seg, bad := badBlocks s bl seg }
      let held := heldFrames s die core
      s.modCore die core (fun (c : Core) =>
        if c.copies.any f.same then { c with copies := c.copies.filter (fun x => !f.same x), frames := fillFrame held f c.frames } else c))

end Sys2Proof.Machine
end

