-- ==== Sys2Proof/Machine/Replay.lean ====
section
/-! DEFINITION. Waybill replay (R296, R297): a band without strings submits its patched records in order. -/

namespace Sys2Proof.Machine
open Sys2Proof

/-! ### A band's records -/

/-- The records of band index `i` in a waybill, with the waybill index of its BAND record (R283). -/
def bandRecs (i : Nat) : Nat → Nat → List (List Byte) → Option (Nat × List (List Byte))
  | 0, _, _ => none
  | _, _, [] => none
  | fuel + 1, at_, hd :: rest =>
    let n := field hd 8 4
    if field hd 4 4 = i then some (at_, rest.take n) else bandRecs i fuel (at_ + 1 + n) (rest.drop n)

/-- A patch slot's field (R284). -/
def patchBytes (w : Word64) (p : Patch) : List Byte :=
  match p.part with
  | 0 => leBytes 8 (w + p.add).toNat
  | 1 => leBytes 4 ((w.toNat % 2 ^ 32 + p.add.toNat) % 2 ^ 32)
  | 2 => leBytes 4 ((w.toNat / 2 ^ 32 + p.add.toNat) % 2 ^ 32)
  | _ => leBytes 4 (min (w + p.add).toNat 255)

/-- A record with every patch slot that names it applied (R284, R296). -/
def patchRec (args : List Word64) (ps : List Patch) (i : Nat) (img : List Byte) : List Byte :=
  (ps.filter (fun (p : Patch) => p.recno == i)).foldl (fun r p => setBytes r p.off (patchBytes (args.getD p.arg 0#64) p)) img

/-- What a replaying band does next. -/
inductive NextRec where
  /-- its BAND record -/
  | band
  /-- a record, patched, with the kind that it was recorded with -/
  | record (kind : Nat) (img : List Byte)
  /-- nothing is left -/
  | over
  deriving DecidableEq, Repr

/-- The next record of a replaying band. -/
def nextRec (s : State) (bd : Band) : Option NextRec :=
  match bd.replayAt, (s.launch? bd.launch).bind (fun (l : Launch) => l.wb.map (fun w => (l, w))) with
  | some 0, some _ => some .band
  | some (k + 1), some (l, w) =>
    match bandRecs bd.index (w.recs.length + 1) 0 w.recs with
    | none => some .over
    | some (at_, rs) =>
      match rs[k]? with
      | some img => some (.record (field img 0 1) (patchRec l.args w.patches (at_ + 1 + k) img))
      | none => some .over
  | _, _ => none

/-- The event that a record awaits (R283). -/
def NextRec.event : NextRec → List Instr
  | .band => [.replayBandRecord]
  | .record k _ =>
    if 1 ≤ k ∧ k ≤ 5 then [.replayJobRecord]
    else if 0x10 ≤ k ∧ k ≤ 0x15 then [.replayMatrixRecord]
    else if k = 0x20 then [.replayWaitRecord]
    else if k = 0x21 then [.replayFillRecord]
    else [.replayGbarRecord]
  | .over => []

/-- A band submits records: resident, not being pre-empted, not faulted (R297, R364). -/
def submits (bd : Band) : Bool := (bd.place matches .resident _) && !bd.preempt && !bd.replayFault && bd.replayAt.isSome

/-- Records of a path that have been submitted and not returned (R296): jobs on 4, batches on 5. -/
def replayLeft (s : State) (b path : Nat) : Nat :=
  if path = 4 then (s.jobs.filter (fun (j : Job) => j.b == b && j.n.isNone)).length
  else if path = 5 then (s.ops.filter (fun (o : Op) => o.b == b && o.n == 32 && o.path == some 5 && !o.done)).length
  else 0

/-- The launch barriers among a band's records before its next one. -/
def gbarsBefore (s : State) (bd : Band) : Nat :=
  match bd.replayAt, (s.launch? bd.launch).bind (fun (l : Launch) => l.wb) with
  | some (k + 1), some w =>
    match bandRecs bd.index (w.recs.length + 1) 0 w.recs with
    | some (_, rs) => ((rs.take k).filter (fun r => field r 0 1 == 0x22)).length
    | none => 0
  | _, _ => 0

/-- The band's next record may be submitted now: a WAIT is satisfied, a GBAR is not yet reached or complete, a queue has room, a
tile is free (R264, R266, R269, R296). -/
def recReady (s : State) (bd : Band) (k : Nat) (img : List Byte) : Bool :=
  if 1 ≤ k ∧ k ≤ 5 then decide ((coreJobs s bd.die (bd.place.core?.getD 0)).length < 64)
  else if 0x10 ≤ k ∧ k ≤ 0x14 then
    decide ((bandMops s bd.id).length < 64) && !((k == 0x13 || k == 0x14) && tileBusy s bd.id bd.prof (field img 1 1))
  else if k = 0x20 then decide (replayLeft s bd.id (field img 1 1) ≤ field img 4 4)
  else if k = 0x22 then
    bd.gbarCnt == gbarsBefore s bd || (s.launch? bd.launch).any (fun (l : Launch) => decide (bd.gbarCnt ≤ l.gbarCnt))
  else true

/-- The bands whose next record awaits the event `ev`, with that record. -/
def replayers (s : State) (ev : Instr) : List (Band × NextRec) :=
  (s.bands.filter submits).filterMap (fun bd =>
    match nextRec s bd with
    | some r => if r.event == [ev] then some (bd, r) else none
    | none => none)

/-- Those of them that can go on. -/
def readyReplayers (s : State) (ev : Instr) : List (Band × NextRec) :=
  (replayers s ev).filter (fun x => match x.2 with | .record k img => recReady s x.1 k img | _ => true)

/-- Post the event of a band's next record. -/
def postNext (s : State) (b : Nat) : State :=
  match s.band? b with
  | none => s
  | some bd =>
    match nextRec s bd with
    | some r => s.post r.event
    | none => s

/-- The band goes on to its next record. -/
def recDone (s : State) (b : Nat) : State :=
  postNext (s.modBand b (fun x => { x with replayAt := x.replayAt.map (· + 1) })) b

/-- A check fails (R296, R297). -/
def replayFails (s : State) (b : Nat) : State := (s.modBand b (fun x => { x with replayFault := true })).post [.replayFaultSettle b]

/-- Run a record event: some band whose next record awaits it and can go on, chosen freely. -/
def replayOne (s : State) (ev : Instr) (go : State → Band → Nat → List Byte → State) : State :=
  match readyReplayers s ev with
  | [] => if (replayers s ev).isEmpty then s else s.post [ev]
  | x :: xs =>
    let k := Config.pick s.nchoice (xs.length + 1) % (xs.length + 1)
    let y := (x :: xs).getD k x
    let s := { s with nchoice := s.nchoice + 1 }
    match y.2 with
    | .record k img => go s y.1 k img
    | _ => go s y.1 0 []

/-! ### The events -/

/-- REPLAY_BAND_RECORD (R296): the band starts with its bench and tiles. -/
def execReplayBandRecord (s : State) : Host.Outcome State Fault Refusal :=
  .next (replayOne s .replayBandRecord (fun s bd _ _ => recDone (s.modBand bd.id (fun x => { x with bench := [], tiles := [] })) bd.id))

/-- REPLAY_JOB_RECORD (R296): the patched card is checked as the job form that recorded it checks it (R267, R268), and submitted. -/
def execReplayJobRecord (s : State) : Host.Outcome State Fault Refusal :=
  .next (replayOne s .replayJobRecord (fun s bd k img =>
    let j : Job := { id := s.nextId, b := bd.id, n := none, die := bd.die, core := bd.place.core?.getD 0, card := img, cardAt := 0, mn := if 4 ≤ k then 3 else k - 1, pc := 0#64, seq := s.nseq }
    match cardError s bd j.mn img with
    | some _ => replayFails s bd.id
    | none => recDone (submitJob { s with nextId := s.nextId + 1, nseq := s.nseq + 1 } j) bd.id))

/-- REPLAY_MATRIX_RECORD (R296): the operation is checked (R259) and submitted with its recorded recipe; `mbatch` closes a
batch (R263). -/
def execReplayMatrixRecord (s : State) : Host.Outcome State Fault Refusal :=
  .next (replayOne s .replayMatrixRecord (fun s bd k img =>
    let minor := k - 0x10
    let tile := field img 1 1
    let rcp := BitVec.ofNat 10 (field img 2 2)
    let sa := BitVec.ofNat 64 (field img 8 8)
    let sb := BitVec.ofNat 64 (field img 16 8)
    let s1 := { s with nextId := s.nextId + 1, nseq := s.nseq + 1 }
    if minor = 5 then
      let op : Op := { id := s.nextId, b := bd.id, n := 32, seq := s.nseq, path := some 5, pc := 0#64, kind := .batch [] }
      recDone (closeBatch { s1 with ops := s1.ops ++ [op] } bd.id 32 s.nextId) bd.id
    else
      match mopCheck bd 0 bd.benchBytes minor tile rcp sa sb with
      | some _ => replayFails s bd.id
      | none => recDone (submitMop s1 { id := s.nextId, b := bd.id, n := 32, minor := minor, tile := tile, rcp := rcp, sa := sa, sb := sb,
                                        msat := false, seq := s.nseq }) bd.id))

/-- REPLAY_FILL_RECORD (R296): the masked bytes are written to the bench. -/
def execReplayFillRecord (s : State) : Host.Outcome State Fault Refusal :=
  .next (replayOne s .replayFillRecord (fun s bd _ img =>
    let off := field img 4 4
    let mask := field img 8 4
    recDone (s.modBand bd.id (fun x => { x with bench := (List.range 32).foldl (fun m i =>
      if mask / 2 ^ i % 2 = 1 then memPut m (off + i) (img.getD (16 + i) 0#8) else m) x.bench })) bd.id))

/-- REPLAY_WAIT_RECORD (R296): held until at most the threshold of the band's earlier records on that path remain. -/
def execReplayWaitRecord (s : State) : Host.Outcome State Fault Refusal :=
  .next (replayOne s .replayWaitRecord (fun s bd _ _ => recDone s bd.id))

/-- REPLAY_GBAR_RECORD (R195, R296): the band arrives, and goes on once the launch barrier of that count has completed. -/
def execReplayGbarRecord (s : State) : Host.Outcome State Fault Refusal :=
  .next (replayOne s .replayGbarRecord (fun s bd _ _ =>
    if bd.gbarCnt = gbarsBefore s bd then
      (gbarArrive s bd).post [.replayGbarRecord]
    else recDone s bd.id))

/-- REPLAY_FAULT_SETTLE (R297): once every return has arrived. -/
def execReplayFaultSettle (b : Nat) (s : State) : Host.Outcome State Fault Refusal :=
  .next (
    match s.band? b with
    | none => s
    | some bd =>
      if !(bd.replayFault && (bd.place matches .resident _)) then s
      else if bandBusy s b then s.post [.replayFaultSettle b]
      else
        match s.launch? bd.launch with
        | some l => settleReplay s bd l
        | none => closeBand s b)

/-- Every record of a replaying band has been submitted and has returned (R296). -/
def replayOver (s : State) (bd : Band) : Bool := submits bd && nextRec s bd == some .over && !bandBusy s bd.id

end Sys2Proof.Machine
end

