-- ==== Sys2Proof/Machine/Dies.lean ====
section
/-! DEFINITION. Dies (R327 to R336): training, the capability table, admission, heartbeats, quiesce, isolation, reset and link
steps; and the end of a management record (R343). -/

namespace Sys2Proof.Machine
open Sys2Proof

/-! ### Management records (R343) -/

/-- The management record in progress ends with its completion record. -/
def endMgmt (s : State) (status count : Nat) : State :=
  match s.mgmtBusy with
  | none => s
  | some (_, r) => endPacket { s with mgmtBusy := none } 0 r.sq 0 r.done.toNat status count 0

/-! ### Bring-up (R339) -/

/-- Bring-up fails: FAIL and STAGE 15. -/
def bringUpFails (s : State) : State :=
  { s with fail := max 1 (Config.failCode s.nfree).toNat, stage := 15, nfree := s.nfree + 1 }

/-- A queue gets a slot in the polling table of one executive core, unless it has one (R342): which core, which slot and how many are
firmware's, and the model gives it one, the first that is free in the table of an open core (log 82). -/
def givePoll (s : State) (q : Nat) : State :=
  if s.polls.any (fun x => x.2.2 == q) then s
  else
    let f := (Config.freeWord s.nfree).toNat % 4
    let s' := { s with nfree := s.nfree + 1 }
    let table := fun c => s.polls.filter (fun x => x.1 == c)
    match [f, (f + 1) % 4, (f + 2) % 4, (f + 3) % 4].find? (fun c => decide ((table c).length < 2048)) with
    | none => s'
    | some c =>
      match (List.range 2048).find? (fun i => !(table c).any (fun x => x.2.1 == i)) with
      | none => s'
      | some i => { s' with polls := s'.polls ++ [(c, i, q)] }

/-- The device OS has started: STAGE 5, and firmware's management queue is on, with a ring that the manual leaves open. -/
def running (s : State) : State :=
  let w := Config.freeWord s.nfree
  (givePoll { s with stage := 5, nfree := s.nfree + 1 } 0).modQueue 0 (fun q =>
    { q with st := .on, ctx := 0, qbase := w &&& 0x3FFFFFFC0#64, log2 := 4 + (w.extractLsb' 40 8).toNat % 13 })

/-- Bring-up goes on as sites are trained and the control die is admitted (R339): die 8, or die 9 if die 8 is refused. The next
polling slot of an executive core then starts the OS there (log 35). -/
def bringUp (s : State) : State :=
  let st := fun d => ((s.site? d).map (fun (x : Site) => x.st)).getD .absent
  let s := if s.stage = 2 ∧ s.sites.all (fun (x : Site) => x.st != .training && x.st != .absent) = true then { s with stage := 3 } else s
  if s.stage ≠ 3 then s
  else if st 8 = .admitted ∨ (st 8 = .isolated ∧ st 9 = .admitted) then { s with stage := 4 }.post [.pollingSlot 0 0]
  else if st 8 = .isolated ∧ st 9 = .isolated then bringUpFails s
  else s

/-- The OS starts on its control die, or fails to, which is open (R339). -/
def startOs (s : State) : State :=
  let s' := { s with nfree := s.nfree + 1 }
  if Config.freeBool s.nfree then running s' else bringUpFails s'

/-- The executive firmware starts the training of all sites (R339). -/
def startTraining (s : State) : State :=
  { s with stage := 2, sites := s.sites.map (fun (x : Site) => { x with st := SiteSt.training }) }

/-- A die's table may be checked now: the control die first, the others once the device OS runs (R339). -/
def mayAdmit (s : State) (d : Nat) : Bool :=
  s.stage == 5 || (s.stage == 3 && (d == 8 || (d == 9 && (s.site? 8).any (fun (x : Site) => x.st == .isolated))))

/-! ### The capability table (R327, R328) -/

/-- The kind of a site (R1). -/
def siteKind (d : Nat) : Nat := if d < 4 then 1 else if d < 8 then 2 else if d < 10 then 3 else 4

/-- The class that admission grants, with its bit in CLASSES (R329). -/
def grantClass (kind : Nat) : CClass × Nat := if kind = 2 then (.ioco, 1) else if kind = 4 then (.nonco, 2) else (.moesi, 0)

/-- One byte into a CRC-32 with the IEEE 802.3 polynomial, least significant bit first. -/
def crcByte (c : BitVec 32) (b : Byte) : BitVec 32 :=
  (List.range 8).foldl (fun c _ => if c.getLsbD 0 then (c >>> 1) ^^^ 0xEDB88320#32 else c >>> 1) (c ^^^ b.zeroExtend 32)
/-- CRC-32 (R327). -/
def crc32 (bs : List Byte) : BitVec 32 := ~~~(bs.foldl crcByte 0xFFFFFFFF#32)

/-- KIND of a table (R327). -/
def capKind (t : CapTable) : Nat := field t.bytes 2 1
/-- CORES. -/
def capCores (t : CapTable) : Nat := field t.bytes 4 2
/-- PANTRY, in MiB. -/
def capPantry (t : CapTable) : Nat := field t.bytes 20 1
/-- PFLAGS. -/
def capPflags (t : CapTable) : Nat := field t.bytes 21 1
/-- USTEPS. -/
def capUsteps (t : CapTable) : Nat := field t.bytes 34 1
/-- QREQ. -/
def capQreq (t : CapTable) : Nat := field t.bytes 36 2
/-- MEAS. -/
def capMeas (t : CapTable) : Nat := field t.bytes 48 64

/-- Every value lies in its row and has the figure of its kind (R328). -/
def capValues (d : Nat) (t : CapTable) : Bool :=
  let k := siteKind d
  let v := field t.bytes
  let compute := k == 1 || k == 2
  let fig := fun (a b c n : Nat) => if k = 1 then a else if k = 2 then b else if k = 3 then c else n
  (if k = 4 then capCores t == 0 else decide (1 ≤ capCores t) && decide (capCores t ≤ fig 48 64 16 0)) &&
    v 6 1 == fig 16 16 1 0 && v 7 1 == fig 32 32 1 0 && v 8 4 == fig 512 1024 0 0 && v 12 4 == fig 768 768 0 0 &&
    v 16 4 == fig 256 256 256 0 &&
    (if compute then (capPantry t == 128 && capPflags t == 1) || (capPantry t == 64 && capPflags t == 0)
     else capPantry t == 0 && capPflags t == 0) &&
    v 22 1 == fig 8 8 0 0 && v 23 1 == fig 1 4 0 0 && v 24 2 == fig 512 512 0 0 && v 26 2 == fig 1024 1024 0 0 &&
    v 28 2 == fig 256 256 0 0 && decide (v 30 1 < 8) && decide (v 31 1 < 8) && v 31 1 / 2 ^ (grantClass k).2 % 2 == 1 &&
    v 32 1 == 5 && v 33 1 == (if d < 8 then 64 else 32) && decide (capUsteps t < 16) && v 35 1 == fig 0 0 0 8 && decide (capQreq t ≤ 256)

/-- Why the serai refuses a table, the first cause of R328 that holds: 1 CHECK, 2 FORMAT, 3 a zero field, 4 KIND, 5 a value, 6 the
signature; none where it passes. -/
def capCause (d : Nat) (t : CapTable) : Option Nat :=
  if t.bytes.length ≠ 256 ∨ (crc32 (t.bytes.take 252)).toNat ≠ field t.bytes 252 4 then some 1
  else if field t.bytes 0 2 ≠ 1 then some 2
  else if field t.bytes 38 10 ≠ 0 ∨ field t.bytes 124 128 ≠ 0 ∨ capPflags t / 2 ≠ 0 then some 3
  else if capKind t ≠ siteKind d then some 4
  else if !capValues d t then some 5
  else if !t.sigOk then some 6
  else none

/-- The table passes (R328). -/
def capOk (d : Nat) (t : CapTable) : Bool := (capCause d t).isNone

/-- The steps of a link that USTEPS names, rising. -/
def stepsOf (u : Nat) : List Nat := [(1, 16), (2, 32), (4, 48), (8, 64)].filterMap (fun x => if u / x.1 % 2 = 1 then some x.2 else none)

/-- Queue identifiers for a die (R329): those of its last admission, when it asks for as many; otherwise the lowest that no die has,
nor had at its last admission. -/
def grantQids (s : State) (d n : Nat) (old : List Nat) : List Nat :=
  if old.length = n then old
  else
    let taken := (s.sites.filter (fun (x : Site) => x.die != d)).flatMap (fun (x : Site) => x.qids ++ x.lastQids)
    let free := (List.range 4096).filter (fun q => !taken.contains q)
    if free.length < n then [] else free.take n

/-- A die's cores at admission, at their nominal clocks (R29). -/
def freshCores (d n : Nat) : List Core := (List.range n).map (fun c =>
  { die := d, num := c, mhz := if d = 8 ∨ d = 9 then 3200 else 1200, lfsr := BitVec.ofNat 16 (d * 64 + c) ||| 1#16 })

/-- The link step that admission grants (R329): 32 GT/s, or the highest step in USTEPS if that is lower. -/
def grantStep (t : CapTable) : Nat := min 32 ((stepsOf (capUsteps t)).getLastD 32)

/-- Admission (R28, R329, R335): a member of a collective group on the die is compared at its next job.col (R276). -/
def enterSite (s : State) (d : Nat) (t : CapTable) (st : Site) : State :=
  let s := match st.cap with
    | some old => if capMeas old = capMeas t then s else s.logErr 0x335 d (capMeas t)
    | none => s
  let q := grantQids s d (capQreq t) st.lastQids
  let s := if q.length < capQreq t then s.logErr 0x329 d (capQreq t) else s
  let compute := decide (capKind t ≤ 2)
  let s := s.modSite d (fun x => { x with st := .admitted, cap := some t, cls := some (grantClass (capKind t)).1, gts := grantStep t, qids := q, lastQids := q,
                                          hbMiss := 0, hbOut := false, retrainFail := 0, retraining := none, lines := [], lastCore := 63,
                                          capMiB := if compute then capPantry t else x.capMiB, upper := if compute then capPflags t == 1 else x.upper })
  let s := { s with cores := s.cores.filter (fun (c : Core) => c.die != d) ++ freshCores d (capCores t) }
  let s := { s with groups := s.groups.map (fun (g : Group) =>
    { g with members := g.members.map (fun (y : Member) => if y.m == s.dev && y.die == d then { y with recheck := true } else y) }) }
  bringUp (s.post [.bandDispatch d])

/-- CAPABILITY_CHECK (R327 to R329): the die is admitted, or refused with a record in the error log that gives the cause. A die that
is refused here, or at its enumeration, or after failed trainings, has not been ADMITTED: the model does not count its entry into
ISOLATED as one without a complete quiesce, and the service mode stays (R57, log 72). -/
def execCapabilityCheck (d : Nat) (t : CapTable) (s : State) : Host.Outcome State Fault Refusal :=
  .next (
    match s.site? d with
    | none => s
    | some st =>
      if st.st ≠ .enumerating then s
      else
        match capCause d t with
        | none => if mayAdmit s d then enterSite s d t st else s.post [.capabilityCheck d t]
        | some c => bringUp ((s.logErr 0x328 d c).modSite d (fun x => { x with st := .isolated })))

/-- ENUMERATION_TIMEOUT (R330): the die is refused. -/
def execEnumerationTimeout (d : Nat) (s : State) : Host.Outcome State Fault Refusal :=
  .next (
    match s.site? d with
    | none => s
    | some st =>
      if st.st ≠ .enumerating then s else bringUp ((s.logErr 0x330 d 0).modSite d (fun x => { x with st := .isolated })))

/-- LINK_TRAINED (R330). -/
def execLinkTrained (d : Nat) (s : State) : Host.Outcome State Fault Refusal :=
  .next (
    match s.site? d with
    | none => s
    | some st => if st.st ≠ .training then s else bringUp (s.modSite d (fun x => { x with st := .enumerating, trainFail := 0, gts := 16 })))

/-- TRAINING_TIMEOUT (R330): the third failed attempt isolates the site. The service mode stays: the die was not ADMITTED (R57,
log 72). -/
def execTrainingTimeout (d : Nat) (s : State) : Host.Outcome State Fault Refusal :=
  .next (
    match s.site? d with
    | none => s
    | some st =>
      if st.st ≠ .training then s
      else if st.trainFail < 2 then s.modSite d (fun x => { x with trainFail := x.trainFail + 1 })
      else bringUp (s.modSite d (fun x => { x with st := .isolated, trainFail := 0 })))

/-! ### Links of the fabric (R14, R345 to R347) -/

/-- The link to a peer. -/
def State.link? (s : State) (m : Nat) : Option Link := s.links.find? (fun (l : Link) => l.m == m)
/-- Change the link to a peer. -/
def State.modLink (s : State) (m : Nat) (f : Link → Link) : State :=
  { s with links := s.links.map (fun (l : Link) => if l.m == m then f l else l) }

/-- The relay to a module: the lowest-numbered module with both links up, dead or not, since only its crossbar takes part. This module knows its own links; the far ones are free. -/
def relayFor (s : State) (m : Nat) : State × Option Nat :=
  let near := (List.range 16).filter (fun r => r != m && r != s.dev && s.links.any (fun (l : Link) => l.m == r && l.up))
  ({ s with nfree := s.nfree + 16 }, near.find? (fun r => Config.freeBool (s.nfree + r)))

/-- Choose the relay of one link. -/
def chooseRelay (s : State) (m : Nat) : State :=
  let r := relayFor s m
  r.1.modLink m (fun l => { l with relay := r.2 })

/-- The relays of the links that are down are chosen anew: a lower-numbered one serves as soon as it is there (R347). -/
def reRelay (s : State) : State :=
  ((s.links.filter (fun (l : Link) => !l.up && !l.dead)).map (fun (l : Link) => l.m)).foldl chooseRelay s

/-- What was held behind relayed messages goes directly once all of those are acknowledged (R347). -/
def flushHeld (l : Link) : Link :=
  if l.up && !l.out.any (fun (x : FabMsg) => x.relayed) then { l with out := l.out ++ l.held, held := [] } else l

/-- Some of the oldest messages of a link are acknowledged: how many is open. -/
def ackSome (i : Nat) (l : Link) : Link := flushHeld { l with out := l.out.drop ((Config.freeWord i).toNat % (l.out.length + 1)) }

/-- A direct link goes down (R347): what is not acknowledged is sent again over the relay in its order, before any new message; what it
relayed for others goes another way. -/
def linkDown (s : State) (m : Nat) : State :=
  let s' := { s with nfree := s.nfree + 1 }.modLink m (fun l =>
    let l := ackSome s.nfree l
    { l with up := false, retraining := false, fails := 0, skipped := false, out := (l.out ++ l.held).map (fun (x : FabMsg) => { x with relayed := true }), held := [] })
  reRelay s'

/-- The network die that carries the port to module `m` (R14, R345): ports 0 to 7 lie on die 10, ports 8 to 15 on die 11. -/
def portDie (m : Nat) : Nat := if m < 8 then 10 else 11
/-- That die takes traffic: it is not held in isolation (R330). -/
def portUp (s : State) (m : Nat) : Bool := (s.site? (portDie m)).all (fun (x : Site) => x.st != .isolated && x.st != .resetting)

/-- The links of a network die that is isolated are held, and go down (R330, R347). -/
def dropPorts (s : State) (d : Nat) : State :=
  ((s.links.filter (fun (l : Link) => l.up && portDie l.m == d)).map (fun (l : Link) => l.m)).foldl linkDown s

/-! ### Isolation (R333 to R335) -/

/-- A forfeit record (R334): a full log drops it and only SEQ advances. -/
def logForfeit (s : State) (ctx line d st : Nat) : State :=
  let r : Forfeit := { addr := BitVec.ofNat 64 (ctx * 2 ^ 52 + line * 128 % 2 ^ 48), die := d, st := st, time := s.clk, seq := s.forfeitSeq }
  { s with forfeit := if s.forfeit.length < 65536 then s.forfeit ++ [r] else s.forfeit, forfeitSeq := s.forfeitSeq + 1 }

/-- A message of a die on a line that has not reached the home. -/
def fromDie (d : Nat) : Instr → Bool
  | .putm x _ _ | .puto x _ _ | .fwdgets x _ _ | .fwdgetm x _ _ | .backinv x _ _ | .invack x _ _ _ => x == d
  | _ => false

/-- A line's data is on its way home in an acknowledgement. -/
def dirtyAck (s : State) (d ctx line : Nat) : Bool :=
  s.agenda.any (fun e => match e with | .invack x c l (some _) => x == d && c == ctx && l == line | _ => false)

/-- A grant of a line is on its way to a die. -/
def granted (s : State) (d : Nat) (k : Nat × Nat) : Bool := s.dataTo d k.1 k.2

/-- The owner has sent a line's data to a requester, and its acknowledgement has not come: the data goes with the messages of the lost
die. -/
def fwdLost (s : State) (d : Nat) (e : DirEnt) : Bool :=
  (s.txn? e.ctx e.line).any (fun (x : Txn) => x.await.contains d && x.src == d &&
    x.fwd.any (fun l => e.st != CState.E || remoteKey e.line || l != s.memLine e.ctx e.line))

/-- The STATE under which the forfeit log records a line that a lost holder owned (R334): 1 M, 2 O, 0 where no data is lost. -/
def lostState (s : State) (d : Nat) (e : DirEnt) : Nat :=
  let own := if e.st = CState.O then 2 else 1
  match s.lineAt d e.ctx e.line with
  | some c =>
    if c.st = CState.M then 1 else if c.st = CState.O then 2
    else if e.st = CState.M ∧ granted s d (e.ctx, e.line) = true then 1 else 0
  | none =>
    if dirtyAck s d e.ctx e.line || fwdLost s d e then own
    else if e.st = CState.E then 0
    else if 16 ≤ d ∨ granted s d (e.ctx, e.line) = true then own
    else 0

/-- A line that a lost holder owned is reverted (R333): every other copy is dropped, those of other modules by Inv, and its granary content
stands as its value. What a grant is bringing to another die is delivered and not kept. -/
def revertLine (log : State → Nat → State) (s : State) (d : Nat) (e : DirEnt) : State :=
  let st := lostState s d e
  let s := if st = 0 then s else log s st
  let s := ((List.range 16).filter (fun m => e.mods.getLsbD m && m + 16 != d)).foldl (fun s m => s.toPeer m 2 (.take e.ctx e.line false)) s
  ({ s with
      reqs := s.reqs.map (fun (r : Req) => if r.key s == (e.ctx, e.line) && s.dataTo r.die e.ctx e.line then { r with remote := 3 } else r),
      sites := s.sites.map (fun (x : Site) => { x with lines := x.lines.filter (fun (c : CLine) => !(c.ctx == e.ctx && c.line == e.line)) }) }).dropDir
    e.ctx e.line

/-- A transaction whose request came from a lost die: the data that a forwarded owner has sent there is lost with it (R333, R334,
log 83). -/
def loseData (d : Nat) (s : State) (x : Txn) : State :=
  match x.fwd, s.req? x.r with
  | some l, some r =>
    if r.die = d ∧ r.cached = true ∧ (r.who matches .peer _) = false ∧ (x.kind = .getm ∨ x.kind = .upg) ∧ l ≠ s.memLine x.ctx x.line then
      logForfeit s x.ctx x.line d 1
    else s
  | _, _ => s

/-- The lines whose data a lost die has sent, which has reached no requester, which memory does not hold, and which the die no longer owns: each is
logged as lost once (R333, log 83). One that it still owns is logged as it is reverted. -/
def sentLost (s : State) (d : Nat) : List (Nat × Nat) :=
  (s.reqs.filterMap (fun (r : Req) =>
    if r.src == d && r.die != d && r.home == s.dev && r.back.isNone && !(s.dir? r.ctx r.line).any (fun e => e.ownedBy d) &&
        s.agenda.any (fun e => match e with | .dataMsg i (some l) => i == r.id && l != s.memLine r.ctx r.line | _ => false) then
      some (r.ctx, r.line)
    else none)).eraseDups

/-- A Data message that a lost die has sent and that has not reached its requester is discarded with the others (R335): the requester is
supplied from memory, or asks another module's home again. Where it was the reply of a verb there, the request is answered
NR_DIE_ABSENT. -/
def loseSent (s : State) (r : Req) : State :=
  let mine : Instr → Bool := fun e => match e with | .dataMsg i (some _) => i == r.id | _ => false
  if r.back.isSome then
    { s with agenda := s.agenda.filter (fun e => match e with | .dataMsg i _ => i != r.id | _ => true) }.modReq r.id (fun x => { x with back := none })
      |>.post [.negativeReply r.id 4#8]
  else match s.agenda.find? mine with
  | some (.dataMsg _ (some _)) =>
    let here := r.home == s.dev
    let s1 := { s with agenda := s.agenda.map (fun e => if mine e then .dataMsg r.id (if here then some (s.memLine r.ctx r.line) else none) else e) }
    s1.modReq r.id (fun x => { x with src := 15 })
  | _ => s

/-- What a holder leaves behind in the directory: its owned lines are reverted and it is struck from every sharer mask; the
transactions that await it complete without data. -/
def loseHolder (s : State) (h : Nat) (log : DirEnt → State → Nat → State) : State :=
  let s := (s.dir.filter (fun (e : DirEnt) => e.st.owns && e.owner == h)).foldl (fun s e => revertLine (log e) s h e) s
  let s := { s with dir := (s.dir.map (fun (e : DirEnt) => e.unshare h)).filter (fun (e : DirEnt) => !e.holders.isEmpty) }
  let s := if h < 16 then (s.modSite h (fun x => { x with lines := [] })) else s
  let s := { s with agenda := s.agenda.filter (fun e => !fromDie h e),
                    txns := s.txns.map (fun (x : Txn) => if x.await.contains h && x.src == h then { x with fwd := none, src := 15 } else x) }
  (s.txns.filter (fun (x : Txn) => x.await.contains h)).foldl (fun s x => s.ackFrom h x.ctx x.line none) s

/-- A request of a lost die that is discarded: one that has not reached the serai, and one of which only the reply to the die is left
(R335). A store or an atomic that has reached its home, and a verb that is being performed, goes on there; what waits at the die for a
notice is sent no more (R330). -/
def strayed (s : State) (d : Nat) (r : Req) : Bool :=
  r.die == d && (match r.who with | .str .. | .job _ | .walk => true | _ => false) &&
    ((r.arr == 0 && (r.held.isNone || !s.waitsAtHome r)) || r.cached || (match r.kind with | .read _ => true | _ => false))

/-- The messages of a lost die that have not reached the serai, and the replies addressed to it, are discarded (R335). -/
def dropStrays (s : State) (d : Nat) : State := { s with reqs := s.reqs.filter (fun (r : Req) => !strayed s d r) }

/-- The work of a band that its lost die carried: released entries, engine work, matrix operations (R335). -/
def dropEngines (s : State) (b : Nat) : State :=
  { s with rels := s.rels.filter (fun x => x.1 != b), mops := s.mops.filter (fun (m : MOp) => m.b != b),
           jobs := s.jobs.filter (fun (j : Job) => j.b != b) }

/-- The operations of a band that is lost end with it. -/
def dropBandWork (s : State) (b : Nat) : State :=
  { dropEngines s b with
      ops := s.ops.map (fun (o : Op) => if o.b == b then { o with undone := true, done := true, fin := true, todo := [] } else o) }

/-- A band of a die that leaves ADMITTED without a complete quiesce (R297, R333). Of a saved band the jobs that have ended in error still
return (R276). -/
def loseBand (s : State) (bd : Band) : State :=
  match bd.place with
  | .resident _ =>
    let s := dropBandWork s bd.id
    if bd.replayAt.isSome then (s.modBand bd.id (fun x => { x with replayFault := true, preempt := false })).post [.replayFaultSettle bd.id]
    else killBand s bd.id
  | .parked _ => killBand (dropBandWork s bd.id) bd.id
  | .killed _ => dropBandWork s bd.id
  | .queued _ => s.modBand bd.id (fun x => { x with place := .waiting })
  | .saved _ =>
    let s1 := dropEngines s bd.id
    { s1 with jobs := s.jobs.filter (fun (j : Job) => j.b != bd.id || j.err.isSome) }
  | _ => s

/-- The waybills in a die's store become invalid while it is not ADMITTED (R335). -/
def spoilWaybills (s : State) (d : Nat) : State :=
  { s with waybills := s.waybills.map (fun (w : Waybill) => if w.die == d && !w.spilled then { w with valid := false } else w) }

/-- Every grant of an admission lapses (R329). -/
def Site.lapse (x : Site) : Site := { x with cls := none, qids := [], gts := 16 }

/-- What every entry into ISOLATED from ADMITTED or QUIESCING does (R329, R335): every grant lapses, the link is held, the store's
waybills become invalid. -/
def leaveAdmitted (s : State) (d : Nat) : State :=
  let s := s.modSite d (fun x => { x.lapse with st := .isolated, hbMiss := 0, hbOut := false, retraining := none, retrainFail := 0, lines := [] })
  let s := { spoilWaybills s d with cores := s.cores.filter (fun (c : Core) => c.die != d) }
  dropPorts s d

/-- The die enters ISOLATED without a complete quiesce (R57, R333): the collectives of its members abort first (R276). The records of one
isolation stand in this order (log 112): data that was on its way to the die, then from it, then the lines that it owned as the directory
lists them. -/
def isolate (s : State) (d : Nat) : State :=
  let s := abortCollectives s s.dev d
  let s := (s.bands.filter (fun (b : Band) => b.die == d)).foldl loseBand s
  let s := s.txns.foldl (loseData d) s
  let s := (sentLost s d).foldl (fun s k => logForfeit s k.1 k.2 d 1) s
  let s := (s.reqs.filter (fun (r : Req) => r.src == d && r.die != d)).foldl loseSent s
  let s := loseHolder s d (fun e s st => logForfeit s e.ctx e.line d st)
  let s := leaveAdmitted (dropStrays s d) d
  { s with smode := if s.smode = 0 then 3 else s.smode }

/-- A site that a hang isolates: ADMITTED or QUIESCING (R331). -/
def hang (s : State) (d : Nat) : State :=
  if (s.site? d).any (fun (x : Site) => x.st == .admitted || x.st == .quiescing) then isolate s d else s

/-! ### Heartbeats (R331) -/

/-- A die that the serai sends heartbeats to. -/
def Site.beats (x : Site) : Bool := (x.st == .admitted || x.st == .quiescing) && x.retraining.isNone

/-- HEARTBEAT (R331): sent to every ADMITTED or QUIESCING die outside a retraining window; an answered one ends a run of
misses. -/
def execHeartbeat (s : State) : Host.Outcome State Fault Refusal :=
  .next ({ s with sites := s.sites.map (fun (x : Site) =>
    if x.beats then { x with hbMiss := if x.hbOut then 0 else x.hbMiss, hbOut := true } else x) })

/-- HEARTBEAT_MISS (R331): the third in a row is a hang. -/
def execHeartbeatMiss (d : Nat) (s : State) : Host.Outcome State Fault Refusal :=
  .next (
    match s.site? d with
    | none => s
    | some x =>
      if !(x.beats && x.hbOut) then s
      else if x.hbMiss < 2 then s.modSite d (fun x => { x with hbMiss := x.hbMiss + 1, hbOut := false })
      else hang s d)

/-! ### Link steps (R336) -/

/-- A retraining begins, during which the site's channels hold their traffic: how it ends is open (R336). -/
def State.openWindow (s : State) (d : Nat) (f : Site → Site) : State :=
  ({ s with nfree := s.nfree + 1 }.modSite d f).post [.retrainDone d (Config.freeBool s.nfree)]

/-- LINK_STEP_INTERVAL (R336): above 70 per cent one step up, below 20 one step down, within USTEPS; a change opens a
retraining window. -/
def execLinkStepInterval (d util : Nat) (s : State) : Host.Outcome State Fault Refusal :=
  .next (
    match s.site? d with
    | none => s
    | some x =>
      if x.st ≠ .admitted ∨ x.retraining.isSome = true then s
      else
        let steps := stepsOf ((x.cap.map capUsteps).getD 0)
        let up := (steps.filter (fun g => decide (x.gts < g))).head?
        let down := (steps.filter (fun g => decide (g < x.gts))).getLast?
        match if 70 < util then up else if util < 20 then down else none with
        | some g => s.openWindow d (fun x => { x with retraining := some x.gts, gts := g, retrainFail := 0 })
        | none => s)

/-- RETRAIN_DONE (R336): a failure is retried at the previous step; three failures there are a hang (R331). -/
def execRetrainDone (d : Nat) (ok : Bool) (s : State) : Host.Outcome State Fault Refusal :=
  .next (
    match s.site? d with
    | none => s
    | some x =>
      match x.retraining with
      | none => s
      | some old =>
        if ok then s.modSite d (fun x => { x with retraining := none, retrainFail := 0 })
        else if x.gts ≠ old then s.openWindow d (fun x => { x with gts := old })
        else if x.retrainFail < 2 then s.openWindow d (fun x => { x with retrainFail := x.retrainFail + 1 })
        else hang s d)

/-! ### Quiesce and reset (R332, R363) -/

/-- The die that the management record in progress names. -/
def mgmtDie (s : State) : Nat := (s.mgmtBusy.map (fun (x : Nat × MgmtRec) => x.2.target)).getD 0

/-- A transaction in progress that involves a die: an answer that is awaited from it, a request of its own that has not been answered, a
job of its cores that is reading or writing. -/
def dieInvolved (s : State) (d : Nat) : Bool :=
  s.reqs.any (fun (r : Req) => r.die == d && (match r.who with | .str .. | .job _ | .walk => true | _ => false)) ||
  s.jobs.any (fun (j : Job) => j.die == d && j.started && (j.ph == 1 || j.ph == 3)) ||
  s.txns.any (fun (x : Txn) => x.await.contains d || (s.req? x.r).any (fun (r : Req) => r.die == d && r.who != .peer d))

/-- The die writes its dirty lines back and drops its clean ones (R332). -/
def drainLines (s : State) (d : Nat) : State :=
  match s.site? d with
  | none => s
  | some x =>
    let out := x.lines.filter (fun (c : CLine) => c.dirty && !c.wb)
    (s.modSite d (fun x => { x with lines := (x.lines.filter CLine.dirty).map (fun (c : CLine) => { c with wb := true, keep := false }) })).post
      (out.map (putEvent d))

/-- A band of a quiescing die that still stands there: resident, parked in place or killed. -/
def bandOnDie (d : Nat) (b : Band) : Bool :=
  b.die == d && (match b.place with | .resident _ | .killed _ | .parked _ => true | _ => false)

/-- DIE_QUIESCE_DONE (R332): once every band is saved, every line written back and every transaction complete, the die enters
ISOLATED; one that hung on the way is there already. -/
def execDieQuiesceDone (s : State) : Host.Outcome State Fault Refusal :=
  .next (
    let d := mgmtDie s
    match s.site? d, s.mgmtBusy with
    | some x, some (0x0B, _) =>
      if x.st = .isolated then endMgmt s 0 0
      else if x.st ≠ .quiescing then s
      else
        match s.bands.find? (bandOnDie d) with
        | some b =>
          let s := match b.place with
            | .resident _ => if b.preempt then s else s.post [.preemptionRequest b.id]
            | .parked _ => (let s := makeRoom s b.ctx (saveSize b); if roomFor s b.ctx (saveSize b) then saveBand s b.id else s)
            | _ => s
          s.post [.dieQuiesceDone]
        | none =>
          if !x.lines.isEmpty then (drainLines s d).post [.dieQuiesceDone]
          else if dieInvolved s d then s.post [.dieQuiesceDone]
          else endMgmt (leaveAdmitted { s with dir := (s.dir.map (fun (e : DirEnt) =>
              if e.st.owns && e.owner == d then { e.unshare d with st := .S, owner := 0 } else e.unshare d)).filter (fun (e : DirEnt) => !e.holders.isEmpty) } d) 0 0
    | _, _ => s)

/-- RESETTING_COMPLETE (R330, R363): the pantry is zeroed and the site enters TRAINING. -/
def execResettingComplete (s : State) : Host.Outcome State Fault Refusal :=
  .next (
    let d := mgmtDie s
    match s.site? d, s.mgmtBusy with
    | some x, some (0x0C, _) =>
      if x.st ≠ .resetting then s
      else endMgmt (s.modSite d (fun x => { x with st := .training, trainFail := 0, pantry := [] })) 0 0
    | _, _ => s)

/-- DIE_QUIESCE (R332, R363): of an ADMITTED die, whose grants lapse and whose collectives abort as it leaves ADMITTED (R276, R329); bands
queued at its cores go back to the dispatcher. -/
def execDieQuiesce (s : State) : Host.Outcome State Fault Refusal :=
  .next (
    match s.mgmtBusy with
    | some (0x0B, r) =>
      if !(s.site? r.target).any (fun (x : Site) => x.st == .admitted) then endMgmt s 1 0
      else
        let s := abortCollectives (spoilWaybills (s.modSite r.target (fun x => { x.lapse with st := .quiescing })) r.target) s.dev r.target
        let s := { s with bands := s.bands.map (fun (b : Band) =>
                            if b.die == r.target then { b with place := match b.place with | .queued _ => .waiting | p => p } else b),
                          cores := s.cores.map (fun (c : Core) => if c.die == r.target then { c with bandQ := [] } else c) }
        s.post ((s.bands.filter (fun (b : Band) => b.die == r.target && (b.place matches .resident _))).map (fun (b : Band) => Instr.preemptionRequest b.id) ++
          [.dieQuiesceDone])
    | _ => s)

/-- DIE_RESET (R363): by the state of the site. -/
def execDieReset (s : State) : Host.Outcome State Fault Refusal :=
  .next (
    match s.mgmtBusy with
    | some (0x0C, r) =>
      match (s.site? r.target).map (fun (x : Site) => x.st) with
      | some .isolated => (s.modSite r.target (fun x => { x with st := .resetting })).post [.resettingComplete]
      | some .admitted | some .quiescing =>
        ((isolate s r.target).modSite r.target (fun x => { x with st := .resetting })).post [.resettingComplete]
      | some .absent => endMgmt (s.modSite r.target (fun x => { x with st := .training, trainFail := 0 })) 0 0
      | _ => endMgmt s 1 0
    | _ => s)

end Sys2Proof.Machine
end

