-- ==== Sys2Proof/Machine/Mgmt.lean ====
section
/-! DEFINITION. The management records of queue 0 (R343, R344): their checks, and what each command does. -/

namespace Sys2Proof
open Sys2Proof.Machine

/-- An argument of a record by its byte offset in the record. -/
def MgmtRec.arg (r : MgmtRec) (off n : Nat) : Nat := field r.args (off - 8) n

/-- The bytes of a record from `off` on, `n` of them. -/
def MgmtRec.bytesAt (r : MgmtRec) (off n : Nat) : List Byte := (r.args.drop (off - 8)).take n

/-- The page that a PAGE record names. -/
def MgmtRec.page (r : MgmtRec) : Nat := r.arg 16 8 / 65536

end Sys2Proof

namespace Sys2Proof.Machine
open Sys2Proof

/-! ### Arguments (R344) -/

/-- Every byte of 8 to 55 outside the named fields is zero. -/
def onlyFields (r : MgmtRec) (used : List (Nat × Nat)) : Bool :=
  r.args.zipIdx.all (fun x => x.1 == 0#8 || used.any (fun u => decide (u.1 ≤ x.2 + 8) && decide (x.2 + 8 < u.1 + u.2)))

/-- A context, queue or other target in a range. -/
def targetIn (r : MgmtRec) (lo hi : Nat) : Bool := decide (lo ≤ r.target) && decide (r.target ≤ hi)

/-- The fields of a record have the values of R344. The reserved fields of QUEUE_CFG's word at +0x08 are read-only fields of the window:
bits set there are ignored (R8, R9), and are no field outside its values (log 84). -/
def argsOk (code : Nat) (r : MgmtRec) : Bool :=
  match code with
  | 0x01 => targetIn r 1 4095 && onlyFields r [(8, 2), (12, 4), (16, 8), (24, 4)] && decide (r.arg 8 1 < 4) && decide (1 ≤ r.arg 9 1) &&
      decide (r.arg 9 1 ≤ 4) && decide (1 ≤ r.arg 12 4) && r.arg 16 8 % 64 == 0 && r.arg 24 4 == 160 + 64 * r.arg 9 1
  | 0x02 | 0x06 => targetIn r 1 4095 && onlyFields r []
  | 0x03 => targetIn r 1 4095 && onlyFields r [(8, 17)] && decide (r.arg 24 1 ≤ 3)
  | 0x04 => targetIn r 1 4095 && onlyFields r [(8, 12)]
  | 0x05 => targetIn r 1 4095 && onlyFields r [(8, 1), (16, 8), (24, 3), (32, 8)] && decide (r.arg 8 1 ≤ 4) && r.arg 16 8 % 65536 == 0 &&
      decide (r.arg 16 8 < 2 ^ 48) && decide (r.arg 24 1 < 8) && decide (r.arg 26 1 ≤ 1) && (r.arg 26 1 == 0 || r.arg 32 8 % 65536 == 0) &&
      r.arg 25 1 / 2 ^ r.arg 24 1 % 2 == 1
  | 0x07 => targetIn r 0 255 && onlyFields r [(8, 4), (16, 16), (32, r.arg 11 1)] && decide (r.arg 8 2 ≤ 4095) &&
      decide (r.arg 10 1 ≤ 1) && decide (1 ≤ r.arg 11 1) && decide (r.arg 11 1 ≤ 16) && r.arg 16 8 % 65536 == 0 && r.arg 24 8 % 65536 == 0 &&
      decide (r.arg 16 8 + r.arg 24 8 ≤ 2 ^ 48) && (r.bytesAt 32 (r.arg 11 1)).all (fun b => !b.getLsbD 7)
  | 0x08 => targetIn r 0 255 && onlyFields r []
  | 0x09 => targetIn r 1 4095 && onlyFields r [(8, 2), (16, r.arg 9 1)] && decide (2 ≤ r.arg 9 1) && decide (r.arg 9 1 ≤ 16) &&
      (r.bytesAt 16 (r.arg 9 1)).all (fun b => !b.getLsbD 3)
  | 0x0A => targetIn r 1 4095 && onlyFields r [(8, 1)]
  | 0x0B | 0x0C => targetIn r 0 11 && onlyFields r []
  | 0x0D => (targetIn r 0 1 || targetIn r 0x100 0x1FF) && onlyFields r [(8, 12)] && r.arg 8 8 % 32 == 0 && r.arg 16 4 % 32 == 0 &&
      decide (r.arg 16 4 ≤ 65535 * 32)
  | 0x0E => targetIn r 1 4095 && onlyFields r [(8, 40)]
  | 0x0F => targetIn r 1 4095 && onlyFields r [(8, 16)]
  | 0x10 => targetIn r 1 4095 && onlyFields r [(8, 16)] && r.arg 8 8 % 64 == 0
  | 0x11 => targetIn r 0 32767 && onlyFields r [(8, 3), (16, 8)] && decide (r.arg 8 2 ≤ 4095) && decide (r.arg 10 1 ≤ 1) &&
      r.arg 16 8 % 2 ^ 21 == 0 && decide (r.arg 16 8 < 2 ^ 48)
  | 0x12 => r.target == 0 && onlyFields r [(8, 1)] && (r.arg 8 1 == 0 || r.arg 8 1 == 2 || r.arg 8 1 == 3)
  | _ => false

/-- The event of a record. -/
def mgmtEvent (code : Nat) (r : MgmtRec) : Instr :=
  match code with
  | 0x01 => .ctxCreate
  | 0x02 => .ctxDestroy
  | 0x03 => .loadObj
  | 0x04 => .preemptCmd
  | 0x05 => match r.arg 8 1 with
    | 0 => .pageMap
    | 1 => .pageMove
    | 2 => .pagePin
    | 3 => .pageUnpin
    | _ => .pageRestoreReplicas
  | 0x06 => .spanInv
  | 0x07 => .extentGrant
  | 0x08 => .extentRevoke
  | 0x09 => .colSetup
  | 0x0A => .colDestroy
  | 0x0B => .dieQuiesce
  | 0x0C => .dieReset
  | 0x0D => .logRead
  | 0x0E => .quote
  | 0x0F => .exportCmd
  | 0x10 => .queueCfg
  | 0x11 => if r.arg 10 1 = 1 then .apertureMap else .apertureUnmap
  | _ => match r.arg 8 1 with
    | 0 => .serviceModeNormal
    | 2 => .serviceModeTest
    | _ => .serviceModeRecovery

/-- Run a command on the record in progress. A record that has written its data for this command stands at code + 256 + 65536 ×
its count, and ends once those writes are performed; `go` is given the phase of a command of several steps. -/
def State.cmd (s : State) (code : Nat) (ev : Instr) (go : MgmtRec → Nat → State) : Host.Outcome State Fault Refusal :=
  .next (
    match s.mgmtBusy with
    | none => s
    | some (c, r) =>
      if c % 256 ≠ code then s
      else if c / 256 % 256 = 1 then
        if s.reqs.any (fun (x : Req) => x.who == .serai 0 r.sq) then s.post [ev] else endMgmt s 0 (c / 65536)
      else go r (c / 256 % 256))

/-- Write a command's data; the record ends once it is performed. -/
def writeOut (s : State) (r : MgmtRec) (code count : Nat) (ev : Instr) (va : Nat) (bs : List Byte) : State :=
  (seraiWrite { s with mgmtBusy := some (code + 256 + 65536 * count, r) } 0 r.sq 0 va bs).post [ev]

/-- A command goes to a further phase. -/
def toPhase (s : State) (r : MgmtRec) (code phase : Nat) (ev : Instr) : State := { s with mgmtBusy := some (code + 256 * phase, r) }.post [ev]

/-! ### Contexts (R344, R366) -/

/-- CTX_CREATE (R344): the key block is read once and overwritten with zeros. -/
def execCtxCreate (s : State) : Host.Outcome State Fault Refusal :=
  s.cmd 0x01 .ctxCreate (fun r _ =>
    if (s.ctx? r.target).isSome then endMgmt s 1 0
    else
      let n := r.arg 24 4
      match peekVa s 0 (r.arg 16 8) n with
      | .again s => s.post [.ctxCreate]
      | .fail s => endMgmt s 1 0
      | .bytes s bs =>
        let c : Ctx := { id := r.target, conf := r.arg 8 1 % 2 == 1, pinned := r.arg 8 1 / 2 % 2 == 1, keys := bs, nsign := r.arg 9 1,
                         pool := 65536 * r.arg 12 4 }
        writeOut { s with ctxs := s.ctxs ++ [c] } r 0x01 0 .ctxCreate (r.arg 16 8) (List.replicate n 0#8))

/-- A packet of a destroyed context that has been fetched and has not started completes with CONTEXT. -/
def endPackets (s : State) (c : Nat) : State :=
  (s.queues.filter (fun (q : Queue) => q.ctx == c && q.q != 0)).foldl (fun s q =>
    (q.pkts.filter (fun (p : Pkt) => !p.done && !s.launches.any (fun (l : Launch) => l.q == q.q && l.sq == p.sq))).foldl (fun s p =>
      if signalOk p.bytes then endPacket s q.q p.sq c (field p.bytes 40 8) 7 0 0 else dropPacket s q.q p.sq) s) s

/-- The address of a queue's next packet (R341). -/
def nextPkt (q : Queue) : Nat := (q.qbase.toNat + 64 * (q.ridx.toNat % 2 ^ q.log2)) % 2 ^ 64

/-- A fetched packet takes its sequence number, and RIDX passes it. -/
def takePkt (s : State) (q : Queue) (bs : List Byte) : State :=
  s.modQueue q.q (fun x => { x with pkts := x.pkts ++ [{ sq := x.lastSq + 1, bytes := bs }], lastSq := x.lastSq + 1, ridx := x.ridx + 1#32 })

/-- A packet that cannot be read is counted and passed. -/
def losePkt (s : State) (q : Queue) : State :=
  s.modQueue q.q (fun x => { x with lastSq := x.lastSq + 1, ridx := x.ridx + 1#32, errcnt := x.errcnt + 1#32 })

/-- A queue of the context with an unfetched packet. -/
def unfetched (s : State) (c : Nat) : Option Queue :=
  s.queues.find? (fun (q : Queue) => q.ctx == c && q.q != 0 && q.st == .on && q.ridx != q.widx)

/-- Steps 1 and 2 of R366: frozen, and no band goes on; what a band has released or submitted runs to its return. -/
def freezeCtx (s : State) (c : Nat) : State :=
  let s := s.modCtx c (fun x => { x with frozen := true })
  let s := (s.bands.filter (fun (b : Band) => b.ctx == c)).foldl (fun s b =>
    match b.place with
    | .resident _ | .parked _ | .saved _ => killBand s b.id
    | .killed _ | .ended => s
    | _ => closeBand s b.id) s
  endLaunches s c

/-- Every completion record of the context has been written, and nothing of it runs. -/
def ctxQuiet (s : State) (c : Nat) : Bool :=
  s.launches.all (fun (l : Launch) => l.ctx != c || l.complete) && s.bands.all (fun (b : Band) => b.ctx != c || b.over) &&
    s.queues.all (fun (q : Queue) => q.ctx != c || q.q == 0 || q.pkts.all (fun (p : Pkt) => pktDone s q.q p))

/-- A line of an extent. -/
def Extent.covers (e : Extent) (ctx line : Nat) : Bool := e.ctx == ctx && decide (e.base ≤ line * 128) && decide (line * 128 < e.base + e.len)

/-- Requests that the home has accepted and not performed, on lines that `on` takes. -/
def accepted (s : State) (on : Req → Bool) : Bool :=
  s.reqs.any (fun (r : Req) => r.home == s.dev && r.pdie.isNone && r.arr != 0 && on r)

/-- The remote waiters of a ticket are answered FAILED, stores of peers that the home holds for it too; a ticket that nobody here waits on
ends (R350). -/
def dropRemoteWaiters (s : State) (t : TSlot) : State :=
  let held := s.reqs.filter (fun (r : Req) => r.held == some (ticketId s.dev t.slot t.gen) && (r.who matches .peer _) && (extentRefusal s r).isSome)
  let s := held.foldl (fun s r => s.refuse r 0x85#8) s
  let t' := { t with cores := t.cores.filter (fun w => w.1 == s.dev), bcast := t.bcast.map (fun m => m &&& (1#16 <<< s.dev)) }
  if t'.cores.isEmpty && t'.bcast.all (fun m => m == 0#16) && !heldAtHome s (ticketId s.dev t.slot t.gen) then endTicket s t 0x85#8
  else (tellModules s (ticketId s.dev t.slot t.gen) t.cores t.bcast 0x85#8).setTicket t'

/-- The extents of a context are revoked: later requests through them are refused (R350, R366). Their forfeit logs stay to be read. -/
def revokeAll (s : State) (c : Nat) : State :=
  { s with extents := s.extents.map (fun (e : Extent) => if e.ctx == c then { e with revoked := true } else e) }

/-- Step 4 of R366, when no copy is left and every access that the home has accepted is performed. -/
def eraseCtx (s : State) (c : Nat) : State :=
  let mine := s.pages.filter (fun (p : Page) => p.ctx == c)
  let s := (s.tslots.filter (fun (t : TSlot) => t.used && t.ctx == c && s.extents.any (fun (e : Extent) => e.covers c (t.page * 512)))).foldl dropRemoteWaiters s
  let s := (s.tslots.filter (fun (t : TSlot) => t.used && t.ctx == c)).foldl (fun s t => endTicket s t 0x82#8) s
  let s := mine.foldl (fun s p =>
    if p.hostres then { s with host := zeroRange s.host (p.frame * 65536) 65536 }
    else (domainsOf (p.rmask ||| p.dropped)).foldl (fun s d => zeroFrame s d p.frame) s) s
  let s := invalSpans s c 0 0
  { s with pages := s.pages.filter (fun (p : Page) => p.ctx != c), waybills := s.waybills.filter (fun (w : Waybill) => w.ctx != c),
           pageCache := s.pageCache.filter (fun x => x.1 != c), allocs := s.allocs.filter (fun (a : Alloc) => a.ctx != c),
           groups := s.groups.filter (fun (g : Group) => g.ctx != c),
           bales := s.bales.filter (fun (b : Bale) => b.ctx != c), bands := s.bands.filter (fun (b : Band) => b.ctx != c),
           launches := s.launches.filter (fun (l : Launch) => l.ctx != c), ctxs := s.ctxs.filter (fun (x : Ctx) => x.id != c),
           queues := s.queues.map (fun (q : Queue) => if q.ctx == c then { q with pkts := [] } else q) }

/-- CTX_DESTROY (R366). -/
def execCtxDestroy (s : State) : Host.Outcome State Fault Refusal :=
  s.cmd 0x02 .ctxDestroy (fun r phase =>
    let c := r.target
    if phase = 0 then
      if (s.ctx? c).isNone then endMgmt s 1 0
      else toPhase { freezeCtx s c with groups := s.groups.map (fun (g : Group) => if g.ctx == c then { g with broken := true } else g) } r 0x02 2 .ctxDestroy
    else if phase = 2 then
      match unfetched s c with
      | some q =>
        match peekVa s c (nextPkt q) 64 with
        | .again s => s.post [.ctxDestroy]
        | .fail s => (losePkt s q).post [.ctxDestroy]
        | .bytes s bs => (takePkt s q bs).post [.ctxDestroy]
      | none =>
        let s := endPackets s c
        if ctxQuiet s c then toPhase (revokeAll s c) r 0x02 3 .ctxDestroy else s.post [.ctxDestroy]
    else
      let es := s.dir.filter (fun (e : DirEnt) => e.ctx == c && !remoteKey e.line)
      if es.isEmpty && !s.txns.any (fun (x : Txn) => x.ctx == c && !remoteKey x.line) && !accepted s (fun q => q.ctx == c) then endMgmt (eraseCtx s c) 0 0
      else (es.foldl (fun s e => s.recall e.ctx e.line 0) s).post [.ctxDestroy])

/-- SPAN_INV (R343). -/
def execSpanInv (s : State) : Host.Outcome State Fault Refusal :=
  s.cmd 0x06 .spanInv (fun r _ => if (s.ctx? r.target).isNone then endMgmt s 1 0 else endMgmt (invalSpans s r.target 0 0) 0 0)

/-! ### LOAD (R352 to R354) -/

/-- A number as 64 bytes. -/
def bytes64 (x : BitVec 512) : List Byte := leBytes 64 x.toNat

/-- A segment of an object: its table entry, its plaintext bundles, its signature. -/
structure ObjSeg where
  seg : Segment
  bounds : List Byte
  meas : BitVec 512
  code : List Byte
  sig : List Byte
  deriving DecidableEq, Repr

/-- The segments of a bale (R352). -/
def objSegs (obj : List Byte) (h : BaleHdr) : List ObjSeg :=
  (List.range h.nseg).map (fun i =>
    let e := (obj.drop (h.tableAt + 96 * i)).take 96
    { seg := { first := field e 0 4, len := field e 4 4, benchb := field e 8 4, benchl := field e 12 4 }, bounds := (e.drop 8).take 8,
      meas := BitVec.ofNat 512 (field e 16 64), code := (obj.drop (h.codeAt.getD i 0)).take (16 * field e 4 4),
      sig := (obj.drop (field e 80 8)).take (field e 88 4) })

/-- The context's signing keys (R344). -/
def signKeys (c : Ctx) : List (List Byte) := (List.range c.nsign).map (fun i => (c.keys.drop (160 + 64 * i)).take 64)

/-- Verify the segments in table order, extending the chain at each (R354): the chain as far as it came, and whether every one
verified. -/
def verifySegs (c : Ctx) : List ObjSeg → BitVec 512 → BitVec 512 × Bool
  | [], chain => (chain, true)
  | g :: gs, chain =>
    let m := Config.shake512 (g.bounds ++ g.code)
    if m = g.meas ∧ (signKeys c).any (fun k => Config.sigVerifies k m g.sig) = true ∧ 1 ≤ g.seg.len ∧ g.seg.len ≤ 4096 then
      verifySegs c gs (Config.shake512 (bytes64 chain ++ bytes64 m))
    else (chain, false)

/-- A bale's code words, four a bundle. -/
def baleWords (gs : List ObjSeg) : SMap (BitVec 32) :=
  gs.foldl (fun m g => (List.range (4 * g.seg.len)).foldl (fun m i =>
    smPut 0#32 m (4 * g.seg.first + i) (BitVec.ofNat 32 (field g.code (4 * i) 4))) m) []

/-- The tags of a bale's blocks (R354). -/
def baleTags (keys : List Byte) (gs : List ObjSeg) : List (Nat × Nat × BitVec 64) :=
  gs.zipIdx.flatMap (fun x => (blocksOf x.1.seg).map (fun (b : Nat × Nat × Nat) =>
    (x.2, b.1, blockTag keys b.2.1 ((List.range 16).flatMap (fun i =>
      sealBundle keys (b.2.1 + i) (if b.2.2 ≤ i then nopBundle else (x.1.code.drop (16 * (b.2.1 - x.1.seg.first + i))).take 16))))))

/-- The domains of a page lie in the mask of its allocation (R20): `none` where they do not. The mask of an allocation that no page service
has shown is free, and holds them (log 80). -/
def State.inAlloc (s : State) (ctx page : Nat) (m : BitVec 8) : Option State :=
  match s.allocs.find? (fun (a : Alloc) => a.ctx == ctx && a.page == page && a.mask != 0#8) with
  | some a => if m &&& ~~~a.mask = 0#8 then some s else none
  | none =>
    some { s with nfree := s.nfree + 1,
                  allocs := s.allocs.filter (fun (a : Alloc) => !(a.ctx == ctx && a.page == page)) ++
                    [{ ctx := ctx, page := page, mask := (Config.freeWord s.nfree).extractLsb' 0 8 ||| m }] }

/-- The pages of a bale are given to the context, where they are free: the serai chooses the address (R354), and for each page a domain
of its allocation's mask (R20). -/
def balePages : Nat → State → Nat → Nat → Option State
  | 0, s, _, _ => some s
  | n + 1, s, ctx, page =>
    let d := (Config.freeWord s.nfree).toNat % 8
    let given := match s.allocs.find? (fun (a : Alloc) => a.ctx == ctx && a.page == page && a.mask != 0#8) with
      | some a => giveIn s ctx page a.mask
      | none => ({ s with nfree := s.nfree + 1 }.inAlloc ctx page (1#8 <<< d)).bind (fun s => givePage s ctx page d (1#8 <<< d))
    given.bind (fun s => balePages n s ctx (page + 1))

/-- The 64 KiB unit at which a bale of `n` pages is placed: an open one, or, where the context has a page there, one above its last
page. -/
def baleAt (s : State) (ctx n : Nat) : Nat :=
  let u := (Config.baleUnit s.nfree).toNat
  if s.pages.any (fun (p : Page) => p.ctx == ctx && decide (u ≤ p.page) && decide (p.page < u + n)) || decide (2 ^ 32 < u + n) then
    (s.pages.filter (fun (p : Page) => p.ctx == ctx)).foldl (fun m p => max m (p.page + 1)) 0
  else u

/-- The ciphertext of a bale: its padding first, which a segment that follows covers (R354). -/
def writeCode (s : State) (ctx base : Nat) (keys : List Byte) (gs : List ObjSeg) : State :=
  let put := fun (s : State) (i : Nat) (plain : List Byte) => s.writeHome ctx (base + 16 * i) (sealBundle keys i plain)
  let pads := gs.flatMap (fun g => (List.range ((g.seg.len + 15) / 16 * 16 - g.seg.len)).map (fun i => g.seg.first + g.seg.len + i))
  let s := pads.foldl (fun s i => put s i nopBundle) s
  gs.foldl (fun s g => (List.range g.seg.len).foldl (fun s i => put s (g.seg.first + i) ((g.code.drop (16 * i)).take 16)) s) s

/-- Place one bale in pages of the context; the bale that it replaces serves until no band of it is left (R354). None where there is no
frame for its pages. -/
def placeBale (s : State) (ctx : Nat) (h : BaleHdr) (gs : List ObjSeg) : Option State :=
  let keys := ((s.ctx? ctx).map (fun (c : Ctx) => c.keys)).getD []
  let top := gs.foldl (fun n g => max n (g.seg.first + (g.seg.len + 15) / 16 * 16)) 0
  let n := (16 * top + 65535) / 65536
  let u := baleAt s ctx n
  let b : Bale :=
    { id := s.nextId, ctx := ctx, code := h.code, base := BitVec.ofNat 64 (u * 65536),
      len := gs.foldl (fun n g => max n (g.seg.first + g.seg.len)) 0, words := baleWords gs, segs := gs.map (fun g => g.seg), entry := h.entry,
      nargs := h.nargs, strings := h.strings, regs := h.regs, bench := h.bench, tiles := h.tiles, bars := h.bars,
      meas := Config.shake512 (gs.flatMap (fun g => bytes64 g.meas)), tags := baleTags keys gs }
  (balePages n { s with nfree := s.nfree + 1 } ctx u).map (fun s =>
    let s := writeCode s ctx (u * 65536) keys gs
    { s with nextId := s.nextId + 1,
             bales := (s.bales.filter (fun (x : Bale) => !(x.ctx == ctx && x.code == h.code) || baleBusy s x.id)).map (fun (x : Bale) =>
               if x.ctx == ctx && x.code == h.code then { x with old := true } else x) ++ [b] })

/-- LOAD (R354): every segment of the wanted bales verifies, or nothing of the object becomes executable. -/
def execLoadObj (s : State) : Host.Outcome State Fault Refusal :=
  s.cmd 0x03 .loadObj (fun r _ =>
    match s.ctx? r.target with
    | none => endMgmt s 1 0
    | some c =>
      match peekVa s 0 (r.arg 8 8) (r.arg 16 8) with
      | .again s => s.post [.loadObj]
      | .fail s => endMgmt s 1 0
      | .bytes s obj =>
        let hs := (Config.objBales obj).filter (fun h => r.arg 24 1 == 0 || h.code == r.arg 24 1)
        let v := verifySegs c (hs.flatMap (objSegs obj)) c.achain
        let s := s.modCtx r.target (fun c => { c with achain := v.1 })
        if hs.isEmpty || !v.2 || hs.any (fun h => decide (h.code < 1) || decide (3 < h.code) || h.nseg == 0 || decide (64 < h.nseg)) then endMgmt s 1 0
        else
          match hs.foldl (fun (o : Option State) h => o.bind (fun s => placeBale s r.target h (objSegs obj h))) (some s) with
          | some s => endMgmt s 0 0
          | none => endMgmt s 3 0)

/-- PREEMPT (R213, R343): a request names a resident band of a launch. -/
def execPreemptCmd (s : State) : Host.Outcome State Fault Refusal :=
  s.cmd 0x04 .preemptCmd (fun r _ =>
    let band := (s.launches.find? (fun (l : Launch) => l.q == r.target && l.sq == r.arg 8 8 && !l.complete)).bind (fun l =>
      s.bands.find? (fun (b : Band) => b.launch == l.id && b.index == r.arg 16 4 && (b.place matches .resident _)))
    match band with
    | some b => endMgmt (s.post [.preemptionRequest b.id]) 0 0
    | none => endMgmt s 1 0)

/-! ### Pages (R307, R344) -/

/-- FRAME of a page in host memory: bits [60:16] of the host address (R305). -/
def hostFrame (r : MgmtRec) : Nat := r.arg 32 8 / 65536 % 2 ^ 45

/-- PAGE map (R344). -/
def execPageMap (s : State) : Host.Outcome State Fault Refusal :=
  s.cmd 0x05 .pageMap (fun r _ =>
    if (s.ctx? r.target).isNone || (s.page? r.target r.page).isSome then endMgmt s 1 0
    else match s.inAlloc r.target r.page (BitVec.ofNat 8 (r.arg 25 1)) with
    | none => endMgmt s 1 0
    | some s =>
    if r.arg 26 1 = 1 then
      let p : Page := { ctx := r.target, page := r.page, hostres := true, prim := (r.arg 24 1), rmask := BitVec.ofNat 8 (r.arg 25 1),
                        frame := hostFrame r }
      endMgmt { s with host := zeroRange s.host (hostFrame r * 65536) 65536, pages := s.pages ++ [p] } 0 0
    else
      match givePage s r.target r.page (r.arg 24 1) (BitVec.ofNat 8 (r.arg 25 1)) with
      | some s => endMgmt s 0 0
      | none => endMgmt s 3 0)

/-- Start a move to a new primary, replica mask and place (R307). -/
def startMove (s : State) (r : MgmtRec) (dst : Nat × BitVec 8 × Bool × Nat) : State :=
  (s.modPage r.target r.page (fun p => { p with mov := true, move := some dst })).post [.pageMoveComplete]

/-- PAGE move (R307): MOV is set and the move begins; a pinned page is never moved. -/
def execPageMove (s : State) : Host.Outcome State Fault Refusal :=
  s.cmd 0x05 .pageMove (fun r _ =>
    match s.page? r.target r.page with
    | none => endMgmt s 1 0
    | some p =>
      let m := BitVec.ofNat 8 (r.arg 25 1)
      if p.pin || p.mov || !p.v then endMgmt s 1 0
      else match s.inAlloc r.target r.page m with
        | none => endMgmt s 1 0
        | some s =>
          if r.arg 26 1 = 1 then startMove s r (r.arg 24 1, m, true, hostFrame r)
          else
            match freeFrame s m with
            | some f => startMove s r (r.arg 24 1, m, false, f)
            | none => endMgmt s 3 0)

/-- PAGE restore replicas (R169): the named domains that were dropped take their copies again, at the page's offset, by a
move (R307), which a pinned page never makes (R305). -/
def execPageRestoreReplicas (s : State) : Host.Outcome State Fault Refusal :=
  s.cmd 0x05 .pageRestoreReplicas (fun r _ =>
    match s.page? r.target r.page with
    | none => endMgmt s 1 0
    | some p => if p.pin || p.mov || !p.v || p.hostres then endMgmt s 1 0
      else
        let m := p.rmask ||| (p.dropped &&& BitVec.ofNat 8 (r.arg 25 1))
        match s.inAlloc r.target r.page m with
        | none => endMgmt s 1 0
        | some s => startMove s r (p.prim, m, false, p.frame))

/-- PAGE pin and unpin (R344). -/
def pinPage (s : State) (r : MgmtRec) (on : Bool) : State :=
  match s.page? r.target r.page with
  | none => endMgmt s 1 0
  | some _ => endMgmt (s.modPage r.target r.page (fun p => { p with pin := on })) 0 0

/-- PAGE pin (R344). -/
def execPagePin (s : State) : Host.Outcome State Fault Refusal := s.cmd 0x05 .pagePin (fun r _ => pinPage s r true)
/-- PAGE unpin (R344). -/
def execPageUnpin (s : State) : Host.Outcome State Fault Refusal := s.cmd 0x05 .pageUnpin (fun r _ => pinPage s r false)

/-- Something that the home accepted on a page, or a copy of one of its lines, is left (R307). -/
def pageBusy (s : State) (ctx page : Nat) : Bool :=
  s.txns.any (fun (x : Txn) => x.ctx == ctx && x.line / 512 == page) || s.dir.any (fun (e : DirEnt) => e.ctx == ctx && e.line / 512 == page) ||
    accepted s (fun r => r.ctx == ctx && r.line / 512 == page)

/-- Copy 64 KiB between places; a damaged line stays damaged. -/
def copyPage (s : State) (src dst : Loc) : State :=
  let bytes := s.readLoc src 65536
  let clean := match dst with
    | .gran a => { s with gran := zeroRange s.gran a 65536,
                          lineFault := s.lineFault.filter (fun (x : Nat × Nat × Bool) => decide (x.1 * 128 < a) || decide (a + 65536 ≤ x.1 * 128)) }
    | .host a => { s with host := zeroRange s.host a 65536 }
  let s := clean.writeLoc dst bytes
  match src, dst with
  | .gran a, .gran b =>
    let bad := s.lineFault.filter (fun (x : Nat × Nat × Bool) => decide (a ≤ x.1 * 128) && decide (x.1 * 128 < a + 65536))
    { s with lineFault := s.lineFault ++ bad.map (fun (x : Nat × Nat × Bool) => (x.1 - a / 128 + b / 128, x.2)) }
  | _, _ => s

/-- PAGE_MOVE_COMPLETE (R307): once nothing of the page is left outside, it is copied to every stack of its mask, its entry rewritten, MOV cleared and the
replay notices sent. -/
def execPageMoveComplete (s : State) : Host.Outcome State Fault Refusal :=
  .next (
    match s.mgmtBusy with
    | some (0x05, r) =>
      match s.page? r.target r.page with
      | none => s
      | some p =>
        match p.move with
        | none => s
        | some (prim, m, host, f) =>
          if pageBusy s r.target r.page then
            ((s.dir.filter (fun (e : DirEnt) => e.ctx == r.target && e.line / 512 == r.page)).foldl (fun s e => s.recall e.ctx e.line 0) s).post [.pageMoveComplete]
          else
            let q := { p with mov := false, move := none, prim := prim, rmask := m, hostres := host, frame := f,
                              dropped := if p.frame = f ∧ p.hostres = false ∧ host = false then p.dropped &&& ~~~m else 0#8 }
            let s := (locOf q 0 :: replicasOf q 0).foldl (fun s l => if l = locOf p 0 then s else copyPage s (locOf p 0) l) s
            let s := s.modPage r.target r.page (fun _ => q)
            endMgmt (endPageTickets s r.target r.page 0#8) 0 0
    | _ => s)

/-! ### Extents (R349, R350) and groups (R275) -/

/-- EXTENT_GRANT (R349). The forfeit log of the extent's number, and its record numbers, go on (R334, R351). -/
def execExtentGrant (s : State) : Host.Outcome State Fault Refusal :=
  s.cmd 0x07 .extentGrant (fun r _ =>
    if s.extents.any (fun (e : Extent) => e.n == r.target && !e.revoked) || (s.ctx? (r.arg 8 2)).isNone then endMgmt s 1 0
    else
      let old := s.extents.find? (fun (x : Extent) => x.n == r.target)
      let e : Extent := { n := r.target, log := (old.map (fun (x : Extent) => x.log)).getD [], logSeq := (old.map (fun (x : Extent) => x.logSeq)).getD 0, ctx := r.arg 8 2, coherent := r.arg 10 1 == 1, base := r.arg 16 8, len := r.arg 24 8,
                          peers := (r.bytesAt 32 (r.arg 11 1)).map (fun b => ((b.extractLsb' 0 4).toNat, b.getLsbD 4, b.getLsbD 5, b.getLsbD 6)) }
      endMgmt { s with extents := s.extents.filter (fun (x : Extent) => x.n != r.target) ++ [e] } 0 0)

/-- A directory entry with a holder on another module. -/
def DirEnt.remote (e : DirEnt) : Bool := e.mods != 0#16 || (e.st.owns && decide (16 ≤ e.owner))

/-- EXTENT_REVOKE (R350). -/
def execExtentRevoke (s : State) : Host.Outcome State Fault Refusal :=
  s.cmd 0x08 .extentRevoke (fun r phase =>
    match s.extents.find? (fun (e : Extent) => e.n == r.target) with
    | none => endMgmt s 1 0
    | some e =>
      if phase = 0 then
        if e.revoked then endMgmt s 1 0
        else toPhase { s with extents := s.extents.map (fun (x : Extent) => if x.n == r.target then { x with revoked := true } else x) } r 0x08 2 .extentRevoke
      else
        let mine := s.dir.filter (fun (d : DirEnt) => e.covers d.ctx d.line && d.remote)
        if mine.isEmpty && !accepted s (fun q => (q.who matches .peer _) && e.covers q.ctx q.line) && !s.txns.any (fun (x : Txn) => e.covers x.ctx x.line && x.await.any (fun h => decide (16 ≤ h))) then
          endMgmt ((s.tslots.filter (fun (t : TSlot) => t.used && e.covers t.ctx (t.page * 512))).foldl dropRemoteWaiters s) 0 0
        else (mine.foldl (fun s d => s.recall d.ctx d.line 0) s).post [.extentRevoke])

/-- COL_SETUP (R275). -/
def execColSetup (s : State) : Host.Outcome State Fault Refusal :=
  s.cmd 0x09 .colSetup (fun r _ =>
    if (s.ctx? r.target).isNone || (s.group? r.target (r.arg 8 1)).isSome then endMgmt s 1 0
    else
      let ms := (r.bytesAt 16 (r.arg 9 1)).map (fun b => ({ m := (b.extractLsb' 4 4).toNat, die := (b.extractLsb' 0 3).toNat } : Member))
      endMgmt { s with groups := s.groups ++ [{ ctx := r.target, id := r.arg 8 1, members := ms }] } 0 0)

/-- COL_DESTROY (R343): every job that has started on the group and not returned ends with COL_GROUP, one that waits in an instance and one
whose instance is complete and that is writing (log 43). -/
def execColDestroy (s : State) : Host.Outcome State Fault Refusal :=
  s.cmd 0x0A .colDestroy (fun r _ =>
    if (s.group? r.target (r.arg 8 1)).isNone then endMgmt s 1 0
    else
      let js := s.jobs.filter (fun (j : Job) => cardKind j.card == 3 && colGroup j.card == r.arg 8 1 && j.started && j.err.isNone && ctxOf s j.b == r.target)
      let s := js.foldl (fun s j => jobFail s j.id 9 0) s
      endMgmt { s with groups := s.groups.filter (fun (g : Group) => !(g.ctx == r.target && g.id == r.arg 8 1)) } 0 0)

/-! ### Logs, quotes, export (R334, R344, R356, R358) -/

/-- The bytes of a forfeit record (R334, R351). -/
def forfeitBytes (f : Forfeit) : List Byte :=
  leBytes 8 f.addr.toNat ++ [BitVec.ofNat 8 f.die, BitVec.ofNat 8 f.st] ++ List.replicate 6 0#8 ++ leBytes 8 f.time.toNat ++ leBytes 8 f.seq

/-- 32 bytes for a record of the error log, whose layout the manual leaves open. -/
def openBytes (i : Nat) : List Byte := (List.range 4).flatMap (fun k => leBytes 8 (Config.freeWord (i + k)).toNat)

/-- LOG_READ (R344): whole records, oldest first, are copied out and cleared. -/
def execLogRead (s : State) : Host.Outcome State Fault Refusal :=
  s.cmd 0x0D .logRead (fun r _ =>
    let room := r.arg 16 4 / 32
    let dst := r.arg 8 8
    if r.target = 0 then
      let n := min room s.errlog.length
      writeOut { s with errlog := s.errlog.drop n, nfree := s.nfree + 4 * n } r 0x0D n .logRead dst ((List.range n).flatMap (fun i => openBytes (s.nfree + 4 * i)))
    else if r.target = 1 then
      let n := min room s.forfeit.length
      writeOut { s with forfeit := s.forfeit.drop n } r 0x0D n .logRead dst ((s.forfeit.take n).flatMap forfeitBytes)
    else
      match s.extents.find? (fun (e : Extent) => e.n == r.target - 0x100) with
      | none => endMgmt s 1 0
      | some e =>
        let n := min room e.log.length
        writeOut { s with extents := s.extents.map (fun (x : Extent) => if x.n == e.n then { x with log := x.log.drop n } else x) } r 0x0D n .logRead dst
          ((e.log.take n).flatMap forfeitBytes))

/-- The bytes of a quote (R356). -/
def quoteBytes (c : Ctx) (nonce : List Byte) : List Byte :=
  let body := bytes64 c.achain ++ leBytes 2 c.id ++ List.replicate 6 0#8 ++ nonce ++ bytes64 Config.firmwareMeas
  let sig := Config.deviceSign body
  body ++ (List.range 29792).map (fun i => sig.getD i 0#8)

/-- QUOTE (R356). -/
def execQuote (s : State) : Host.Outcome State Fault Refusal :=
  s.cmd 0x0E .quote (fun r _ =>
    match s.ctx? r.target with
    | none => endMgmt s 1 0
    | some c => writeOut s r 0x0E 0 .quote (r.arg 40 8) (quoteBytes c (r.bytesAt 8 32)))

/-- The image of a context: its pages in the order of their entries, each line with its present value, then the save areas and parked bands, under its export key
(R222, R358). -/
def exportImage (s : State) (c : Ctx) : List Byte :=
  let key := (c.keys.drop 96).take 64
  let pages := (s.pages.filter (fun (p : Page) => p.ctx == c.id && p.v)).flatMap (fun p =>
    (List.range 512).flatMap (fun i => s.lineNow c.id (p.page * 512 + i)))
  let areas := (s.bands.filter (fun (b : Band) => b.ctx == c.id && (match b.place with | .saved _ | .parked _ => true | _ => false))).flatMap (fun b =>
    (List.range (saveSize b)).map (fun i => Config.saveImage b.id i))
  (pages ++ areas).zipIdx.map (fun x => Config.exportByte key x.2 x.1)

/-- EXPORT (R344, R358): to a buffer in the host, or nothing when it is too short. -/
def execExportCmd (s : State) : Host.Outcome State Fault Refusal :=
  s.cmd 0x0F .exportCmd (fun r _ =>
    match s.ctx? r.target, seraiSpan s 0 (r.arg 8 8) with
    | some c, (s, some e) =>
      let img := exportImage s c
      if entHome e ≠ 16 ∨ r.arg 16 8 < img.length then endMgmt s 1 0 else writeOut s r 0x0F 0 .exportCmd (r.arg 8 8) img
    | _, (s, none) => endMgmt s 1 0
    | none, _ => endMgmt s 1 0)

/-! ### Windows and modes (R57, R338, R340) -/

/-- QUEUE_CFG (R340): the window's fields are set and its indices reset. -/
def execQueueCfg (s : State) : Host.Outcome State Fault Refusal :=
  s.cmd 0x10 .queueCfg (fun r _ =>
    let w := BitVec.ofNat 64 (r.arg 16 8)
    let lg := (w.extractLsb' 0 5).toNat
    let on := decide (4 ≤ lg) && decide (lg ≤ 16)
    let s := if on then givePoll s r.target else { s with polls := s.polls.filter (fun x => x.2.2 != r.target) }
    endMgmt (s.modQueue r.target (fun q =>
      { q with qbase := BitVec.ofNat 64 (r.arg 8 8), ctx := (w.extractLsb' 36 12).toNat, mask := w.extractLsb' 16 10, log2 := lg, widx := 0#32, ridx := 0#32,
               errcnt := 0#32, st := if on then .on else .off })) 0 0)

/-- APERTURE map (R338): the unit's context, plus one, and its first global address. -/
def execApertureMap (s : State) : Host.Outcome State Fault Refusal :=
  s.cmd 0x11 .apertureMap (fun r _ =>
    if (s.ctx? (r.arg 8 2)).isNone then endMgmt s 1 0
    else endMgmt { s with aperture := smPut (0, 0#64) s.aperture r.target (r.arg 8 2 + 1, BitVec.ofNat 64 (r.arg 16 8)) } 0 0)

/-- APERTURE unmap (R338). -/
def execApertureUnmap (s : State) : Host.Outcome State Fault Refusal :=
  s.cmd 0x11 .apertureUnmap (fun r _ => endMgmt { s with aperture := smPut (0, 0#64) s.aperture r.target (0, 0#64) } 0 0)

/-- Set the service mode (R57): start-up is left only once STAGE reads 5. -/
def setMode (s : State) (m : Nat) : State :=
  if s.smode = 1 ∧ s.stage ≠ 5 then endMgmt s 1 0 else endMgmt { s with smode := m } 0 0

/-- SERVICE_MODE normal (R57). -/
def execServiceModeNormal (s : State) : Host.Outcome State Fault Refusal := s.cmd 0x12 .serviceModeNormal (fun _ _ => setMode s 0)
/-- SERVICE_MODE test (R57). -/
def execServiceModeTest (s : State) : Host.Outcome State Fault Refusal := s.cmd 0x12 .serviceModeTest (fun _ _ => setMode s 2)
/-- SERVICE_MODE recovery (R57). -/
def execServiceModeRecovery (s : State) : Host.Outcome State Fault Refusal := s.cmd 0x12 .serviceModeRecovery (fun _ _ => setMode s 3)

end Sys2Proof.Machine
end

