-- ==== Sys2Proof/Machine/HostIf.lean ====
section
/-! DEFINITION. The host and the queues (R338 to R342, R367), module reset (R339), environmental alarms (R359), and `nop`. -/

namespace Sys2Proof.Machine
open Sys2Proof

/-- NOP (R68): nothing. -/
def execNop (s : State) : Host.Outcome State Fault Refusal := s.onHead (fun _ _ => s)

/-! ### Module reset and STATUS (R339) -/

/-- The four executive cores as they start. -/
def bootCores : List Core := freshCores 15 4

/-- The module as module reset finds it again: what lies outside it stays (host memory, the pod, straps, the host's BARs, counters of
the model); `xclk` starts from 0 again (R247). -/
def resetKeeping (s : State) : State :=
  { State.reset with host := s.host, links := s.links.map (fun (l : Link) => { l with out := [], held := [], retraining := false, fails := 0, hbMiss := 0 }),
                     stepping := s.stepping, dev := s.dev, podN := s.podN, nchoice := s.nchoice, bar2 := some (Config.bar2Unit.toNat * 262144),
                     nfree := s.nfree + 1, nextId := s.nextId, nseq := s.nseq, replies := s.replies, agenda := [] }

/-- MODULE_RESET (R57, R339): start-up mode; the boot ROM verifies the executive firmware and starts the four executive cores, or
bring-up fails. Whether the signature holds is open. The firmware's next polling slot starts the training of the sites (log 35). -/
def execModuleReset (s : State) : Host.Outcome State Fault Refusal :=
  .next (
    let k := resetKeeping s
    if Config.freeBool s.nfree then
      { k with stage := 1, cores := bootCores }.post [.pollingSlot 0 0]
    else bringUpFails k)

/-- STATUS_ALARM_CLEAR (R339): a write of 1 clears a bit of ALARM. -/
def execStatusAlarmClear (v : BitVec 4) (s : State) : Host.Outcome State Fault Refusal := .next { s with alarm := s.alarm &&& ~~~v }

/-- STATUS as software reads it (R339). -/
def statusWord (s : State) : Word64 :=
  let dies := s.sites.foldl (fun (m : Nat) (x : Site) => if x.st = .admitted then m + 2 ^ x.die else m) 0
  bitsAt s.alarm.toNat 32 ||| bitsAt dies 20 ||| bitsAt s.fail 12 ||| bitsAt s.smode 4 ||| bitsAt s.stage 0

/-- IDENT (R338). -/
def identWord (s : State) : Word64 := 0x8800#64 ||| bitsAt (s.stepping % 256) 32 ||| bitsAt (s.dev % 16) 40

/-! ### Queues (R340 to R342) -/

/-- WIDX_WRITE (R341): the host writes a queue's WIDX. Queue 0's window is reached by strings with MODE set alone (R343). -/
def execWidxWrite (q : Nat) (v : BitVec 32) (s : State) : Host.Outcome State Fault Refusal :=
  .next (if q = 0 then s else s.setWidx q v)

/-- HOST_REGISTER_WRITE (R340): ignored. -/
def execHostRegisterWrite (_bar _off : Nat) (_v : BitVec 64) (s : State) : Host.Outcome State Fault Refusal := .next s

/-- Packets whose records are written leave the list. -/
def sweepPackets (s : State) (q : Nat) : State :=
  s.modQueue q (fun x => { x with pkts := x.pkts.filter (fun (p : Pkt) => !pktDone s q p) })

/-- A management record is fetched and starts (R343): one with a nonzero zero field, an unknown CODE or bad arguments ends. -/
def startMgmt (s : State) (q : Queue) (bs : List Byte) : State :=
  let code := field bs 0 2
  let r : MgmtRec := { target := field bs 4 4, args := (bs.drop 8).take 48, done := BitVec.ofNat 64 (field bs 56 8), sq := q.lastSq + 1 }
  let s := { takePkt s q bs with mgmtBusy := some (code % 256, r) }
  if field bs 2 2 ≠ 0 ∨ argsOk code r = false then endMgmt s 1 0 else s.post [mgmtEvent code r]

/-- The event of a fetched packet, by its kind (R32, R34). -/
def packetEvent (q sq : Nat) (bs : List Byte) : Instr :=
  match field bs 0 2 with
  | 2 => .signalPacket q sq
  | 3 => .waybillDropPacket q sq
  | _ => .launchPacket q sq

/-- A slot of an executive core's polling table names the queue (R342). -/
def polls (s : State) (core q : Nat) : Bool := s.polls.any (fun x => x.1 == core && x.2.2 == q)

/-- POLLING_SLOT (R254, R342): an executive core reads a queue's WIDX and fetches at most one packet; its `idle` ends. A queue of
a frozen context keeps its contents (R222). Management records run one at a time (R343). During bring-up the core's firmware takes
the next step of R339 instead. -/
def execPollingSlot (core q : Nat) (s : State) : Host.Outcome State Fault Refusal :=
  .next (
    match s.core? 15 core with
    | none => s
    | some c =>
      if s.stage = 1 then startTraining s
      else if s.stage = 4 then startOs s
      else
      let mine := fun (t : Str) => (s.band? t.band).any (fun (b : Band) => b.prof == .executive && b.place == .resident core)
      let s := { s with strs := s.strs.map (fun (t : Str) => if mine t then { t with idleA := false, idleB := false } else t) }
      if c.halted || !polls s core q then s
      else
        let s := sweepPackets s q
        match s.queue? q with
        | none => s
        | some x =>
          if x.st ≠ .on ∨ x.widx = x.ridx then s
          else if 2 ^ x.log2 < x.waiting x.widx then s.modQueue q (fun x => { x with st := QSt.error })
          else if q = 0 then
            if s.mgmtBusy.isSome || !x.pkts.isEmpty then s
            else
              match peekVa s 0 (nextPkt x) 64 with
              | .again s => s.post [.pollingSlot core q]
              | .fail s => losePkt s x
              | .bytes s bs => startMgmt s x bs
          else if (s.ctx? x.ctx).any (fun (k : Ctx) => k.frozen) then s
          else
            match peekVa s x.ctx (nextPkt x) 64 with
            | .again s => s.post [.pollingSlot core q]
            | .fail s => losePkt s x
            | .bytes s bs => (takePkt s x bs).post [packetEvent q (x.lastSq + 1) bs])

/-! ### The host aperture (R338, R367) -/

/-- A posted write of the host through BAR4 is not yet performed: a WIDX that it writes after it waits for it (R341). -/
def hostWriting (s : State) : Bool :=
  s.reqs.any (fun (r : Req) => (r.who matches .host _) && (match r.kind with | .write _ => true | _ => false))

/-- The bytes that a host access covers. -/
def hostLen : HostAcc → Nat
  | .read n => n
  | .write bs => bs.length
  | .fetchAdd z _ | .swap z _ | .cas z _ _ => if z then 8 else 4

/-- A host access that gets no completion. -/
def hostPosted : HostAcc → Bool
  | .write _ => true
  | _ => false

/-- The right that a host access needs (R367). -/
def hostNeed : HostAcc → Word64 → Option Bad
  | .read _ => needR
  | .write _ => needW
  | .fetchAdd .. => needA 0
  | .swap .. => needA 8
  | .cas .. => needA 9

/-- A completion goes back to the host. -/
def State.reply (s : State) (off : Nat) (r : HostReply) : State := { s with replies := s.replies ++ [(off, r)] }

/-- A host access that meets no mapped unit, or that PCIe does not allow: Unsupported Request, or a discarded write. -/
def hostUnsupported (s : State) (off : Nat) (acc : HostAcc) : State := if hostPosted acc then s else s.reply off .unsupported

/-- A host access that its span refuses: Completer Abort, or a discarded write with a record of the context and address. -/
def hostAborted (s : State) (off ctx va : Nat) (acc : HostAcc) : State :=
  if hostPosted acc then s.logErr 0x367 ctx va else s.reply off .abort

/-- An operand of a 4-byte AtomicOp has 32 bits. -/
def hostOperand (z : Bool) (x : Word64) : Word64 := if z then x else x &&& 0xFFFFFFFF#64

/-- The requests of a host access at its home, one for each line. -/
def hostSend (s : State) (off ctx va : Nat) (e : Word64) (acc : HostAcc) : State :=
  let req := fun (at_ line : Nat) (k : ReqKind) =>
    let h := homeOf e (line * 128)
    ({ id := 0, who := .host at_, kind := k, home := h.1, ctx := h.2.1, line := h.2.2 / 128, ty := 5, va := some (ctx, va) } : Req)
  let send := fun (s : State) (r : Req) => s.addReq r (homeEvent s r.home (fun i => Instr.homeRequest i))
  let atom := fun (op : Nat) (z : Bool) (x y : Word64) =>
    send s (req off (va / 128) (.rmw op z [{ lane := 0, a := va, x := hostOperand z x, y := hostOperand z y }]))
  match acc with
  | .read n =>
    (piecesByLine ((List.range n).map (fun i => (i, va + i)))).foldl (fun s x =>
      send s (req (off + ((x.2.head?).map (fun p => p.1)).getD 0) x.1 (.read x.2))) s
  | .write bs =>
    (byLine (bs.zipIdx.map (fun x => ({ a := va + x.2, v := x.1, seq := 0 } : WByte)))).foldl (fun s x => send s (req off x.1 (.write x.2))) s
  | .fetchAdd z x => atom 0 z x 0#64
  | .swap z x => atom 8 z x 0#64
  | .cas z x y => atom 9 z x y

/-- HOST_APERTURE_ACCESS (R338, R339, R367): through a mapped unit, as a string's access of the mapped context. -/
def execHostApertureAccess (off : Nat) (acc : HostAcc) (s : State) : Host.Outcome State Fault Refusal :=
  .next (
    let m := smGet (0, 0#64) s.aperture (off / 2 ^ 21)
    let n := hostLen acc
    let atomic := match acc with | .read _ | .write _ => false | _ => true
    if s.stage ≠ 5 ∨ 2 ^ 36 ≤ off ∨ m.1 = 0 ∨ 2 ^ 21 < off % 2 ^ 21 + n ∨ (atomic = true ∧ off % n ≠ 0) then hostUnsupported s off acc
    else
      let ctx := m.1 - 1
      let va := m.2.toNat + off % 2 ^ 21
      match seraiSpan s ctx va with
      | (s, none) => hostAborted s off ctx va acc
      | (s, some e) => if (hostNeed acc e).isSome then hostAborted s off ctx va acc else hostSend s off ctx va e acc)

/-! ### Environmental alarms (R221, R359) -/

/-- The STATUS.ALARM bit of an alarm. -/
def AlarmKind.bit : AlarmKind → BitVec 4
  | .temperature => 1#4 | .supply => 2#4 | .clock => 4#4 | .tamper => 8#4

/-- A context has pages on a stack, or resident bands on a die (R221). The pages of context 0 lie on every stack (R361). -/
def alarmed (s : State) (onStack : Bool) (site : Nat) (c : Nat) : Bool :=
  if onStack then decide (site < 8) && (c == 0 || s.pages.any (fun (p : Page) => p.ctx == c && p.v && !p.hostres && p.rmask.getLsbD site))
  else s.bands.any (fun (b : Band) => b.ctx == c && b.die == site && (match b.place with | .resident _ | .parked _ => true | _ => false))

/-- ENVIRONMENTAL_ALARM (R221, R359). -/
def execEnvironmentalAlarm (kind : AlarmKind) (onStack : Bool) (site : Nat) (s : State) : Host.Outcome State Fault Refusal :=
  .next (
    let s := { s with alarm := s.alarm ||| AlarmKind.bit kind }
    let s := if kind = .temperature ∧ onStack = false then s.modSite site (fun x => { x with hot := true }) else s
    ((s.ctxs.map (fun (c : Ctx) => c.id)).filter (alarmed s onStack site)).foldl quarantine s)

/-- ALARM_CLEARS (R359): the die's cores leave the forced step. -/
def execAlarmClears (die : Nat) (s : State) : Host.Outcome State Fault Refusal := .next (s.modSite die (fun x => { x with hot := false }))

/-- The step at which a core runs (R29, R359): 0.9 GHz while its die's temperature alarm stands. -/
def coreMhz (s : State) (c : Core) : Nat := if (s.site? c.die).any (fun (x : Site) => x.hot) then 900 else c.mhz

end Sys2Proof.Machine
end

