-- ==== Sys2Proof/Machine/Fabric.lean ====
section
/-! DEFINITION. The fabric's links and peers as this module sees them (R345 to R348, R351). -/

namespace Sys2Proof.Machine
open Sys2Proof

/-! ### Links (R346, R347) -/

/-- FABRIC_LINK_RETRAIN (R346): an earlier retraining of the link has succeeded. -/
def execFabricLinkRetrain (m : Nat) (s : State) : Host.Outcome State Fault Refusal :=
  .next (s.modLink m (fun l => if l.up then { l with retraining := true, fails := 0, skipped := false } else l))

/-- FABRIC_RETRAIN_FAIL (R346, R347): the third in a row takes the link down. -/
def execFabricRetrainFail (m : Nat) (s : State) : Host.Outcome State Fault Refusal :=
  .next (
    match s.link? m with
    | none => s
    | some l =>
      if !(l.up && l.retraining) then s
      else if l.fails < 2 then s.modLink m (fun l => { l with fails := l.fails + 1 })
      else linkDown s m)

/-- FABRIC_LINK_RETRY (R346, R347): a link that is down is up again once one attempt succeeds, and new messages are held until every
relayed one is acknowledged. Relays are chosen anew. -/
def execFabricLinkRetry (m : Nat) (ok : Bool) (s : State) : Host.Outcome State Fault Refusal :=
  .next (
    match s.link? m with
    | none => s
    | some l =>
      if l.up then s
      else if ok && portUp s m then reRelay (s.modLink m (fun l => { l with up := true, retraining := false, fails := 0, relay := none }))
      else reRelay s)

/-! ### Peers (R348, R351) -/

/-- A heartbeat is answered: the peer lives, and has acknowledged some of what was sent to it, how much is open. -/
def beatBack (s : State) (m : Nat) : State :=
  { s with nfree := s.nfree + 1 }.modLink m (fun l => ackSome s.nfree { l with hbMiss := 0 })

/-- A heartbeat is missed; the third in a row makes the peer dead. -/
def beatMissed (s : State) (m : Nat) : State :=
  let n := ((s.link? m).map (fun (l : Link) => l.hbMiss)).getD 0 + 1
  let s := s.modLink m (fun l => { l with hbMiss := n })
  if 3 ≤ n then s.post [.peerDead m] else s

/-- The retraining window of a link is over, and the link trained. -/
def windowOver (s : State) (m : Nat) : State := s.modLink m (fun l => { l with retraining := false, fails := 0, skipped := false })

/-- A heartbeat and what came of it. -/
def beat (s : State) (m : Nat) (answered : Bool) : State := if answered then beatBack s m else beatMissed s m

/-- PEER_HEARTBEAT (R346, R348): the third miss in a row makes the peer dead. A heartbeat that would cross a link in its retraining
window goes through a relay when one exists, and is otherwise neither sent nor counted, and changes nothing; the next one finds the
window over, since heartbeats are 100 µs apart (log 51). -/
def execPeerHeartbeat (m : Nat) (answered : Bool) (s : State) : Host.Outcome State Fault Refusal :=
  .next (
    match s.link? m with
    | none => s
    | some l =>
      if l.dead then s
      else if !l.retraining then beat s m answered
      else if l.skipped then beat (windowOver s m) m answered
      else
        let r := relayFor s m
        let s := r.1.modLink m (fun l => { l with skipped := true })
        if r.2.isSome then beat s m answered
        else if answered then beatBack (windowOver s m) m
        else s)

/-- An extent's forfeit record (R334, R351): a full log of 4,096 drops it, and only SEQ advances. -/
def logExtent (m : Nat) (e : DirEnt) (s : State) (st : Nat) : State :=
  match s.extents.find? (fun (x : Extent) => x.coherent && x.covers e.ctx e.line && x.peers.any (fun p => p.1 == m)) with
  | none => s
  | some x =>
    let r : Forfeit := { addr := BitVec.ofNat 64 (e.ctx * 2 ^ 52 + e.line * 128 % 2 ^ 48), die := 0x80 + m, st := st, time := s.clk, seq := x.logSeq }
    { s with extents := s.extents.map (fun (y : Extent) => if y.n == x.n then
        { y with log := if y.log.length < 4096 then y.log ++ [r] else y.log, logSeq := y.logSeq + 1 } else y) }

/-- The device of a ticket id (R309). -/
def ticketDev (t : BitVec 32) : Nat := (t.extractLsb' 28 4).toNat

/-- The tickets of a module on which strings here wait. -/
def ticketsOf (s : State) (m : Nat) : List (BitVec 32) :=
  let ts := (s.strs.filterMap (fun (t : Str) => match t.wait with | .ticket k => some k | _ => none)) ++ s.reqs.filterMap (fun (r : Req) => r.held)
  (ts.filter (fun k => ticketDev k == m)).eraseDups

/-- PEER_DEAD (R57, R348, R351): requests to it are answered NR_PEER_DEAD, those held on its tickets too, strings parked on its tickets take REMOTE_NEG 5,
collectives abort, its lines are reverted and logged, its own requests go (log 101), and normal mode gives way to recovery. -/
def execPeerDead (m : Nat) (s : State) : Host.Outcome State Fault Refusal :=
  .next (
    if !s.links.any (fun (l : Link) => l.m == m && !l.dead) then s
    else
      let s := reRelay (s.modLink m (fun l => { l with dead := true, out := [], held := [], relay := none }))
      let gone := s.reqs.filter (fun (r : Req) => r.home == m && r.pdie.isNone && m != s.dev)
      let s := { s with reqs := s.reqs.map (fun (r : Req) => if gone.any (fun (x : Req) => x.id == r.id) then { r with held := none, remote := 0 } else r) }
      let s := s.post (gone.map (fun (r : Req) => Instr.negativeReply r.id 5#8))
      let s := s.post ((ticketsOf s m).map (fun k => Instr.replayNotice k 5#8))
      let s := (List.range 8).foldl (fun s d => abortCollectives s m d) s
      let s := { s with reqs := s.reqs.filter (fun (r : Req) => r.who != .peer m) }
      let s := loseHolder s (16 + m) (logExtent m)
      { s with smode := if s.smode = 0 then 3 else s.smode })

/-- PEER_GRANTED_AGAIN (R348): the peer is reset and granted again. -/
def execPeerGrantedAgain (m : Nat) (s : State) : Host.Outcome State Fault Refusal :=
  .next (s.modLink m (fun l => { l with dead := false, hbMiss := 0 }))

end Sys2Proof.Machine
end

