-- ==== Sys2Proof/Machine/Scalar.lean ====
section
/-! DEFINITION. The scalar instructions of majors 0x0C and 0x0D (R240 to R242). -/

namespace Sys2Proof.Machine
open Sys2Proof

/-- Two s sources (R240). -/
def State.scalar2 (s : State) (d a b : SReg) (f : Word64 → Word64 → Word64) : Host.Outcome State Fault Refusal :=
  s.scalarOp d (fun t => f (readS t a.toNat) (readS t b.toNat)) (fun t => joinTags [tagS t a.toNat, tagS t b.toNat])

/-- One s source and an immediate (R242). -/
def State.scalar1 (s : State) (d a : SReg) (f : Word64 → Word64) : Host.Outcome State Fault Refusal :=
  s.scalarOp d (fun t => f (readS t a.toNat)) (fun t => joinTags [tagS t a.toNat])

/-- The tag of an s value in a lane (R290): FULL gives LO, HI with no addend stays HI. -/
def laneTagOf : Tag → Tag → Tag
  | .arg k c .full, _ => .arg k c .lo
  | .arg k c .hi, other => if c = 0#64 then .arg k c .hi else joinTags [.data, other]
  | t, other => joinTags [t, other]

/-- SADD (R240); tags by R290. -/
def execSadd (d a b : SReg) (s : State) : Host.Outcome State Fault Refusal :=
  s.scalarOp d (fun t => readS t a.toNat + readS t b.toNat)
    (fun t => addTag (tagS t a.toNat) (tagS t b.toNat) (readS t a.toNat) (readS t b.toNat))

/-- SSUB (R240); tags by R290. -/
def execSsub (d a b : SReg) (s : State) : Host.Outcome State Fault Refusal :=
  s.scalarOp d (fun t => readS t a.toNat - readS t b.toNat)
    (fun t => subTag (tagS t a.toNat) (tagS t b.toNat) (readS t b.toNat))

/-- SMUL (R240). -/
def execSmul (d a b : SReg) (s : State) : Host.Outcome State Fault Refusal := s.scalar2 d a b (fun x y => x * y)

/-- SAND (R240). -/
def execSand (d a b : SReg) (s : State) : Host.Outcome State Fault Refusal := s.scalar2 d a b (fun x y => x &&& y)

/-- SOR (R240). -/
def execSor (d a b : SReg) (s : State) : Host.Outcome State Fault Refusal := s.scalar2 d a b (fun x y => x ||| y)

/-- SXOR (R240). -/
def execSxor (d a b : SReg) (s : State) : Host.Outcome State Fault Refusal := s.scalar2 d a b (fun x y => x ^^^ y)

/-- SSHL (R240): n = SB[6:0], 0 when n ≥ 64. -/
def execSshl (d a b : SReg) (s : State) : Host.Outcome State Fault Refusal := s.scalar2 d a b (fun x y => x <<< (y.toNat % 128))

/-- SSHR (R240): 0 when n ≥ 64. -/
def execSshr (d a b : SReg) (s : State) : Host.Outcome State Fault Refusal := s.scalar2 d a b (fun x y => x >>> (y.toNat % 128))

/-- SSRA (R240): copies of bit 63 when n ≥ 64. -/
def execSsra (d a b : SReg) (s : State) : Host.Outcome State Fault Refusal :=
  s.scalar2 d a b (fun x y => x.sshiftRight (y.toNat % 128))

/-- SMIN (R240): signed. -/
def execSmin (d a b : SReg) (s : State) : Host.Outcome State Fault Refusal :=
  s.scalar2 d a b (fun x y => if x.toInt ≤ y.toInt then x else y)

/-- SMAX (R240): signed. -/
def execSmax (d a b : SReg) (s : State) : Host.Outcome State Fault Refusal :=
  s.scalar2 d a b (fun x y => if y.toInt ≤ x.toInt then x else y)

/-- RDL (R241): lane SB[4:0] of v[a]; the source lane follows R145. -/
def execRdl (d : SReg) (a : VReg) (b : SReg) (s : State) : Host.Outcome State Fault Refusal :=
  s.scalarOp d (fun t => (readV t a.toNat (srcLane t ((readS t b.toNat).toNat % 32))).zeroExtend 64)
    (fun t => joinTags [tagV t a.toNat (srcLane t ((readS t b.toNat).toNat % 32)), tagS t b.toNat])

/-- WRL (R241): lane SB[4:0] of v[d], when that lane is in the path's mask. -/
def execWrl (d : VReg) (a b : SReg) (s : State) : Host.Outcome State Fault Refusal :=
  s.onHead (fun _ bu =>
    let l := srcLane bu.lat ((readS bu.lat b.toNat).toNat % 32)
    s.writeLanes bu 0#3 d.toNat (if bu.mask.getLsbD l then [l] else []) (fun _ => (readS bu.lat a.toNat).extractLsb' 0 32)
      (fun _ => laneTagOf (tagS bu.lat a.toNat) (tagS bu.lat b.toNat)))

/-- BCS (R241): SA[31:0] in each active lane. -/
def execBcs (g : PReg) (d : VReg) (a : SReg) (s : State) : Host.Outcome State Fault Refusal :=
  s.laneInt g d (fun t _ => (readS t a.toNat).extractLsb' 0 32) (fun t _ => laneTagOf (tagS t a.toNat) .plan)

/-- SPOPC (R240). -/
def execSpopc (d a : SReg) (s : State) : Host.Outcome State Fault Refusal := s.scalar1 d a (fun x => BitVec.ofNat 64 (popCount x))

/-- SCLZ (R240): 64 for zero. -/
def execSclz (d a : SReg) (s : State) : Host.Outcome State Fault Refusal :=
  s.scalar1 d a (fun x => BitVec.ofNat 64 (leadingZeros x))

/-- SADDI (R242); tags by R290. -/
def execSaddi (d a : SReg) (imm : BitVec 13) (s : State) : Host.Outcome State Fault Refusal :=
  s.scalarOp d (fun t => readS t a.toNat + imm.signExtend 64)
    (fun t => addTag (tagS t a.toNat) .plan (readS t a.toNat) (imm.signExtend 64))

/-- SANDI (R242). -/
def execSandi (d a : SReg) (imm : BitVec 13) (s : State) : Host.Outcome State Fault Refusal :=
  s.scalar1 d a (fun x => x &&& imm.signExtend 64)

/-- SORI (R242). -/
def execSori (d a : SReg) (imm : BitVec 13) (s : State) : Host.Outcome State Fault Refusal :=
  s.scalar1 d a (fun x => x ||| imm.signExtend 64)

/-- SSHLI (R242). -/
def execSshli (d a : SReg) (imm : BitVec 13) (s : State) : Host.Outcome State Fault Refusal :=
  s.scalar1 d a (fun x => x <<< imm.toNat)

/-- SSHRI (R242); a shift by 32 of ARG(k, 0, FULL) is ARG(k, 0, HI) (R290). -/
def execSshri (d a : SReg) (imm : BitVec 13) (s : State) : Host.Outcome State Fault Refusal :=
  s.scalarOp d (fun t => readS t a.toNat >>> imm.toNat)
    (fun t =>
      match tagS t a.toNat with
      | .arg k c .full => if imm = 32#13 ∧ c = 0#64 then .arg k c .hi else .data
      | tg => joinTags [tg])

end Sys2Proof.Machine
end

