-- ==== Sys2Proof/Machine/Dispatch.lean ====
section
/-! DEFINITION. The dispatch of instructions and events to their meanings: one arm per constructor of `Instr`. -/

namespace Sys2Proof.Machine
open Sys2Proof

/-- The meaning of one instruction or event. -/
def exec (i : Instr) (s : State) : Host.Outcome State Fault Refusal :=
  match i with
  | .iadd g d a b => Sys2Proof.Machine.execIadd g d a b s
  | .isub g d a b => Sys2Proof.Machine.execIsub g d a b s
  | .imul g d a b => Sys2Proof.Machine.execImul g d a b s
  | .imulhI g d a b => Sys2Proof.Machine.execImulhI g d a b s
  | .imulhN g d a b => Sys2Proof.Machine.execImulhN g d a b s
  | .iminI g d a b => Sys2Proof.Machine.execIminI g d a b s
  | .imaxI g d a b => Sys2Proof.Machine.execImaxI g d a b s
  | .iminN g d a b => Sys2Proof.Machine.execIminN g d a b s
  | .imaxN g d a b => Sys2Proof.Machine.execImaxN g d a b s
  | .iand g d a b => Sys2Proof.Machine.execIand g d a b s
  | .ior g d a b => Sys2Proof.Machine.execIor g d a b s
  | .ixor g d a b => Sys2Proof.Machine.execIxor g d a b s
  | .ishl g d a b => Sys2Proof.Machine.execIshl g d a b s
  | .ishr g d a b => Sys2Proof.Machine.execIshr g d a b s
  | .isra g d a b => Sys2Proof.Machine.execIsra g d a b s
  | .irot g d a b => Sys2Proof.Machine.execIrot g d a b s
  | .iabs g d a => Sys2Proof.Machine.execIabs g d a s
  | .ineg g d a => Sys2Proof.Machine.execIneg g d a s
  | .popc g d a => Sys2Proof.Machine.execPopc g d a s
  | .clz g d a => Sys2Proof.Machine.execClz g d a s
  | .ctz g d a => Sys2Proof.Machine.execCtz g d a s
  | .brev g d a => Sys2Proof.Machine.execBrev g d a s
  | .bfe g d a b => Sys2Proof.Machine.execBfe g d a b s
  | .bfi g d a b => Sys2Proof.Machine.execBfi g d a b s
  | .iaddsI g d a b => Sys2Proof.Machine.execIaddsI g d a b s
  | .isubsI g d a b => Sys2Proof.Machine.execIsubsI g d a b s
  | .iaddsN g d a b => Sys2Proof.Machine.execIaddsN g d a b s
  | .isubsN g d a b => Sys2Proof.Machine.execIsubsN g d a b s
  | .imad g d a b => Sys2Proof.Machine.execImad g d a b s
  | .mov g d a => Sys2Proof.Machine.execMov g d a s
  | .iaddi g d a imm => Sys2Proof.Machine.execIaddi g d a imm s
  | .iandi g d a imm => Sys2Proof.Machine.execIandi g d a imm s
  | .iori g d a imm => Sys2Proof.Machine.execIori g d a imm s
  | .ixori g d a imm => Sys2Proof.Machine.execIxori g d a imm s
  | .ishli g d a imm => Sys2Proof.Machine.execIshli g d a imm s
  | .ishri g d a imm => Sys2Proof.Machine.execIshri g d a imm s
  | .israi g d a imm => Sys2Proof.Machine.execIsrai g d a imm s
  | .imuli g d a imm => Sys2Proof.Machine.execImuli g d a imm s
  | .movk g d imm => Sys2Proof.Machine.execMovk g d imm s
  | .movh g d imm => Sys2Proof.Machine.execMovh g d imm s
  | .movkS d imm => Sys2Proof.Machine.execMovkS d imm s
  | .movhS d imm => Sys2Proof.Machine.execMovhS d imm s
  | .ceq g p a b => Sys2Proof.Machine.execCeq g p a b s
  | .cne g p a b => Sys2Proof.Machine.execCne g p a b s
  | .cltI g p a b => Sys2Proof.Machine.execCltI g p a b s
  | .cleI g p a b => Sys2Proof.Machine.execCleI g p a b s
  | .cltN g p a b => Sys2Proof.Machine.execCltN g p a b s
  | .cleN g p a b => Sys2Proof.Machine.execCleN g p a b s
  | .fceq g p a b => Sys2Proof.Machine.execFceq g p a b s
  | .fcne g p a b => Sys2Proof.Machine.execFcne g p a b s
  | .fclt g p a b => Sys2Proof.Machine.execFclt g p a b s
  | .fcle g p a b => Sys2Proof.Machine.execFcle g p a b s
  | .fcun g p a b => Sys2Proof.Machine.execFcun g p a b s
  | .pand g d a b => Sys2Proof.Machine.execPand g d a b s
  | .por g d a b => Sys2Proof.Machine.execPor g d a b s
  | .pxor g d a b => Sys2Proof.Machine.execPxor g d a b s
  | .pnot g d a => Sys2Proof.Machine.execPnot g d a s
  | .pmov g d a => Sys2Proof.Machine.execPmov g d a s
  | .fadd g d a b => Sys2Proof.Machine.execFadd g d a b s
  | .fsub g d a b => Sys2Proof.Machine.execFsub g d a b s
  | .fmul g d a b => Sys2Proof.Machine.execFmul g d a b s
  | .ffma g d a b => Sys2Proof.Machine.execFfma g d a b s
  | .fmin g d a b => Sys2Proof.Machine.execFmin g d a b s
  | .fmax g d a b => Sys2Proof.Machine.execFmax g d a b s
  | .fabs g d a => Sys2Proof.Machine.execFabs g d a s
  | .fneg g d a => Sys2Proof.Machine.execFneg g d a s
  | .fdiv g d a b la => Sys2Proof.Machine.execFdiv g d a b la s
  | .fsqrt g d a la => Sys2Proof.Machine.execFsqrt g d a la s
  | .ffloor g d a => Sys2Proof.Machine.execFfloor g d a s
  | .fceil g d a => Sys2Proof.Machine.execFceil g d a s
  | .ftrunc g d a => Sys2Proof.Machine.execFtrunc g d a s
  | .fround g d a => Sys2Proof.Machine.execFround g d a s
  | .fcopysign g d a b => Sys2Proof.Machine.execFcopysign g d a b s
  | .hadd2 g d a b hf => Sys2Proof.Machine.execHadd2 g d a b hf s
  | .hsub2 g d a b hf => Sys2Proof.Machine.execHsub2 g d a b hf s
  | .hmul2 g d a b hf => Sys2Proof.Machine.execHmul2 g d a b hf s
  | .hfma2 g d a b hf => Sys2Proof.Machine.execHfma2 g d a b hf s
  | .hmin2 g d a b hf => Sys2Proof.Machine.execHmin2 g d a b hf s
  | .hmax2 g d a b hf => Sys2Proof.Machine.execHmax2 g d a b hf s
  | .hcvt2 g d a b hf => Sys2Proof.Machine.execHcvt2 g d a b hf s
  | .cvt g d a sel => Sys2Proof.Machine.execCvt g d a sel s
  | .cvtSat g d a sel => Sys2Proof.Machine.execCvtSat g d a sel s
  | .cvtEf g d a sel => Sys2Proof.Machine.execCvtEf g d a sel s
  | .cvtPack g d a sel => Sys2Proof.Machine.execCvtPack g d a sel s
  | .dp4I8 g d a b => Sys2Proof.Machine.execDp4I8 g d a b s
  | .dp4N8 g d a b => Sys2Proof.Machine.execDp4N8 g d a b s
  | .dp8I4 g d a b => Sys2Proof.Machine.execDp8I4 g d a b s
  | .dp4E4m3 g d a b => Sys2Proof.Machine.execDp4E4m3 g d a b s
  | .dp4E5m2 g d a b => Sys2Proof.Machine.execDp4E5m2 g d a b s
  | .dp8E2m1 g d a b => Sys2Proof.Machine.execDp8E2m1 g d a b s
  | .fscl g d a b => Sys2Proof.Machine.execFscl g d a b s
  | .shfl g d a b => Sys2Proof.Machine.execShfl g d a b s
  | .shup g d a k => Sys2Proof.Machine.execShup g d a k s
  | .shdn g d a k => Sys2Proof.Machine.execShdn g d a k s
  | .shx g d a k => Sys2Proof.Machine.execShx g d a k s
  | .bcast g d a k => Sys2Proof.Machine.execBcast g d a k s
  | .ballot g d p => Sys2Proof.Machine.execBallot g d p s
  | .vany g q p => Sys2Proof.Machine.execVany g q p s
  | .vall g q p => Sys2Proof.Machine.execVall g q p s
  | .mpfx g d p => Sys2Proof.Machine.execMpfx g d p s
  | .redaddI g d a la => Sys2Proof.Machine.execRedaddI g d a la s
  | .redmaxI g d a la => Sys2Proof.Machine.execRedmaxI g d a la s
  | .redaddF g d a la => Sys2Proof.Machine.execRedaddF g d a la s
  | .redmaxF g d a la => Sys2Proof.Machine.execRedmaxF g d a la s
  | .sadd d a b => Sys2Proof.Machine.execSadd d a b s
  | .ssub d a b => Sys2Proof.Machine.execSsub d a b s
  | .smul d a b => Sys2Proof.Machine.execSmul d a b s
  | .sand d a b => Sys2Proof.Machine.execSand d a b s
  | .sor d a b => Sys2Proof.Machine.execSor d a b s
  | .sxor d a b => Sys2Proof.Machine.execSxor d a b s
  | .sshl d a b => Sys2Proof.Machine.execSshl d a b s
  | .sshr d a b => Sys2Proof.Machine.execSshr d a b s
  | .ssra d a b => Sys2Proof.Machine.execSsra d a b s
  | .smin d a b => Sys2Proof.Machine.execSmin d a b s
  | .smax d a b => Sys2Proof.Machine.execSmax d a b s
  | .rdl d a b => Sys2Proof.Machine.execRdl d a b s
  | .wrl d a b => Sys2Proof.Machine.execWrl d a b s
  | .bcs g d a => Sys2Proof.Machine.execBcs g d a s
  | .spopc d a => Sys2Proof.Machine.execSpopc d a s
  | .sclz d a => Sys2Proof.Machine.execSclz d a s
  | .saddi d a imm => Sys2Proof.Machine.execSaddi d a imm s
  | .sandi d a imm => Sys2Proof.Machine.execSandi d a imm s
  | .sori d a imm => Sys2Proof.Machine.execSori d a imm s
  | .sshli d a imm => Sys2Proof.Machine.execSshli d a imm s
  | .sshri d a imm => Sys2Proof.Machine.execSshri d a imm s
  | .bra g disp => Sys2Proof.Machine.execBra g disp s
  | .call disp => Sys2Proof.Machine.execCall disp s
  | .ret a => Sys2Proof.Machine.execRet a s
  | .brx a => Sys2Proof.Machine.execBrx a s
  | .jtab a b c => Sys2Proof.Machine.execJtab a b c s
  | .exit g => Sys2Proof.Machine.execExit g s
  | .loop a n1 k1 q => Sys2Proof.Machine.execLoop a n1 k1 q s
  | .lquit g => Sys2Proof.Machine.execLquit g s
  | .trap code => Sys2Proof.Machine.execTrap code s
  | .rdx d idx la => Sys2Proof.Machine.execRdx d idx la s
  | .wrx d idx => Sys2Proof.Machine.execWrx d idx s
  | .spinv a b => Sys2Proof.Machine.execSpinv a b s
  | .flush a b => Sys2Proof.Machine.execFlush a b s
  | .inv a b => Sys2Proof.Machine.execInv a b s
  | .hsamp a b => Sys2Proof.Machine.execHsamp a b s
  | .xmask d a => Sys2Proof.Machine.execXmask d a s
  | .ldG g d base vb w ord la off => Sys2Proof.Machine.execLdG g d base vb w ord la off s
  | .stG g d base vb w ord colour off => Sys2Proof.Machine.execStG g d base vb w ord colour off s
  | .ldP g d base vb w ord la off => Sys2Proof.Machine.execLdP g d base vb w ord la off s
  | .stP g d base vb w ord colour off => Sys2Proof.Machine.execStP g d base vb w ord colour off s
  | .ldB g d base vb w ord la off => Sys2Proof.Machine.execLdB g d base vb w ord la off s
  | .stB g d base vb w ord colour off => Sys2Proof.Machine.execStB g d base vb w ord colour off s
  | .atomG g d base vb op ord sz ret off => Sys2Proof.Machine.execAtomG g d base vb op ord sz ret off s
  | .atomP g d base vb op ord sz ret off => Sys2Proof.Machine.execAtomP g d base vb op ord sz ret off s
  | .atomB g d base vb op ord sz ret off => Sys2Proof.Machine.execAtomB g d base vb op ord sz ret off s
  | .fenceRel scope mask => Sys2Proof.Machine.execFenceRel scope mask s
  | .fenceAcq scope => Sys2Proof.Machine.execFenceAcq scope s
  | .fenceFull scope => Sys2Proof.Machine.execFenceFull scope s
  | .barArr k => Sys2Proof.Machine.execBarArr k s
  | .barWait k => Sys2Proof.Machine.execBarWait k s
  | .barSync k => Sys2Proof.Machine.execBarSync k s
  | .barCnt k b => Sys2Proof.Machine.execBarCnt k b s
  | .waitcImm p n => Sys2Proof.Machine.execWaitcImm p n s
  | .waitcReg p a => Sys2Proof.Machine.execWaitcReg p a s
  | .put d a b => Sys2Proof.Machine.execPut d a b s
  | .get d a b => Sys2Proof.Machine.execGet d a b s
  | .sig d a => Sys2Proof.Machine.execSig d a s
  | .mload a b => Sys2Proof.Machine.execMload a b s
  | .mmul t a b => Sys2Proof.Machine.execMmul t a b s
  | .mmulz t a b => Sys2Proof.Machine.execMmulz t a b s
  | .mst t a b => Sys2Proof.Machine.execMst t a b s
  | .mclr t => Sys2Proof.Machine.execMclr t s
  | .setrcp r => Sys2Proof.Machine.execSetrcp r s
  | .jobCpy a => Sys2Proof.Machine.execJobCpy a s
  | .jobGth a => Sys2Proof.Machine.execJobGth a s
  | .jobCol a => Sys2Proof.Machine.execJobCol a s
  | .jobMc a => Sys2Proof.Machine.execJobMc a s
  | .jobq d => Sys2Proof.Machine.execJobq d s
  | .wbseal d a b => Sys2Proof.Machine.execWbseal d a b s
  | .wbdrop a => Sys2Proof.Machine.execWbdrop a s
  | .ldarg d k => Sys2Proof.Machine.execLdarg d k s
  | .pollingSlot core q => Sys2Proof.Machine.execPollingSlot core q s
  | .widxWrite q v => Sys2Proof.Machine.execWidxWrite q v s
  | .hostRegisterWrite bar off v => Sys2Proof.Machine.execHostRegisterWrite bar off v s
  | .statusAlarmClear v => Sys2Proof.Machine.execStatusAlarmClear v s
  | .hostApertureAccess off acc => Sys2Proof.Machine.execHostApertureAccess off acc s
  | .launchPacket q sq => Sys2Proof.Machine.execLaunchPacket q sq s
  | .signalPacket q sq => Sys2Proof.Machine.execSignalPacket q sq s
  | .signalPacketComplete q sq => Sys2Proof.Machine.execSignalPacketComplete q sq s
  | .waybillDropPacket q sq => Sys2Proof.Machine.execWaybillDropPacket q sq s
  | .bandDispatch die => Sys2Proof.Machine.execBandDispatch die s
  | .preemptionRequest b => Sys2Proof.Machine.execPreemptionRequest b s
  | .queuedBandResident die core => Sys2Proof.Machine.execQueuedBandResident die core s
  | .stealRequest die core => Sys2Proof.Machine.execStealRequest die core s
  | .stealBackoffExpiry die core => Sys2Proof.Machine.execStealBackoffExpiry die core s
  | .longLatencyResult b n o => Sys2Proof.Machine.execLongLatencyResult b n o s
  | .operationReturn o => Sys2Proof.Machine.execOperationReturn o s
  | .proofPointRelease b n => Sys2Proof.Machine.execProofPointRelease b n s
  | .recipeDelayExpiry b n => Sys2Proof.Machine.execRecipeDelayExpiry b n s
  | .yieldExpiry b n => Sys2Proof.Machine.execYieldExpiry b n s
  | .idleTimeout b n => Sys2Proof.Machine.execIdleTimeout b n s
  | .segmentCopyDone die core bale seg => Sys2Proof.Machine.execSegmentCopyDone die core bale seg s
  | .bandSettle b => Sys2Proof.Machine.execBandSettle b s
  | .xswapExpiry b => Sys2Proof.Machine.execXswapExpiry b s
  | .preemptStopTimeout b n => Sys2Proof.Machine.execPreemptStopTimeout b n s
  | .preemptDeferralExpiry b n => Sys2Proof.Machine.execPreemptDeferralExpiry b n s
  | .bandSave b => Sys2Proof.Machine.execBandSave b s
  | .bandRestore b core macOk => Sys2Proof.Machine.execBandRestore b core macOk s
  | .launchComplete l => Sys2Proof.Machine.execLaunchComplete l s
  | .replayFaultSettle b => Sys2Proof.Machine.execReplayFaultSettle b s
  | .matrixOpStart die core => Sys2Proof.Machine.execMatrixOpStart die core s
  | .matrixOpRetire die core => Sys2Proof.Machine.execMatrixOpRetire die core s
  | .jobStart j => Sys2Proof.Machine.execJobStart j s
  | .jobReturn j => Sys2Proof.Machine.execJobReturn j s
  | .multicastFill j target => Sys2Proof.Machine.execMulticastFill j target s
  | .collectiveInstanceComplete ctx grp k => Sys2Proof.Machine.execCollectiveInstanceComplete ctx grp k s
  | .homeRequest r => Sys2Proof.Machine.execHomeRequest r s
  | .replicaDrop ctx page dom => Sys2Proof.Machine.execReplicaDrop ctx page dom s
  | .pantryVerb r => Sys2Proof.Machine.execPantryVerb r s
  | .nrNopage r ticket => Sys2Proof.Machine.execNrNopage r ticket s
  | .negativeReply r code => Sys2Proof.Machine.execNegativeReply r code s
  | .ticketRetryExpiry b n => Sys2Proof.Machine.execTicketRetryExpiry b n s
  | .pageServiceDone slot code => Sys2Proof.Machine.execPageServiceDone slot code s
  | .replayNotice ticket code => Sys2Proof.Machine.execReplayNotice ticket code s
  | .gets r => Sys2Proof.Machine.execGets r s
  | .getm r => Sys2Proof.Machine.execGetm r s
  | .upg r => Sys2Proof.Machine.execUpg r s
  | .putm die ctx line => Sys2Proof.Machine.execPutm die ctx line s
  | .puto die ctx line => Sys2Proof.Machine.execPuto die ctx line s
  | .fwdgets die ctx line => Sys2Proof.Machine.execFwdgets die ctx line s
  | .fwdgetm die ctx line => Sys2Proof.Machine.execFwdgetm die ctx line s
  | .backinv die ctx line => Sys2Proof.Machine.execBackinv die ctx line s
  | .invack die ctx line dirty => Sys2Proof.Machine.execInvack die ctx line dirty s
  | .dataMsg r payload => Sys2Proof.Machine.execDataMsg r payload s
  | .heartbeatMiss die => Sys2Proof.Machine.execHeartbeatMiss die s
  | .linkStepInterval die util => Sys2Proof.Machine.execLinkStepInterval die util s
  | .retrainDone die ok => Sys2Proof.Machine.execRetrainDone die ok s
  | .linkTrained die => Sys2Proof.Machine.execLinkTrained die s
  | .trainingTimeout die => Sys2Proof.Machine.execTrainingTimeout die s
  | .capabilityCheck die tab => Sys2Proof.Machine.execCapabilityCheck die tab s
  | .enumerationTimeout die => Sys2Proof.Machine.execEnumerationTimeout die s
  | .peerHeartbeat m answered => Sys2Proof.Machine.execPeerHeartbeat m answered s
  | .peerDead m => Sys2Proof.Machine.execPeerDead m s
  | .fabricLinkRetrain m => Sys2Proof.Machine.execFabricLinkRetrain m s
  | .fabricRetrainFail m => Sys2Proof.Machine.execFabricRetrainFail m s
  | .fabricLinkRetry m ok => Sys2Proof.Machine.execFabricLinkRetry m ok s
  | .environmentalAlarm kind onStack site => Sys2Proof.Machine.execEnvironmentalAlarm kind onStack site s
  | .alarmClears die => Sys2Proof.Machine.execAlarmClears die s
  | .peerGrantedAgain m => Sys2Proof.Machine.execPeerGrantedAgain m s
  | .nop => Sys2Proof.Machine.execNop s
  | .mark => Sys2Proof.Machine.execMark s
  | .join => Sys2Proof.Machine.execJoin s
  | .yield => Sys2Proof.Machine.execYield s
  | .tret => Sys2Proof.Machine.execTret s
  | .idle => Sys2Proof.Machine.execIdle s
  | .gbar => Sys2Proof.Machine.execGbar s
  | .mbatch => Sys2Proof.Machine.execMbatch s
  | .wbrec => Sys2Proof.Machine.execWbrec s
  | .wbend => Sys2Proof.Machine.execWbend s
  | .moduleReset => Sys2Proof.Machine.execModuleReset s
  | .replayBandRecord => Sys2Proof.Machine.execReplayBandRecord s
  | .replayJobRecord => Sys2Proof.Machine.execReplayJobRecord s
  | .replayMatrixRecord => Sys2Proof.Machine.execReplayMatrixRecord s
  | .replayFillRecord => Sys2Proof.Machine.execReplayFillRecord s
  | .replayWaitRecord => Sys2Proof.Machine.execReplayWaitRecord s
  | .replayGbarRecord => Sys2Proof.Machine.execReplayGbarRecord s
  | .heartbeat => Sys2Proof.Machine.execHeartbeat s
  | .dieQuiesceDone => Sys2Proof.Machine.execDieQuiesceDone s
  | .ctxCreate => Sys2Proof.Machine.execCtxCreate s
  | .ctxDestroy => Sys2Proof.Machine.execCtxDestroy s
  | .loadObj => Sys2Proof.Machine.execLoadObj s
  | .preemptCmd => Sys2Proof.Machine.execPreemptCmd s
  | .pageMap => Sys2Proof.Machine.execPageMap s
  | .pageMove => Sys2Proof.Machine.execPageMove s
  | .pagePin => Sys2Proof.Machine.execPagePin s
  | .pageUnpin => Sys2Proof.Machine.execPageUnpin s
  | .pageRestoreReplicas => Sys2Proof.Machine.execPageRestoreReplicas s
  | .spanInv => Sys2Proof.Machine.execSpanInv s
  | .extentGrant => Sys2Proof.Machine.execExtentGrant s
  | .extentRevoke => Sys2Proof.Machine.execExtentRevoke s
  | .colSetup => Sys2Proof.Machine.execColSetup s
  | .colDestroy => Sys2Proof.Machine.execColDestroy s
  | .dieQuiesce => Sys2Proof.Machine.execDieQuiesce s
  | .dieReset => Sys2Proof.Machine.execDieReset s
  | .logRead => Sys2Proof.Machine.execLogRead s
  | .quote => Sys2Proof.Machine.execQuote s
  | .exportCmd => Sys2Proof.Machine.execExportCmd s
  | .queueCfg => Sys2Proof.Machine.execQueueCfg s
  | .apertureMap => Sys2Proof.Machine.execApertureMap s
  | .apertureUnmap => Sys2Proof.Machine.execApertureUnmap s
  | .serviceModeNormal => Sys2Proof.Machine.execServiceModeNormal s
  | .serviceModeTest => Sys2Proof.Machine.execServiceModeTest s
  | .serviceModeRecovery => Sys2Proof.Machine.execServiceModeRecovery s
  | .resettingComplete => Sys2Proof.Machine.execResettingComplete s
  | .pageMoveComplete => Sys2Proof.Machine.execPageMoveComplete s

end Sys2Proof.Machine
end

