-- ==== Sys2Proof/Machine/Issue.lean ====
section
/-! DEFINITION. Fetching and issuing a bundle (R39, R45, R62 to R64, R83 to R88), its proof points (R59, R60, R212, R292,
R293), the wait half of a barrier bundle (R194), where pre-emption stops a string (R213 to R215), and what the module may do
next. -/

namespace Sys2Proof.Machine
open Sys2Proof

/-! ### Fetch and decode -/

/-- What stands at a slot's address. -/
inductive Fetched where
  /-- the tag of its block of 16 bundles does not match (R355) -/
  | tag
  /-- a trap at decode, with its slot (R86, R205) -/
  | trap (c : Cause) (islot : Nat)
  | bundle (b : Bundle)
  deriving DecidableEq, Repr

/-- What the decoder knows of a band. -/
def decCtxOf (bd : Band) (bl : Bale) : DecCtx := { prof := bd.prof, regs := bd.regs, bars := bd.nbars, nargs := bl.nargs }

/-- Word `k` of the bundle at an index. -/
def Bale.word (bl : Bale) (i k : Nat) : BitVec 32 := smGet 0#32 bl.words (4 * i + k)

/-- Decode the bundle at an index for a path of the string: OPCODE first, the forms that R211 and R236 forbid among it, then
ILLEGAL_ORDER (R86). -/
def decodeAt (t : Str) (slotB : Bool) (bd : Band) (bl : Bale) (i : Nat) : Fetched :=
  match decodeForms (decCtxOf bd bl) (bl.word i 0) (bl.word i 1) (bl.word i 2) (bl.word i 3) with
  | .error e => .trap .opcode e.slot
  | .ok b =>
    match b.slots.find? (fun x => contextBad t slotB i x.2) with
    | some x => .trap .opcode x.1
    | none =>
      match b.orderError with
      | some e => .trap .illegalOrder e.slot
      | none => .bundle b

/-- The segment that holds a path's bundle. -/
def segOfPath (s : State) (t : Str) (p : Path) : Option (Frame × Segment) :=
  (s.baleOf t).bind (fun (bl : Bale) => (segOf bl (s.idxOf t p.pc).toNat).map (fun x => ({ meas := bl.meas, seg := x.1 }, x.2)))

/-- The block of a path's bundle stands shut in its frame: its tag did not match (R355). -/
def blockBad (s : State) (t : Str) (p : Path) : Bool :=
  (segOfPath s t p).any (fun x => (s.core? (s.seat t).1 (s.seat t).2).any (fun (c : Core) =>
    c.frames.any (fun f => x.1.same f && f.bad.contains (((s.idxOf t p.pc).toNat - x.2.first) / 16))))

/-- Fetch for a path: an index that is not below the bale's length, or in no segment, raises OPCODE (R224). -/
def fetchAt (s : State) (t : Str) (slotB : Bool) (p : Path) : Fetched :=
  match s.band? t.band, s.baleOf t with
  | some bd, some bl =>
    let i := (s.idxOf t p.pc).toNat
    if p.bad || decide (bl.len ≤ i) || (segOf bl i).isNone then .trap .opcode 0
    else if blockBad s t p then .tag
    else decodeAt t slotB bd bl i
  | _, _ => .trap .opcode 0

/-! ### Readiness (R39, R45, R47, R63) -/

/-- The non-nop slots of a bundle (R47). -/
def countedOf (b : Bundle) : Nat := (b.slots.filter (fun x => x.2 != .nop)).length

/-- A bundle writes an owed destination (R47). -/
def writesDest (b : Bundle) (d : Dest) : Bool :=
  b.slots.any (fun x => x.2.writes.any (fun w =>
    match w, d with
    | .v n, .v r k _ => decide (r ≤ n) && decide (n < r + k)
    | .s n, .s r => n == r
    | _, _ => false))

/-- An owed result must be written before a bundle issues (R47). -/
def mustWrite (b : Bundle) (w : Owed) : Bool := decide (w.left < countedOf b) || writesDest b w.dst

/-- No lookahead holds a bundle back. -/
def owedOk (t : Str) (b : Bundle) : Bool := t.owed.all (fun (w : Owed) => w.val.isSome || !mustWrite b w)

/-- The segment of a path's bundle is in a frame of the core (R63); an executive core runs from its private memory. -/
def segHere (s : State) (t : Str) (p : Path) : Bool :=
  s.profOf t == .executive || p.bad ||
    match segOfPath s t p with
    | none => true
    | some x => (s.core? (s.seat t).1 (s.seat t).2).any (fun (c : Core) => c.frames.any x.1.same)

/-- What held the bundle of a slot back is over (R45). -/
def holdOver (s : State) (t : Str) (b : Bool) (p : Path) : Bool :=
  match if b then t.holdB else t.holdA with
  | .none => true
  | .drain scope q => drainOver s t.band t.num scope q
  | .card a => !cardBusy s t p.mask a s.nseq
  | _ => false

/-- A path may issue from its slot. -/
def slotReady (s : State) (t : Str) (b : Bool) : Bool :=
  match slotOf t b with
  | none => false
  | some p =>
    !suspended t b && !(if b then t.idleB else t.idleA) && holdOver s t b p && segHere s t p &&
      match fetchAt s t b p with
      | .bundle bu => owedOk t bu
      | _ => true

/-- What the string waits for is over. -/
def waitOver (s : State) (t : Str) : Bool :=
  (match t.wait with
   | .none => true
   | .drain scope q => drainOver s t.band t.num scope q
   | _ => false) &&
  (match t.waitX with
   | none => true
   | some o => (s.op? o).all (fun (x : Op) => ackDone s (s.seat t).1 x))

/-- What a string does in its turn. -/
inductive Turn where
  /-- a slot issues its bundle -/
  | slot (b : Bool)
  /-- the wait half of a barrier bundle is over -/
  | pend (p : Pend)
  deriving DecidableEq, Repr

/-- The slot that issues (R39): from two ready ones, the one that did not issue last. A `jtab` whose entries have come issues
next. -/
def slotTurn (s : State) (t : Str) : Option Turn :=
  match t.jt with
  | some (b, _) => if slotReady s t b then some (.slot b) else none
  | none =>
    let first := !t.lastB
    if slotReady s t first then some (.slot first) else if slotReady s t (!first) then some (.slot (!first)) else none

/-- The turn of a string, if it is ready (R45). -/
def turnOf (s : State) (t : Str) : Option Turn :=
  if !t.ended && t.stop != .stopped && !t.yielding && waitOver s t &&
      (s.band? t.band).any (fun (b : Band) => b.place matches .resident _) then
    match pendHere t with
    | some p => if pendDone s t p then some (.pend p) else none
    | none => slotTurn s t
  else none

/-! ### The bundle issues (R63, R64, R84, R86) -/

/-- The string `n` of band `b` heads the run list. -/
def toHead (s : State) (b n : Nat) : State :=
  match s.str? b n with
  | none => s
  | some t => { s with strs := t :: s.strs.filter (fun (u : Str) => !(u.band == b && u.num == n)) }

/-- Owed results that a bundle must find written are written (R47). -/
def writeOwed (b : Bundle) (t : Str) : Str :=
  let due := fun (w : Owed) => w.val.isSome && mustWrite b w
  let u := (t.owed.filter due).foldl commitOwed t
  { u with owed := t.owed.filter (fun w => !due w) }

/-- The segment that a slot entered last. -/
def segEntered (t : Str) (slotB : Bool) : Option Nat := if slotB then t.segB else t.segA

/-- A slot enters a segment (R64): the bounds are loaded, with their undo entries; a control core has none. A path that a slot takes up
inside a segment which that slot had not entered (a split into the other slot, a popped path) counts as an entry, and the bounds
are loaded over what `wrx` wrote (log 71). -/
def enterSegment (bd : Band) (slotB : Bool) (k : Nat) (sg : Segment) (t : Str) : Str :=
  let x := segBounds bd sg
  let t := if bd.prof = .control then t
    else { logUndo (logUndo t (.sys 0x00A t.benchb)) (.sys 0x00B t.benchl) with benchb := x.1, benchl := x.2 }
  if slotB then { t with segB := some k } else { t with segA := some k }

/-- The slot of the head string enters the segment of its bundle, unless it is in it; the segment's frame becomes the one entered last
(R63, R64). -/
def State.enter (s : State) (slotB : Bool) (p : Path) : State :=
  match s.strs with
  | [] => s
  | t :: _ =>
    match s.band? t.band, segOfPath s t p with
    | some bd, some (f, sg) =>
      if bd.prof = .executive ∨ segEntered t slotB = some f.seg then s
      else
        (s.modHead (enterSegment bd slotB f.seg sg)).modCore bd.die (bd.place.core?.getD 0) (fun c =>
          { c with frames := c.frames.filter (fun x => !f.same x) ++ c.frames.filter f.same })
    | _, _ => s

/-- The wait of the head string is over, and of the bundle in one slot; its acknowledged operation is forgotten. -/
def State.unwait (s : State) (b : Bool) : State :=
  match s.strs with
  | [] => s
  | t :: _ =>
    let s := match t.waitX with
      | some o => s.dropOp o
      | none => s
    s.modHead (fun t => { t with wait := .none, waitX := none, holdA := if b then t.holdA else .none, holdB := if b then .none else t.holdB })

/-- The bundle at a path of the head string begins: its operands are latched (R84). -/
def State.startBun (s : State) (slotB : Bool) (p : Path) : State :=
  match s.strs with
  | [] => s
  | t :: _ => { s with bun := some { lat := t, pc := p.pc, slotB := slotB, mask := p.mask, seq := s.nseq, regs := latchRegs s t } }

/-- The bundle has been stopped by one of its slots. -/
def State.stoppedBy (s : State) : Option Nat := s.bun.bind (fun (b : Bun) => if b.ended then some b.islot else none)

/-- Run slots in order until one stops the bundle. -/
def runSlots : List (Nat × Instr) → State → Host.Outcome State Fault Refusal
  | [], s => .next s
  | (k, i) :: rest, s =>
    match exec i (s.modBun (fun (b : Bun) => { b with islot := k })) with
    | .next s' => if (s'.stoppedBy).isSome then .next s' else runSlots rest s'
    | o => o

/-- A tear that a bundle made stands when the bundle is rolled back (R299). -/
def keepTear (b : Nat) (made s : State) : State :=
  if isTorn made b && !isTorn s b then markTear s b (((made.band? b).map (fun (x : Band) => x.tcause)).getD 0) else s

/-- The band of the bundle being issued. -/
def State.bunBand (s : State) : Nat := (s.bun.map (fun (b : Bun) => b.lat.band)).getD 0

/-- Run a bundle from its start. The slots that stand before one that stops it have no effect either (R86), but for a tear (R299). -/
def runBundle (b : Bundle) (s : State) : Host.Outcome State Fault Refusal :=
  match runSlots b.slots s with
  | .next s' =>
    match s'.stoppedBy with
    | none => .next s'
    | some k =>
      match runSlots (b.slots.filter (fun x => x.1 == k)) s with
      | .next r => .next (keepTear s.bunBand s' r)
      | o => o
  | o => o

/-- The buffer or the undo record holds more than its 64 entries (R58, R59 case 5). -/
def overflows (t : Str) : Bool := decide (64 < bufCount t.buf) || decide (64 < t.undo.length)

/-! ### Proof points (R59, R60, R212, R292, R293) -/

/-- A bundle is a proof point of its own (R59, cases 1 to 4 and P). -/
def isProofBundle (b : Bundle) : Bool := b.proof || b.slots.any (fun x => x.2.isProofPoint)

/-- The ENGINE cause that a proof-point bundle delivers (R212). -/
def dueEngine (t : Str) : Option Late := t.late.find? (fun (l : Late) => l.engine && (!l.after || !t.inTrap))

/-- A proof-point bundle that traps leaves an owed ENGINE cause for after `tret` (R212); so does a bundle that traps at its decode, of which
nothing says that it is none (log 74). -/
def putOff (t : Str) : Str := { t with late := t.late.map (fun (l : Late) => if l.engine then { l with after := true } else l) }

/-- The record of a matrix operation (R283) with its patch slots (R284, R292). -/
def mopRecord (lat : Str) (i : Instr) (m : MOp) : List Byte × List Patch :=
  let img := [BitVec.ofNat 8 (0x10 + m.minor), BitVec.ofNat 8 m.tile] ++ leBytes 2 m.rcp.toNat ++ leBytes 4 0 ++ leBytes 8 m.sa.toNat ++
    leBytes 8 m.sb.toNat ++ List.replicate 40 0#8
  let ps := match i with
    | .mload a b | .mmul _ a b | .mmulz _ a b | .mst _ a b => patchOf 8 (tagS lat a.toNat) ++ patchOf 16 (tagS lat b.toNat)
    | _ => []
  (img, ps)

/-- The patch slots of a card's words (R292): the tags of its FILL words. -/
def cardPatches (bd : Band) (at_ : Nat) : List Patch :=
  (List.range 16).flatMap (fun i =>
    match shadowOf bd (at_ / 4 + i) with
    | .fill t => patchOf (4 * i) t
    | _ => [])

/-- The bench words of some ranges. -/
def benchWords (fs : List Foot) : List Nat := (fs.filter (fun (f : Foot) => f.sp == .bench)).flatMap (fun f => wordsOf f.a f.n)

/-- The bench ranges of two regions of a card. -/
def cardBench (c : List Byte) (i : Nat) : List Foot :=
  ((cardRegions c).drop i).take 2 |>.filterMap (fun r => if r.sp = 2 then some { sp := Space.bench, a := r.base, n := r.len } else none)

/-- The WAIT record (R283) with its SAT slot (R284, R292). -/
def waitRecord (p n : Nat) (tag : Tag) : List Byte × List Patch :=
  ([0x20#8, BitVec.ofNat 8 p, 0#8, 0#8] ++ leBytes 4 (min n 255) ++ List.replicate 56 0#8,
   match tag with
   | .arg k c .full => [{ recno := 0, off := 4, part := 3, arg := k, add := c }]
   | t => patchOf 4 t)

/-- A card makes a record when its KIND is one that a record has (R283); another is refused by its engine before any access (R267,
R272), and makes none (log 85). -/
def cardRecorded (c : List Byte) : Bool := decide (1 ≤ field c 0 1 ∧ field c 0 1 ≤ 5)

/-- The commands that a proof-point bundle releases are recorded (R292). -/
def recordBun (b : Bundle) (bu : Bun) (s : State) : State :=
  let bn := bu.lat.band
  if !s.records bn then s
  else
    let i := ((b.slots.find? (fun x => x.2.cls == some .m)).map (fun x => x.2)).getD .nop
    let s := bu.mops.foldl (fun s m =>
      match s.band? bn with
      | none => s
      | some bd =>
        let r := mopRecord bu.lat i m
        let f := mopFeet bd.prof m.minor m.rcp m.sa m.sb bd.bdesc
        let s := s.modBand bn (fun x => { x with recRcp := some (x.recRcp.getD m.rcp) })
        recordCmd s bn bu.lat.wbOpen true r.1 r.2 [] (benchWords f.1) (benchWords f.2)) s
    let s := if bu.batch.isSome then recordCmd (s.modBand bn (fun x => { x with recRcp := some (x.recRcp.getD bu.lat.rcp.seen) })) bn bu.lat.wbOpen true (0x15#8 :: 0#8 :: (leBytes 2 bu.lat.rcp.seen.toNat ++ List.replicate 60 0#8)) [] [] [] [] else s
    let s := bu.jobs.foldl (fun s j =>
      match s.band? bn with
      | none => s
      | some bd => recordCmd s bn bu.lat.wbOpen (cardRecorded j.card) j.card (cardPatches bd j.cardAt) ((List.range 16).map (fun k => j.cardAt / 4 + k))
          (benchWords (cardBench j.card 0)) (benchWords (cardBench j.card 2))) s
    let s := match bu.recWait with
      | some (p, n, tag) => let r := waitRecord p n tag; recordCmd s bn bu.lat.wbOpen true r.1 r.2 [] [] []
      | none => s
    match bu.recSeal, s.band? bn with
    | some _, some bd =>
      if 32 < sealCount s bd.launch + sealsOut s bd.launch then markTear s bn 7
      else if !isTorn s bn && !recordFits s bd.launch then markTear s bn 8
      else s
    | _, _ => s

/-- The commands of a proof-point bundle reach their engines (R60). -/
def submitBun (bu : Bun) (s : State) : State :=
  let s := bu.mops.foldl submitMop s
  let s := bu.jobs.foldl submitJob s
  match bu.batch with
  | some o => closeBatch s bu.lat.band bu.lat.num o
  | none => s

/-- The slot that a bundle's command stands in. -/
def commandSlot (b : Bundle) : Nat := ((b.slots.find? (fun x => x.2.cls == some .m)).map (fun x => x.1)).getD 0

/-- ENGINE is delivered (R212, R278): `jobq` then reads the error. -/
def raiseEngine (pre : State) (bu : Bun) (l : Late) : State :=
  let b := bu.lat.band
  let n := bu.lat.num
  let s := takeTrap pre b n { cause := .engine, detail := l.detail.toNat, bad := l.pc, late := true }
  s.modStr b n (fun t => { t with late := t.late.erase l, jobErr := l.err })

/-! ### Stopping points (R213, R214) -/

/-- The string stops here for a pre-emption request: at a proof point, or, where it runs a loop, at the drain point. A request that
reached it before a trap stands: where the handler masks nothing the string stops at its first proof point there, and a string
that was asked and then traps is not deferred anew (log 74). -/
def stopsAt (t : Str) (loops proof drain : Bool) : Bool :=
  let here := drain || (proof && !loops)
  match t.stop with
  | .asked => here
  | .deferred => here && !tm0 t
  | .late => proof || drain
  | _ => false

/-- The string after a bundle, as a request finds it. -/
def stopCheck (s : State) (b n : Nat) (proof drain : Bool) : State :=
  match s.str? b n with
  | none => s
  | some t =>
    if stopsAt t (s.inLoop t) proof drain then s.modStr b n (fun t => { t with stop := .stopped })
    else if t.stop = .deferred ∧ tm0 t = false then
      (s.modStr b n (fun t => { t with stop := .asked })).post [.preemptStopTimeout b n]
    else s

/-! ### The bundle completes -/

/-- The path moves on, and the end of a loop's pass is taken (R235); the flag is that of a drain point. -/
def stepOver (rec : Bool) (base : Word64) (bu : Bun) (idx : Nat) (t : Str) : Str × Bool :=
  let t := if bu.moved then t else setSlot t bu.slotB (some { pc := bu.next, mask := bu.mask })
  if !bu.moved && t.loop.act && t.loop.slotB == bu.slotB && idx == t.loop.base + 1 + t.loop.n1 then passEnd rec base bu.mask t
  else (t, false)

/-- A bundle of the string has issued: what a full queue or counter held in the other slot is tried again, with the path that stands there now. -/
def retry : Wait → Wait
  | .drain scope q => .drain scope q
  | _ => .none

/-- Lookahead, the recipe delay and the issuing slot move on by one bundle (R39, R47, R114). -/
def countBundle (b : Bundle) (bu : Bun) (t : Str) : Str :=
  let old := fun (w : Owed) => bu.lat.owed.any (fun (x : Owed) => x.o == w.o)
  let t := { t with holdA := retry t.holdA, holdB := retry t.holdB, lastB := bu.slotB, lastPc := bu.pc, owed := t.owed.map (fun (w : Owed) => if old w then { w with left := w.left - countedOf b } else w) }
  rcpExpire (tickRcp (closeOwed t))

/-- A string whose slots and stack are empty has ended (R43), and the launch barrier looks again (R195). -/
def endCheck (s : State) (b n : Nat) : State :=
  match s.str? b n with
  | none => s
  | some t => if atEnd t && !t.ended then gbarBand (s.modStr b n (fun t => { t with ended := true, stop := .none })) b else s

/-- A boundary bundle starts the background copy of the next segment (R63). -/
def prefetch (s : State) (t : Str) (p : Path) : State :=
  match s.baleOf t, segOfPath s t p with
  | some bl, some (f, _) =>
    let g : Frame := { f with seg := f.seg + 1 }
    let (d, c) := s.seat t
    if decide (f.seg + 1 < bl.segs.length) && (s.core? d c).any (fun (k : Core) => !k.frames.any g.same && !k.copies.any g.same) then
      (s.modCore d c (fun k => { k with copies := k.copies ++ [g] })).post [.segmentCopyDone d c bl.id g.seg]
    else s
  | _, _ => s

/-- A proof-point bundle's release (R60): entries, records, commands; then the restart point. -/
def releaseBun (b : Bundle) (bu : Bun) (s : State) : State :=
  submitBun bu (recordBun b bu (releaseEntries s bu.lat.band bu.lat.num))

/-- The wait half of a barrier bundle is left: the slots stand before it until the wait is over (R194). -/
def leavePend (bu : Bun) (bar : Option (Nat × BitVec 16)) (gb : Nat) (t : Str) : Str :=
  let p : Pend := { pc := bu.pc, slotB := bu.slotB, postA := t.slotA, postB := t.slotB, bar := bar, gbar := gb, inTrap := bu.lat.inTrap }
  { t with slotA := bu.lat.slotA, slotB := bu.lat.slotB, pend := p :: t.pend }

/-- The string after a bundle's slots have run: it has moved on, but for a barrier bundle's pass end, which comes with its wait. -/
def movedOn (s : State) (bu : Bun) (t : Str) : Str × Bool :=
  if bu.pend.isSome then ((if bu.moved then t else setSlot t bu.slotB (some { pc := bu.next, mask := bu.mask })), false)
  else stepOver (s.records bu.lat.band) (s.baseOf t) bu (s.idxOf t bu.pc).toNat t

/-- The bundle that has run needs more entries than the buffer or the undo record has, the loop's own included (R59 case 5, R238). -/
def overflowed (s : State) : Bool :=
  match s.bun, s.strs with
  | some bu, t :: _ => overflows (movedOn s bu t).1
  | _, _ => false

/-- A bundle whose slots have all run completes. `pre` is the state at its start. -/
def finishBundle (b : Bundle) (pre s : State) : State :=
  match s.bun, s.strs with
  | some bu, t0 :: _ =>
    let bn := bu.lat.band
    let n := bu.lat.num
    let x := movedOn s bu t0
    let s := s.modHead (fun _ => countBundle b bu x.1)
    let proof := isProofBundle b || x.2
    let s := if b.boundary then prefetch s t0 { pc := bu.pc, mask := bu.mask } else s
    if !proof then stopCheck (endCheck s bn n) bn n false false
    else
      match dueEngine bu.lat with
      | some l => raiseEngine (keepTear bn s pre) bu l
      | none =>
        let r := releaseBun b bu s
        if tornNow pre r bn n then raiseTorn pre r bn n (commandSlot b) bu.pc
        else
          let r := match bu.pend with
            | some (bar, gb) => r.modHead (leavePend bu bar gb)
            | none => r
          let r := r.modHead (fun t => pruneMarks r (proofPoint t r.nseq))
          stopCheck (endCheck r bn n) bn n true x.2
  | _, _ => s

/-- The head string issues a decoded bundle (R84, R86, R59 case 5). -/
def issueBundle (b : Bundle) (slotB : Bool) (p : Path) (s : State) : Host.Outcome State Fault Refusal :=
  let s := ((s.modHead (writeOwed b)).enter slotB p).unwait slotB
  let go := fun (s : State) =>
    let pre := s.startBun slotB p
    match runBundle b pre with
    | .next s' =>
      .next (if (s'.stoppedBy).isSome then
          (match pre.strs with
           | t :: _ => if isProofBundle b && !s'.bun.any (fun (x : Bun) => x.held) then s'.modStr t.band t.num putOff else s'
           | [] => s')
        else finishBundle b pre s')
    | o => o
  match s.strs with
  | [] => .fault .noString
  | t :: _ =>
    match runBundle b (s.startBun slotB p) with
    | .next s' =>
      if (s'.stoppedBy).isNone && overflowed s' && !(t.buf.isEmpty && t.undo.isEmpty) then
        let r := stopCheck (release s t.band t.num) t.band t.num true false
        if (t.wbStrict && !isTorn s t.band && isTorn r t.band) || (r.strs.head?).any (fun (u : Str) => u.stop == .stopped) then .next r else go r
      else go s
    | o => o

/-- The wait half of a barrier bundle is over: the bundle completes, and is a proof point (R59, R194). -/
def finishPend (s : State) (t : Str) (p : Pend) : State :=
  let idx := (s.idxOf t p.pc).toNat
  let b := t.band
  let n := t.num
  let tok := match p.bar with
    | some (k, _) => smPut none t.tok k none
    | none => t.tok
  let u := { t with slotA := p.postA, slotB := p.postB, pend := t.pend.erase p, tok := tok }
  let x := match slotOf u p.slotB with
    | some q => if u.loop.act && u.loop.slotB == p.slotB && idx == u.loop.base + 1 + u.loop.n1 then passEnd (s.records b) (s.baseOf t) q.mask u
      else (u, false)
    | none => (u, false)
  let s := s.modStr b n (fun _ => proofPoint { x.1 with lastB := p.slotB } s.nseq)
  stopCheck (endCheck s b n) b n true x.2

/-- A string takes its turn. -/
def issueTurn (s : State) (t : Str) : Turn → Host.Outcome State Fault Refusal
  | .pend p => .next (finishPend s t p)
  | .slot b =>
    match slotOf t b with
    | none => .next s
    | some p =>
      match fetchAt s t b p with
      | .tag => .next (quarantine s (ctxOf s t.band))
      | .trap c k =>
        let s := takeTrap (toHead s t.band t.num) t.band t.num { cause := c, islot := k, bad := p.pc }
        .next (if (dueEngine t).isSome then s.modStr t.band t.num putOff else s)
      | .bundle bu =>
        match issueBundle bu b p (toHead s t.band t.num) with
        | .next s' => .next { s' with bun := none }
        | o => o

/-- The bundle of a turn cannot issue: tried, it waits for a release, an interlock, a counter, a barrier (R45). -/
def heldBack (s : State) (t : Str) : Turn → Bool
  | .pend _ => false
  | .slot b =>
    match slotOf t b with
    | none => false
    | some p =>
      match fetchAt s t b p with
      | .bundle bu =>
        match issueBundle bu b p (toHead s t.band t.num) with
        | .next s' => s'.bun.any (fun (x : Bun) => x.held)
        | _ => false
      | _ => false

/-! ### The merge stage (R45) -/

/-- The units that a turn demands: V, S, M, X. A bundle that traps at its decode demands none. -/
def demandsOf (s : State) (t : Str) : Turn → Nat × Nat × Nat × Nat
  | .slot b =>
    match (slotOf t b).map (fetchAt s t b) with
    | some (.bundle bu) =>
      let n := fun (c : Cls) => (bu.slots.filter (fun x => x.2.cls == some c)).length
      (n .v, n .s, n .m, n .x)
    | _ => (0, 0, 0, 0)
  | .pend _ => (0, 0, 0, 0)

/-- Two bundles fit the units of a partition: V 2, S 2, M 1, X 2. -/
def unitsFit (x y : Nat × Nat × Nat × Nat) : Bool :=
  decide (x.1 + y.1 ≤ 2) && decide (x.2.1 + y.2.1 ≤ 2) && decide (x.2.2.1 + y.2.2.1 ≤ 1) && decide (x.2.2.2 + y.2.2.2 ≤ 2)

/-- The strings of a partition that are ready to issue, each with its turn. -/
def readyOn (s : State) (d c part : Nat) : List (Str × Turn) :=
  (partStrs s d c part).filterMap (fun t => match turnOf s t with | some (.slot b) => some (t, .slot b) | _ => none)

/-- The first of them at or after the rotating pointer. -/
def primary (s : State) (d c part : Nat) : Option (Str × Turn) :=
  let ptr := ((s.core? d c).map (fun (k : Core) => smGet 0 k.mptr part)).getD 0
  ((List.range 8).map (fun i => (ptr + i) % 8)).findSome? (fun i => (readyOn s d c part).find? (fun x => x.1.rslot == i))

/-- The lowest-numbered other one that can issue and whose demands fit beside the primary's. -/
def secondary (s : State) (d c part : Nat) (p : Str × Turn) : Option (Str × Turn) :=
  (List.range 8).findSome? (fun i => (readyOn s d c part).find? (fun x =>
    x.1.rslot == i && i != p.1.rslot && unitsFit (demandsOf s p.1 p.2) (demandsOf s x.1 x.2) && !heldBack s x.1 x.2))

/-- A string that the merge stage has chosen issues, unless what issued before it in the clock has taken its turn from it. -/
def issueChosen (s : State) (x : Str × Turn) : Host.Outcome State Fault Refusal :=
  match s.str? x.1.band x.1.num with
  | none => .next s
  | some t => if turnOf s t = some x.2 then issueTurn s t x.2 else .next s

/-- The primary issues, the pointer moves past it, and the secondary issues beside it. -/
def issuePair (s : State) (d c part : Nat) (p : Str × Turn) : Host.Outcome State Fault Refusal :=
  let s1 := s.modCore d c (fun k => { k with mptr := smPut 0 k.mptr part ((p.1.rslot + 1) % 8) })
  match issueTurn s1 p.1 p.2 with
  | .next s2 =>
    match secondary s d c part p with
    | none => .next s2
    | some x => issueChosen s2 x
  | o => o

/-- A merge stage passes over strings whose bundles turn out not to be ready, which then wait; `fuel` bounds them. -/
def mergeIn : Nat → State → Nat → Nat → Nat → Host.Outcome State Fault Refusal
  | fuel, s, d, c, part =>
    match primary s d c part with
    | none => .next s
    | some p =>
      match fuel with
      | 0 => issuePair s d c part p
      | fuel + 1 =>
        if heldBack s p.1 p.2 then
          match issueTurn s p.1 p.2 with
          | .next s1 => mergeIn fuel s1 d c part
          | o => o
        else issuePair s d c part p

/-- One clock of a partition's merge stage (R45). -/
def mergeClock (s : State) (d c part : Nat) : Host.Outcome State Fault Refusal := mergeIn 16 s d c part

/-- The partitions of the cores. -/
def partitions (s : State) : List (Nat × Nat × Nat) :=
  (s.strs.filterMap (fun (t : Str) => (s.band? t.band).bind (fun (b : Band) =>
    match b.place with
    | .resident c => some (b.die, c, partOf b.prof t.num)
    | _ => none))).eraseDups

/-! ### Channels (R318, R319) -/

/-- The serai as an end of a channel; the dies are 0 to 11. -/
def seraiEnd : Nat := 100

/-- The host as an end of a channel of posted writes (R341). -/
def hostEnd : Nat := 101

/-- Another module as an end of a channel (R345). -/
def moduleEnd (m : Nat) : Nat := 16 + m

/-- The channels of a reply to a request: from its home or from the die that sends it, and from another module over the fabric first. -/
def replyChans (s : State) (r : Req) : List (Nat × Nat × Nat) :=
  if r.die = 15 ∨ (r.who matches .peer _) then []
  else if r.back.isNone ∧ r.pdie.isNone ∧ r.home ≠ s.dev ∧ r.home ≠ 16 ∧ r.remote < 2 then [(moduleEnd r.home, seraiEnd, 1), (seraiEnd, r.die, 1)]
  else [(if r.src = 15 then seraiEnd else r.src, r.die, 1)]

/-- The channel of a request on its way to its home; one that has reached it waits there and travels no more. -/
def requestChans (r : Req) (dst : Nat) : List (Nat × Nat × Nat) :=
  if r.arr ≠ 0 then []
  else match r.who with
    | .peer m => [(moduleEnd m, dst, 0)]
    | _ => if r.die = 15 then [] else [(r.die, dst, 0)]

/-- The channel of a message to a holder: of another module's line it may come from that module (R349). -/
def holderChans (s : State) (d ctx line : Nat) : List (Nat × Nat × Nat) :=
  if remoteKey line && !(s.txn? ctx line).any (fun (x : Txn) => x.await.contains d) then [(moduleEnd (keyModule line), seraiEnd, 2)]
  else [(seraiEnd, d, 2)]

/-- The channels that a message travels on: source, destination, virtual channel (R318, R345). What the serai does for itself travels on
none; heartbeats between modules are under R346 and R348. A message is not cut into flits (log 103). -/
def chansOf (s : State) : Instr → List (Nat × Nat × Nat)
  | .pantryVerb r => match s.req? r with
    | some r => requestChans r (r.pdie.getD 0)
    | none => []
  | .homeRequest r | .gets r | .getm r | .upg r => match s.req? r with
    | some r => requestChans r seraiEnd
    | none => []
  | .putm d c l | .puto d c l => if (s.lineAt d c l).any (fun (x : CLine) => x.arr != 0) then [] else [(d, seraiEnd, 0)]
  | .multicastFill j b => match s.job? j with
    | some j => match (s.band? j.b).bind (fun (bd : Band) => s.launch? bd.launch) with
      | some l => [(j.die, bandDie l b, 0)]
      | none => []
    | none => []
  | .dataMsg r _ | .negativeReply r _ | .nrNopage r _ => match s.req? r with
    | some r => replyChans s r
    | none => []
  | .fwdgets d c l | .fwdgetm d c l | .backinv d c l => holderChans s d c l
  | .invack d _ _ _ => [(d, seraiEnd, 2)]
  | .replayNotice t _ =>
    (if ticketDev t = s.dev then [] else [(moduleEnd (ticketDev t), seraiEnd, 2)]) ++
      ((((s.cores.filter (noticeFor s t)).map (fun (c : Core) => c.die)).filter (fun d => d != 15)).eraseDups).map (fun d => (seraiEnd, d, 2))
  | .capabilityCheck d _ => [(d, seraiEnd, 3)]
  | .linkStepInterval d _ => [(seraiEnd, d, 3)]
  | .heartbeat => (s.sites.filter Site.beats).map (fun (x : Site) => (seraiEnd, x.die, 3))
  | .dieQuiesce | .dieReset => [(seraiEnd, mgmtDie s, 3)]
  | .dieQuiesceDone => [(mgmtDie s, seraiEnd, 3)]
  | .widxWrite .. => [(hostEnd, seraiEnd, 0)]
  | .hostApertureAccess _ a => if hostPosted a then [(hostEnd, seraiEnd, 0)] else []
  | _ => []

/-- A channel of a site whose link is in its retraining window holds its traffic (R336), and so does every channel of a fabric link that
retrains (R346). -/
def chanHeld (s : State) (c : Nat × Nat × Nat) : Bool :=
  s.sites.any (fun (x : Site) => x.retraining.isSome && (x.die == c.1 || x.die == c.2.1)) ||
    s.links.any (fun (l : Link) => l.up && l.retraining && (moduleEnd l.m == c.1 || moduleEnd l.m == c.2.1))

/-- An event that waits for something else than its turn: the host's write of a WIDX, for the posted writes before it (R341). -/
def eventHeld (s : State) : Instr → Bool
  | .widxWrite .. => hostWriting s
  | _ => false

/-- The events that may be taken: a message only when no earlier one of its channels stands before it, and none of them is held. -/
def takeable (s : State) : List Instr → Nat → List (Nat × Nat × Nat) → List (Nat × Instr)
  | [], _, _ => []
  | i :: is, k, seen =>
    let cs := chansOf s i
    let rest := takeable s is (k + 1) (cs ++ seen)
    if cs.any (fun c => seen.contains c || chanHeld s c) || eventHeld s i then rest else (k, i) :: rest

/-- The messages on their way to a die on its channel of recalls, notices and acknowledgements. -/
def vc2Of (s : State) (die : Nat) : Nat := (s.agenda.filter (fun i => (chansOf s i).contains (seraiEnd, die, 2))).length

/-- The acknowledgement that a string waits for: it leaves the serai when the last write-back is performed, behind the messages that are on
their way to its die (R318, R319). -/
def sendAck (s : State) (t : Str) : State :=
  let d := (s.seat t).1
  match t.waitX.bind s.op? with
  | none => s
  | some o =>
    match o.behind with
    | none => if putsDone s d o then s.modOp o.id (fun x => { x with behind := some (vc2Of s d) }) else s
    | some n => if vc2Of s d < n then s.modOp o.id (fun x => { x with behind := some (vc2Of s d) }) else s

/-- A message is delivered: an acknowledgement of its channel that was sent after it stands behind one fewer. -/
def passAck (cs : List (Nat × Nat × Nat)) (s : State) (t : Str) : State :=
  if cs.contains (seraiEnd, (s.seat t).1, 2) then
    match t.waitX with
    | some o => s.modOp o (fun x => { x with behind := x.behind.map (· - 1) })
    | none => s
  else s

/-! ### What follows every act -/

/-- Start a copy of a segment that a slot needs and no frame holds (R63). -/
def demand (s : State) (t : Str) (b : Bool) : State :=
  match slotOf t b with
  | none => s
  | some p =>
    if suspended t b || segHere s t p then s
    else
      match segOfPath s t p with
      | none => s
      | some (f, _) =>
        let (d, c) := s.seat t
        match s.baleOf t with
        | some bl =>
          if (s.core? d c).any (fun (k : Core) => !k.copies.any f.same) then
            (s.modCore d c (fun k => { k with copies := k.copies ++ [f] })).post [.segmentCopyDone d c bl.id f.seg]
          else s
        | none => s

/-- The segments that the slots of a live resident string need. -/
def demandStr (s : State) (t : Str) : State :=
  if !t.ended && (s.band? t.band).any (fun (b : Band) => b.place matches .resident _) then demand (demand s t false) t true else s

/-- A string that a request has reached and that comes to wait stops at once (R213, R214). -/
def stopLong (s : State) (t : Str) : State :=
  let asked := t.stop == .asked || t.stop == .deferred || t.stop == .late
  if asked && !t.ended && longWait s t then stopWaiting s t else s

/-- A REMOTE_NEG that was owed until after a handler's `tret` is taken (R212). -/
def lateNeg (s : State) (t : Str) : State :=
  match t.late.find? (fun (l : Late) => !l.engine && l.after) with
  | some l =>
    if t.inTrap || t.ended || !(s.band? t.band).any (fun (b : Band) => b.place matches .resident _) then s
    else takeTrap (s.modStr t.band t.num (fun u => { u with late := u.late.erase l })) t.band t.num
      { cause := .remoteNeg, detail := l.detail.toNat, bad := l.pc, late := true }
  | none => s

/-- A core has a ready string (R45). -/
def coreReady (s : State) (c : Core) : Bool :=
  s.strs.any (fun (t : Str) => (s.band? t.band).any (fun (b : Band) => b.die == c.die && b.place == .resident c.num) && (turnOf s t).isSome)

/-- A core that asks for work in stealing mode (R56). -/
def asksWork (s : State) (c : Core) : Bool :=
  c.bandQ.isEmpty && !c.backoff && s.launches.any (fun (l : Launch) => l.steal && !l.complete && l.dies.contains c.die) &&
    !coreReady s c && !s.agenda.any (fun e => e == .stealRequest c.die c.num)

/-- What follows every act: bands that are over are closed (R43, R296), launches of which only reading jobs are left complete (R175), segments are asked for (R63), late causes are
taken (R212), waiting strings stop (R213), and the clocks of a waiting band (R51) and of an idle core (R56) run. -/
def sweep (s : State) : State :=
  let s := (s.bands.filter (fun (b : Band) => bandOver s b || replayOver s b)).foldl (fun s b => closeBand s b.id) s
  let s := s.strs.foldl demandStr s
  let s := s.strs.foldl sendAck s
  let s := s.strs.foldl lateNeg s
  let s := s.strs.foldl stopLong s
  let done := (s.launches.filter (fun (l : Launch) => !l.complete && launchReads s l && !s.agenda.contains (.launchComplete l.id))).map
    (fun (l : Launch) => Instr.launchComplete l.id)
  let swaps := (s.bands.filter (fun (b : Band) => swapReady s b.id && !s.agenda.any (fun e => e == .xswapExpiry b.id))).map
    (fun (b : Band) => Instr.xswapExpiry b.id)
  let steals := (s.cores.filter (asksWork s)).map (fun (c : Core) => Instr.stealRequest c.die c.num)
  s.post (done ++ swaps ++ steals)

/-! ### The next act -/

/-- What the module may do next: take an event, send an operation or a released entry, go on with one that is being read or written
where it stands, count a read as performed at a scope, finish a barrier bundle whose wait is over, issue the bundles of one clock of a partition, or end the retraining window of a fabric link
that has trained (R346). -/
inductive Act where
  | event (k : Nat) (i : Instr)
  | op (o : Op)
  | more (o : Op)
  | scope (o : Op) (c : Nat)
  | entry (x : Nat × Nat × Entry)
  | pend (t : Str) (p : Pend)
  | merge (d c part : Nat)
  | window (m : Nat)
  deriving DecidableEq, Repr

/-- Every act that is possible. -/
def acts (s : State) : List Act :=
  (takeable s s.agenda 0 []).map (fun x => .event x.1 x.2) ++ (s.ops.filter (opReady s)).map .op ++
    (s.ops.filter (fun (o : Op) => o.sent && !o.todo.isEmpty)).map .more ++
    s.ops.flatMap (fun (o : Op) => ((List.range 4).filter (scopeReady s o)).map (.scope o)) ++ (s.rels.filter (entryReady s)).map .entry ++
    s.strs.filterMap (fun (t : Str) => match turnOf s t with | some (.pend p) => some (.pend t p) | _ => none) ++
    ((partitions s).filter (fun x => (primary s x.1 x.2.1 x.2.2).isSome)).map (fun x => .merge x.1 x.2.1 x.2.2) ++
    (s.links.filter (fun (l : Link) => l.up && l.retraining && !s.agenda.contains (.fabricRetrainFail l.m))).map (fun (l : Link) => .window l.m)

/-- Perform an act. -/
def perform (s : State) : Act → Host.Outcome State Fault Refusal
  | .event k i => exec i (s.strs.foldl (passAck (chansOf s i)) { s with agenda := s.agenda.eraseIdx k })
  | .op o => .next (sendOp s o)
  | .entry x => .next (sendEntry s x)
  | .more o => .next (opMore s o)
  | .scope o c => .next (s.modOp o.id (fun x => { x with vis := max x.vis c }))
  | .pend t p => .next (finishPend s t p)
  | .merge d c part => mergeClock s d c part
  | .window m => .next (windowOver s m)

/-- The clock goes on by some ticks (R247), and what follows an act is done. -/
def settled : Host.Outcome State Fault Refusal → Host.Outcome State Fault Refusal
  | .next s => .next (sweep { s with clk := s.clk + Config.ticks s.nfree, nfree := s.nfree + 1 })
  | o => o

/-- One act of the module: the only one possible, or one of several by a free choice (R5, R45, R161); with none, nothing
happens. -/
def actOnce (s : State) : Host.Outcome State Fault Refusal :=
  match acts s with
  | [] => .next s
  | [a] => settled (perform s a)
  | a :: as => settled (perform { s with nchoice := s.nchoice + 1 } ((a :: as).getD (Config.pick s.nchoice (as.length + 1) % (as.length + 1)) a))

/-! ### An instruction at the next fetch -/

/-- A core that stands on die 0 with segment 0 of a bale in a frame. -/
def bootCore : Core := { die := 0, num := 0, frames := [{ meas := 0#512, seg := 0 }] }

/-- The state with one lane band of one string, resident on core 0 of die 0, whose entry bundle holds the word `w` in slot 0 and
`nop` in the others, and with nothing else that could act before it. -/
def placeWord (s : State) (w : BitVec 32) : State :=
  let i := s.nextId
  let bl : Bale := { id := i, ctx := 0, code := 1, base := 0#64, len := 1, words := if w = 0#32 then [] else [(0, w)],
                     segs := [{ first := 0, len := 1, benchb := 0, benchl := 0 }], nargs := 255 }
  let l : Launch := { id := i + 1, q := 0, sq := 0, ctx := 0, bale := i, code := 1, nstr := 1, regs := 128, nbars := 16, bench := 524288 - 4096,
                      tiles := 48, dies := [0], next := 1 }
  let bd : Band := { id := i + 2, launch := i + 1, index := 0, ctx := 0, die := 0, prof := .lane, regs := 128, nbars := 16,
                     benchBytes := 524288 - 4096, ntiles := 48, bale := i, place := .resident 0, bars := List.replicate 16 { exp := 1 } }
  { s with nextId := i + 3, agenda := [], ops := [], rels := [], bales := s.bales ++ [bl], launches := s.launches ++ [l],
           bands := s.bands ++ [bd], cores := bootCore :: s.cores.filter (fun (c : Core) => !(c.die == 0 && c.num == 0)),
           strs := [{ freshStr bd bl 0 0 s.nseq with rslot := 0 }] }

end Sys2Proof.Machine
end

