-- ==== Sys2Proof/Machine/Step.lean ====
section
/-! DEFINITION. The step of the module, and the placement of one instruction at the next fetch. -/

namespace Sys2Proof.Machine
open Sys2Proof

/-- One step: one act of the module (`actOnce`). -/
def step (s : State) : Host.Outcome State Fault Refusal := actOnce s

/-- The state in which the next step fetches and issues the instruction whose word is `w`: this stands for a launch whose
band has just become resident, since a program comes to run through queues, LOAD and LAUNCH only (R32 to R37, R354). -/
def State.withFetchWord (s : State) (_nbits w : Nat) : State := placeWord s (BitVec.ofNat 32 w)

end Sys2Proof.Machine
end

