-- ==== Sys2Proof/Safety.lean ====
section
/-! DEFINITION. What counts as a safe state and a safe run, and the terms that claims use: reading one byte of a memory, and the
shapes of what a slot instruction does to the string that issues it, with its frame. -/

namespace Sys2Proof.Machine
open Sys2Proof

/-- Every memory stands in its canonical form: the granary, the host's memory, every pantry, every bench. -/
def State.memoriesWf (s : State) : Bool :=
  s.gran.wf && s.host.wf && s.sites.all (fun (x : Site) => x.pantry.wf) && s.bands.all (fun (b : Band) => b.bench.wf)

/-- No string stores a value for s0 or p0: the hard-wired registers have no storage (R82, R240). -/
def State.hardwired (s : State) : Bool :=
  s.strs.all (fun (t : Str) => smGet 0#64 t.sr 0 == 0#64 && smGet 0#32 t.pr 0 == 0#32)

/-- A safe state: canonical memories, hard-wired registers without storage. -/
def State.safe (s : State) : Bool := s.memoriesWf && s.hardwired

/-- An outcome that is no stop. -/
def goesOn (o : Host.Outcome State Fault Refusal) : Bool :=
  match o with
  | .next _ => true
  | _ => false

/-- A run of `k` steps stops nowhere and passes through safe states only. -/
def safeRun : Nat → State → Bool
  | 0, s => s.safe
  | k + 1, s =>
    s.safe &&
      match step s with
      | .next s' => safeRun k s'
      | _ => false

/-! ### Reading memory -/

/-- The memories that hold bytes: the granary, the host's memory, a die's pantry, a band's bench (R21, R7). -/
inductive MemName where
  | granary | host
  | pantry (die : Nat)
  | bench (band : Nat)
  deriving DecidableEq, Repr

/-- One byte of a memory. -/
def State.byteAt (s : State) : MemName → Nat → Byte
  | .granary, a => memGet s.gran a
  | .host, a => memGet s.host a
  | .pantry d, a => ((s.site? d).map (fun (x : Site) => memGet x.pantry a)).getD 0#8
  | .bench b, a => ((s.band? b).map (fun (x : Band) => memGet x.bench a)).getD 0#8

/-- Every byte of every memory reads in `s'` as in `s`. -/
def sameMemory (s s' : State) : Prop := ∀ m a, s'.byteAt m a = s.byteAt m a

/-! ### What a slot instruction does to its string

In each shape `t` heads the run list, `s.bunOf t` is the bundle that issues, with the registers as its slots read them (R84). -/

/-- The lane is one of the active lanes of the guard (R82). -/
def activeLane (bu : Bun) (g : PReg) (l : Nat) : Prop := l < 32 ∧ (activeMask bu g).getLsbD l = true

/-- The v registers of `t'` are those of `t`, but for v[d] in the active lanes, which hold `val`; nothing else of the string
changes but the undo record, which takes at most the entry of v[d] (R58), and origin tags in a recording launch. -/
structure WritesV (s : State) (t t' : Str) (bu : Bun) (g : PReg) (d : Nat) (val : Nat → Word32) : Prop where
  new : ∀ l, activeLane bu g l → readV t' d l = val l
  old : ∀ r l, l < 32 → ¬(r = d ∧ activeLane bu g l) → readV t' r l = readV t r l
  undo : t'.undo = t.undo ∨ t'.undo = undoV t d :: t.undo
  tags : s.records bu.lat.band = false → t'.vtag = t.vtag
  rest : t' = { t with v := t'.v, vtag := t'.vtag, undo := t'.undo }

/-- A value that each lane computes from its word of v[a]. -/
def from1 {α : Type} (a : VReg) (f : Word32 → α) (t : Str) (l : Nat) : α := f (readV t a.toNat l)
/-- A value that each lane computes from its words of v[a] and v[b]. -/
def from2 {α : Type} (a b : VReg) (f : Word32 → Word32 → α) (t : Str) (l : Nat) : α := f (readV t a.toNat l) (readV t b.toNat l)
/-- A value that each lane computes from its words of v[a], v[b] and v[d], in this order. -/
def from3 {α : Type} (a b d : VReg) (f : Word32 → Word32 → Word32 → α) (t : Str) (l : Nat) : α :=
  f (readV t a.toNat l) (readV t b.toNat l) (readV t d.toNat l)
/-- xstat's rounding mode (R102, R246). -/
def modeIn (t : Str) : RMode := rmode (rmOf t).toNat

/-- A lane instruction that sets no flag: it completes, writes `val` to v[d] in its active lanes, and changes nothing else of
the module, no byte of memory among it. -/
def BunLaneResult (i : Instr) (g : PReg) (d : VReg) (val : Bun → Nat → Word32) : Prop :=
  ∀ (s : State) (t : Str) (ts : List Str), s.strs = t :: ts →
    ∃ t', exec i s = .next { s with strs := t' :: ts } ∧
      WritesV s t t' (s.bunOf t) g d.toNat (val (s.bunOf t)) ∧ sameMemory s { s with strs := t' :: ts }

/-- The same for a value that the string's registers give. -/
def LaneResult (i : Instr) (g : PReg) (d : VReg) (val : Str → Nat → Word32) : Prop :=
  BunLaneResult i g d (fun bu => val bu.lat)

/-- The flags that the active lanes of a bundle set together. -/
def laneFlags (bu : Bun) (g : PReg) (fl : Str → Nat → Flags) : Flags :=
  orAll ((lanesOf (activeMask bu g)).map (fun l => (l, fl bu.lat l)))

/-- A lane instruction that sets FP flags, where no flag that it sets has its trap enabled (R105, R210): it completes, writes
`val` to v[d] in its active lanes, and collects its flags in xstat and in the bundle; nothing else changes. -/
def FpResult (i : Instr) (g : PReg) (d : VReg) (val : Str → Nat → FRes) : Prop :=
  ∀ (s : State) (t : Str) (ts : List Str), s.strs = t :: ts →
    fpTraps (s.bunOf t).lat (laneFlags (s.bunOf t) g (fun u l => (val u l).fl)) = 0#5 →
    ∃ t', exec i s = .next { s with strs := t' :: ts, bun := s.bun.map (fun (b : Bun) =>
        { b with flags := b.flags ||| laneFlags (s.bunOf t) g (fun u l => (val u l).fl) }) } ∧
      WritesV s { t with stat := orFlags t.stat (laneFlags (s.bunOf t) g (fun u l => (val u l).fl)) } t' (s.bunOf t) g d.toNat
        (fun l => BitVec.ofNat 32 (val (s.bunOf t).lat l).x) ∧
      sameMemory s { s with strs := t' :: ts }

/-- A narrowing of sixteen lanes to a block (R141), where no flag that it sets has its trap enabled: v[d] takes the element and
v[d+1] the scale word of the lane's block, in the active lanes; nothing else changes but the flags. -/
def NarrowResult (i : Instr) (g : PReg) (d a : VReg) (nb8 fb : Bool) : Prop :=
  ∀ (s : State) (t : Str) (ts : List Str), s.strs = t :: ts →
    let bu := s.bunOf t
    let blk := fun (l : Nat) => groupBlock bu.lat (activeMask bu g) a.toNat (16 * (l / 16)) nb8 fb
    let fl := laneFlags bu g (fun _ l => (blk l).fl)
    fpTraps bu.lat fl = 0#5 →
    ∃ t', exec i s = .next { s with strs := t' :: ts, bun := s.bun.map (fun (b : Bun) => { b with flags := b.flags ||| fl }) } ∧
      (∀ l, activeLane bu g l → readV t' d.toNat l = BitVec.ofInt 32 ((blk l).q.getD (l % 16) 0)) ∧
      (∀ l, activeLane bu g l → readV t' (d.toNat + 1) l = BitVec.ofNat 32 ((blk l).x + 256 * (blk l).micro)) ∧
      (∀ r l, l < 32 → ¬((r = d.toNat ∨ r = d.toNat + 1) ∧ activeLane bu g l) → readV t' r l = readV t r l) ∧
      t' = { t with v := t'.v, vtag := t'.vtag, undo := t'.undo, stat := orFlags t.stat fl } ∧
      sameMemory s { s with strs := t' :: ts }

/-- The p registers of `t'` are those of `t`, but for p[d] in the active lanes, which hold `val`; p0 takes no write (R82). -/
structure WritesP (s : State) (t t' : Str) (bu : Bun) (g : PReg) (d : Nat) (val : Nat → Bool) : Prop where
  new : ∀ l, activeLane bu g l → d ≠ 0 → (readP t' d).getLsbD l = val l
  old : ∀ r l, l < 32 → ¬(r = d ∧ d ≠ 0 ∧ activeLane bu g l) → (readP t' r).getLsbD l = (readP t r).getLsbD l
  tags : s.records bu.lat.band = false → t'.ptag = t.ptag
  rest : t' = { t with pr := t'.pr, ptag := t'.ptag, undo := t'.undo }

/-- An instruction that writes a predicate and sets no flag: it completes and changes nothing else. -/
def BunPredResult (i : Instr) (g d : PReg) (val : Bun → Nat → Bool) : Prop :=
  ∀ (s : State) (t : Str) (ts : List Str), s.strs = t :: ts →
    ∃ t', exec i s = .next { s with strs := t' :: ts } ∧
      WritesP s t t' (s.bunOf t) g d.toNat (val (s.bunOf t)) ∧ sameMemory s { s with strs := t' :: ts }

/-- The same for a value that the string's registers give. -/
def PredResult (i : Instr) (g d : PReg) (val : Str → Nat → Bool) : Prop := BunPredResult i g d (fun bu => val bu.lat)

/-- A float compare, where no flag that it sets has its trap enabled. -/
def FpPredResult (i : Instr) (g d : PReg) (val : Str → Nat → Bool) (fl : Str → Nat → Flags) : Prop :=
  ∀ (s : State) (t : Str) (ts : List Str), s.strs = t :: ts →
    fpTraps (s.bunOf t).lat (laneFlags (s.bunOf t) g fl) = 0#5 →
    ∃ t', exec i s = .next { s with strs := t' :: ts, bun := s.bun.map (fun (b : Bun) =>
        { b with flags := b.flags ||| laneFlags (s.bunOf t) g fl }) } ∧
      WritesP s { t with stat := orFlags t.stat (laneFlags (s.bunOf t) g fl) } t' (s.bunOf t) g d.toNat (val (s.bunOf t).lat) ∧
      sameMemory s { s with strs := t' :: ts }

/-- The s registers of `t'` are those of `t`, but for s[d], which holds `val`; a write to s0 is discarded (R240). -/
structure WritesS (s : State) (t t' : Str) (d : Nat) (val : Word64) : Prop where
  new : d ≠ 0 → readS t' d = val
  old : ∀ r, ¬(r = d ∧ d ≠ 0) → readS t' r = readS t r
  undo : t'.undo = if d = 0 then t.undo else .s d (readS t d) (tagS t d) :: t.undo
  rest : t' = { t with sr := t'.sr, stag := t'.stag, undo := t'.undo }

/-- A scalar instruction: it completes, writes `val` to s[d], and changes nothing else. -/
def ScalarResult (i : Instr) (d : SReg) (val : Str → Word64) : Prop :=
  ∀ (s : State) (t : Str) (ts : List Str), s.strs = t :: ts →
    ∃ t', exec i s = .next { s with strs := t' :: ts } ∧
      WritesS s t t' d.toNat (val (s.bunOf t).lat) ∧ sameMemory s { s with strs := t' :: ts }

/-! ### The string that issues -/

/-- `t` heads the run list and issues the bundle `bu`, whose registers were latched from it (R84). -/
structure Issuing (s : State) (t : Str) (ts : List Str) (bu : Bun) : Prop where
  strs : s.strs = t :: ts
  bun : s.bun = some bu
  band : bu.lat.band = t.band
  num : bu.lat.num = t.num

/-- The state with another head string. -/
def State.withHead (s : State) (t' : Str) (ts : List Str) : State := { s with strs := t' :: ts }

/-- The state with another head string, whose path has moved. -/
def State.withMoved (s : State) (t' : Str) (ts : List Str) (bu : Bun) : State :=
  { s with strs := t' :: ts, bun := some { bu with moved := true } }

/-- A bundle does not tear a recording where it would with `tears` (R293). -/
def noTear (s : State) (bu : Bun) (tears : Bool) : Prop := (tears && s.records bu.lat.band) = false

/-- The release of what the string holds back raises no WAYBILL_TORN: STRICT is not set, or no recording is made (R293). -/
def noTearHeld (s : State) (bu : Bun) : Prop := bu.lat.wbStrict = false ∨ s.records bu.lat.band = false

/-- An FP instruction whose active lanes set a flag with its trap enabled, traps not masked (R105, R210): FP is raised, with the first lane
that sets such a flag and the conditions, and the instruction has no effect of its own. -/
def FpTrap (i : Instr) (g : PReg) (fl : Bun → Nat → Flags) : Prop :=
  ∀ (s : State) (t : Str) (ts : List Str) (bu : Bun), Issuing s t ts bu → tm0 bu.lat = false →
    let en := laneFlags bu g (fun _ l => fl bu l) &&& fen bu.lat
    en ≠ 0#5 →
    exec i s = .next ((takeTrap (s.withHead bu.lat ts) t.band t.num
      { cause := .fp, detail := en.toNat, fpconds := en, islot := bu.islot, bad := bu.pc,
        lane := ((lanesOf (activeMask bu g)).find? (fun l => fl bu l &&& fen bu.lat != 0#5)).getD 0 }).endBun)

/-- The same for results that each lane's registers give. -/
def FpTraps (i : Instr) (g : PReg) (val : Str → Nat → FRes) : Prop := FpTrap i g (fun bu l => (val bu.lat l).fl)

/-- A long-latency lane instruction (R47, R135, R148). With active lanes, and no enabled flag set, it completes: its flags are
collected, v[d] takes its undo entry, and the result of each active lane is owed under the lookahead, its delivery posted. With
no active lane it completes and owes nothing. No byte of memory changes. -/
def LongResult (i : Instr) (g : PReg) (d : VReg) (la : BitVec 4) (val : Str → Word32 → Nat → FRes) : Prop :=
  ∀ (s : State) (t : Str) (ts : List Str) (bu : Bun), Issuing s t ts bu →
    let m := activeMask bu g
    let fl := laneFlags bu g (fun u l => (val u m l).fl)
    (m ≠ 0#32 → fpTraps bu.lat fl = 0#5 →
      ∃ t' op ow, exec i s = .next { s with strs := t' :: ts, bun := some { bu with flags := bu.flags ||| fl }, nextId := s.nextId + 1, nseq := s.nseq + 1, ops := s.ops ++ [op], agenda := s.agenda ++ [.longLatencyResult t.band t.num s.nextId] } ∧
        op.id = s.nextId ∧ op.b = t.band ∧ op.n = t.num ∧ op.fin = true ∧
        op.kind = .calc ((lanesOf m).map (fun l => BitVec.ofNat 64 (val bu.lat m l).x)) ∧
        t'.owed = t.owed ++ [ow] ∧ ow.o = s.nextId ∧ ow.left = la.toNat ∧ ow.dst = .v d.toNat 1 m ∧ ow.val = none ∧
        t'.undo = undoV t d.toNat :: t.undo ∧
        t' = { t with owed := t'.owed, undo := t'.undo, vtag := t'.vtag, stat := orFlags t.stat fl }) ∧
    (m = 0#32 → ∃ t', exec i s = .next (s.withHead t' ts) ∧ WritesV s t t' bu g d.toNat (fun _ => 0#32) ∧ sameMemory s (s.withHead t' ts))

/-! ### Accesses -/

/-- The lanes of an access with the addresses that its base and offset give (R76, R179). -/
def accessLanes (bu : Bun) (g : PReg) (base : BitVec 6) (vb : Bool) (off : BitVec 5) (n : Nat) : List (Nat × Word64) :=
  (lanesOf (activeMask bu g)).map (fun l => (l, laneAddr bu.lat base vb off.toNat n l))

/-- The lanes of an access pass the checks of R181, with the state that the checks leave (span caches filled) and the resolved lanes;
they touch no watchpoint and find their path counters below 255. -/
structure AccessOk (s : State) (t : Str) (bu : Bun) (sp : Space) (n : Nat) (need : Word64 → Option Bad) (ld st : Bool)
    (addrs : List (Nat × Word64)) (s1 : State) (c : Checked) : Prop where
  ok : checkLanes s t bu.lat sp n need addrs {} = (s1, .ok c)
  watch : watchAny s1 t bu.lat (c.lanes.map (fun x => (x.1, sp, ld, st, x.2 % 2 ^ 48, n))) = none
  room : fullPath bu.lat (pathsOf s1 t sp c.lanes) = none

/-- The lanes of a bench access name the addresses of its lanes; those of a global one name them below 2^48, with the span entry that each
lane was translated by above (R303). A pantry address is resolved (R23). -/
def lanesAre (sp : Space) (c : Checked) (addrs : List (Nat × Word64)) : Prop :=
  (sp = .bench → c.lanes = addrs.map (fun x => (x.1, x.2.toNat))) ∧
    (sp = .glob → c.lanes.map (fun x => (x.1, x.2 % 2 ^ 48)) = addrs.map (fun x => (x.1, x.2.toNat)))

/-- The path entries that an operation adds (R49). -/
def counted (s1 : State) (t : Str) (sp : Space) (lanes : List (Nat × Nat)) : List Outst :=
  (pathsOf s1 t sp lanes).map (fun p => { o := s1.nextId, path := p, back := false })

/-- What a load does at issue. -/
def LoadResult (i : Instr) (sp : Space) (g : PReg) (d : VReg) (base : BitVec 6) (vb : Bool) (w : BitVec 3) (ord la : BitVec 4)
    (off : BitVec 5) : Prop :=
  ∀ (s : State) (t : Str) (ts : List Str) (bu : Bun), Issuing s t ts bu →
    let n := widthBytes w
    let addrs := accessLanes bu g base vb off n
    (activeMask bu g = 0#32 → ∃ t', exec i s = .next (s.withHead t' ts) ∧ t' = { t with vtag := t'.vtag, undo := t'.undo } ∧
      sameMemory s (s.withHead t' ts)) ∧
    (activeMask bu g ≠ 0#32 → ∀ s1 c, AccessOk s t bu sp n needR true false addrs s1 c → case6 s1 bu.lat c.ents (laneFeet sp n c.lanes) = false →
      ∃ s2 t' op ow, exec i s = .next s2 ∧ s2.strs.head? = some t' ∧ op ∈ s2.ops ∧ op.id = s1.nextId ∧
        op.kind = .load sp w.toNat d.toNat c.lanes ∧ op.acq = isAcq ord.toNat ∧
        lanesAre sp c addrs ∧
        t'.owed = t.owed ++ [ow] ∧ ow.o = s1.nextId ∧ ow.left = la.toNat ∧ ow.dst = .v d.toNat (widthRegs w) (activeMask bu g) ∧ ow.val = none ∧
        t'.outst = t.outst ++ counted s1 t sp c.lanes ∧
        t' = { t with owed := t'.owed, outst := t'.outst, undo := t'.undo, vtag := t'.vtag, lspan := t'.lspan } ∧ sameMemory s s2)

/-- A withheld store entry of this space holds the byte (R58). -/
def heldByte (es : List Entry) (sp : Space) (x : WByte) : Prop :=
  ∃ e ∈ es, ∃ line colour ord remote bs, e.kind = .store sp line colour ord remote bs ∧ x ∈ bs

/-- The byte is what the instruction writes at its address: of several lanes that write there, the highest's (R153). -/
def lastByte (bs : List WByte) (x : WByte) : Prop := bs.reverse.find? (fun (b : WByte) => b.a == x.a) = some x

/-- What a store does at issue: every byte that it stores is withheld, at the addresses of its lanes; what is withheld already stays,
entry by entry, and a plain store's entry may take some of the new bytes. -/
def StoreResult (i : Instr) (sp : Space) (g : PReg) (d : VReg) (base : BitVec 6) (vb : Bool) (w : BitVec 3) (off : BitVec 5) : Prop :=
  ∀ (s : State) (t : Str) (ts : List Str) (bu : Bun), Issuing s t ts bu →
    let n := widthBytes w
    let addrs := accessLanes bu g base vb off n
    (activeMask bu g = 0#32 → noTear s bu (sp != .bench) → ∃ t', exec i s = .next (s.withHead t' ts) ∧ t' = { t with fills := t'.fills } ∧ sameMemory s (s.withHead t' ts)) ∧
    (activeMask bu g ≠ 0#32 → ∀ s1 c, AccessOk s t bu sp n needW false true addrs s1 c → noTear s1 bu (sp != .bench) →
      ∃ s2 t', exec i s = .next s2 ∧ s2.strs.head? = some t' ∧ t'.outst = t.outst ++ counted s1 t sp c.lanes ∧
        lanesAre sp c addrs ∧
        (∀ (k : Nat) (e : Entry), t.buf[k]? = some e → ∃ e' : Entry, t'.buf[k]? = some e' ∧ e'.id = e.id ∧ (e.plainStore = false → e' = e)) ∧
        ((∀ (sp' : Space) (x : WByte), heldByte t.buf sp' x → x.seq ≠ s1.nseq) →
          ∀ sp' x, heldByte t'.buf sp' x ↔ heldByte t.buf sp' x ∨
            (sp' = sp ∧ lastByte (laneBytes bu.lat d.toNat (widthRegs w) n s1.nseq c.lanes) x)) ∧
        t' = { t with buf := t'.buf, fills := t'.fills, outst := t'.outst, lspan := t'.lspan } ∧ sameMemory s s2)

/-- What an atomic does at issue. -/
def AtomResult (i : Instr) (sp : Space) (g : PReg) (d : VReg) (base : BitVec 6) (vb : Bool) (op : BitVec 4) (sz rt : Bool)
    (off : BitVec 5) : Prop :=
  ∀ (s : State) (t : Str) (ts : List Str) (bu : Bun), Issuing s t ts bu →
    let n := if sz then 8 else 4
    let addrs := accessLanes bu g base vb off n
    (activeMask bu g = 0#32 → noTear s bu (sp != .bench) → ∃ t', exec i s = .next (s.withHead t' ts) ∧ t' = { t with vtag := t'.vtag, undo := t'.undo } ∧
      sameMemory s (s.withHead t' ts)) ∧
    (activeMask bu g ≠ 0#32 → ∀ s1 c, AccessOk s t bu sp n (needA op.toNat) rt true addrs s1 c → noTear s1 bu (sp != .bench) →
      let lanes := c.lanes.map (laneAtom bu.lat d.toNat sz)
      (rt = false → ∃ s2 t' es, exec i s = .next s2 ∧ s2.strs.head? = some t' ∧ t'.buf = t.buf ++ es ∧
        es.map (fun (e : Entry) => match e.kind with | .atom sp' o w8 _ ls => some (sp', o, w8, ls) | _ => none) =
          (atomLines c.ents sp lanes).map (fun x => some (sp, op.toNat, sz, x.2)) ∧
        t'.outst = t.outst ++ counted s1 t sp c.lanes ∧
        t' = { t with buf := t'.buf, fills := t'.fills, outst := t'.outst, lspan := t'.lspan } ∧ sameMemory s s2) ∧
      (rt = true → bu.lat.buf = [] → relsDone s1 t.band t.num bu.seq = true →
        ∃ s2 t' o ow, exec i s = .next s2 ∧ s2.strs.head? = some t' ∧ o ∈ s2.ops ∧ o.id = s1.nextId ∧
          o.kind = .atom sp op.toNat sz d.toNat lanes ∧ t'.owed = t.owed ++ [ow] ∧ ow.o = s1.nextId ∧ ow.left = 0 ∧
          ow.dst = .v d.toNat (if sz then 2 else 1) (activeMask bu g) ∧ ow.val = none ∧
          t'.outst = t.outst ++ counted s1 t sp c.lanes ∧
          t' = { t with owed := t'.owed, outst := t'.outst, undo := t'.undo, vtag := t'.vtag, fills := t'.fills, lspan := t'.lspan } ∧
          sameMemory s s2))

/-! ### Events -/

/-- `i` completes from `s`, in a state of which `P` holds. -/
def Completes (i : Instr) (s : State) (P : State → Prop) : Prop := ∃ s', exec i s = .next s' ∧ P s'

/-- What a rollback of string `n` of band `b` leaves of the string (R202). -/
def rolled (s : State) (b n : Nat) (t : Str) : Str :=
  rollStr t ((s.ops.filter (fun (o : Op) => undoneBy b n t.rp.seq o && !o.sent)).map (fun (o : Op) => o.id))

/-- The place of a band. -/
def placeIn (s : State) (b : Nat) : Option Place := (s.band? b).map (fun (x : Band) => x.place)

/-- Nothing waits at the home for the line of a request that has not arrived, and none of R315's refusals applies to it; its page is
resident there and no store to its replicas is in progress; its context is not sampled (R304, R306, R308, R323). -/
structure Arrives (s : State) (i : Nat) (r : Req) (p : Page) : Prop where
  req : s.req? i = some r
  home : r.home = s.dev ∧ s.dev < 16
  fresh : r.arr = 0
  sampler : (s.ctx? r.ctx).bind (fun (c : Ctx) => c.sampler) = none
  refusal : homeRefusal s r = none
  page : s.page? r.ctx (r.line / 512) = some p ∧ p.v = true ∧ p.mov = false ∧ p.lock = 0#8 ∧ p.storing = none ∧ p.putting = none
  grants : s.dataTo r.die r.ctx r.line = false
  puts : ∀ x ∈ s.sites, ∀ c ∈ x.lines, c.ctx = r.ctx → c.line = r.line → c.wb = false ∨ c.arr = 0
  idle : s.txn? r.ctx r.line = none ∧ ∀ x ∈ s.reqs, x.id ≠ i → x.arr = 0 ∨ x.ctx ≠ r.ctx ∨ x.line ≠ r.line ∨ x.home ≠ r.home ∨ x.pdie.isSome = true

/-- The last piece of load `o` has been answered with some bytes: the operation is complete, its result and its return are due. -/
def LoadAnswered (s' : State) (o : Nat) (op : Op) (bs : List (Nat × Byte)) : Prop :=
  s'.op? o = some { gather bs op with left := 0, fin := true, done := !op.acq || op.undone } ∧
    .longLatencyResult op.b op.n o ∈ s'.agenda ∧ .operationReturn o ∈ s'.agenda

/-- A request of a string or a job of this module's dies: its reply goes back to its die. -/
def fromDies (r : Req) : Prop := ((∃ b n, r.who = .str b n) ∨ ∃ j, r.who = .job j) ∧ r.die ≠ 15

/-- A request has been performed and its reply is on its way: to its die with bytes, sent by `src`; to another agent of this module at once. -/
def RepliedWith (s' : State) (i : Nat) (r : Req) (src : Nat) (bs : List (Nat × Byte)) : Prop :=
  (fromDies r → .dataMsg i none ∈ s'.agenda ∧
    (s'.req? i).map (fun (q : Req) => (q.back, q.arr, q.src, q.held)) = some (some bs, 0, src, none)) ∧
  (¬fromDies r → r.op = none → r.entry = none → s'.req? i = none)

/-- A load whose last piece a request brings. -/
def loadOf (s : State) (r : Req) (o : Nat) (op : Op) : Prop :=
  r.op = some o ∧ r.entry = none ∧ s.op? o = some op ∧ op.left = 1 ∧ op.todo = [] ∧ ∃ sp w d ls, op.kind = .load sp w d ls

/-- The management record in progress ends: none runs any more, and its packet of queue 0 has been answered (R343). -/
def RecordEnds (s' : State) (r : MgmtRec) : Prop :=
  s'.mgmtBusy = none ∧ ∀ q, s'.queue? 0 = some q → ∀ p ∈ q.pkts, p.sq = r.sq → p.done = true

/-- The module as a polling slot finds it: the executive core's `idle` has ended, and answered packets have left the queue (R342). -/
def polled (s : State) (core q : Nat) : State :=
  sweepPackets { s with strs := s.strs.map (fun (t : Str) =>
    if (s.band? t.band).any (fun (b : Band) => b.prof == .executive && b.place == .resident core) then { t with idleA := false, idleB := false } else t) } q

/-- A queue with a packet to fetch at a polling slot (R341). -/
def Queue.due (x : Queue) : Prop := x.st = .on ∧ x.widx ≠ x.ridx ∧ x.waiting x.widx ≤ 2 ^ x.log2

/-- No transaction in progress waits for an answer of a holder. -/
def noneAwaits (s : State) (h : Nat) : Prop := ∀ x ∈ s.txns, x.await.contains h = false

/-- A die has left ADMITTED (R335): it has no class, no core runs there, and the directory names it nowhere (R333). -/
def DieLost (s' : State) (d : Nat) : Prop :=
  (s'.site? d).map (fun (x : Site) => (x.st, x.cls, x.lines)) = some (.isolated, none, []) ∧ (∀ c ∈ s'.cores, c.die ≠ d) ∧
    ∀ e ∈ s'.dir, e.holds d = false

/-- A bundle whose only instruction besides `nop` is `i`, in slot `k`. -/
def loneSlot (b : Bundle) (k : Nat) (i : Instr) : Prop :=
  ∃ pre post, b.slots = pre ++ (k, i) :: post ∧ (∀ x ∈ pre ++ post, x.2 = .nop) ∧ (b.slots.map (fun x => x.1)).Nodup

/-- The state in which the bundle of a path begins to issue, slot `k` acting: its string heads the run list, results that the bundle must find
are written, its segment is entered, its wait is over, its registers are latched (R47, R63, R64, R84). -/
def atIssue (s : State) (t : Str) (slotB : Bool) (p : Path) (b : Bundle) : State :=
  (((((toHead s t.band t.num).modHead (writeOwed b)).enter slotB p).unwait slotB).startBun slotB p)

end Sys2Proof.Machine
end

