-- ==== Sys2Proof/Certificates/Slice0/Obligations.lean ====
section
/-! DEFINITION. The statements for the provers. Each says what the rules of spec/ that it names say of an instruction, of an event or
of the module. -/

open Sys2Proof Sys2Proof.Machine

/-- R125 with R123: the sixteen instructions of major 0x01 write Wrap(A + B), Wrap(A − B), Wrap(UA × UB), bits 63 to 32 of the
exact products, minima and maxima, bitwise results, shifts by UB[5:0] and the rotation by UB[4:0] to v[d] in the active lanes,
keep every other lane and every other register, set no flag, and change no byte of memory. R126 and R127 with R123: the instructions of major 0x02: Wrap(|SA|), Wrap(−SA), counts of set, leading and trailing bits, bit
reversal, field extract and insert, saturating sums and differences, Wrap(UA × UB + D), and the move. -/
def Obligations.IntegerLanes : Prop :=
  (
    ∀ (g : PReg) (d a b : VReg),
      LaneResult (.iadd g d a b) g d (from2 a b (fun A B => BitVec.ofNat 32 (A.toNat + B.toNat))) ∧
      LaneResult (.isub g d a b) g d (from2 a b (fun A B => BitVec.ofInt 32 ((A.toNat : Int) - B.toNat))) ∧
      LaneResult (.imul g d a b) g d (from2 a b (fun A B => BitVec.ofNat 32 (A.toNat * B.toNat))) ∧
      LaneResult (.imulhI g d a b) g d (from2 a b (fun A B => BitVec.ofInt 32 (A.toInt * B.toInt / 2 ^ 32))) ∧
      LaneResult (.imulhN g d a b) g d (from2 a b (fun A B => BitVec.ofNat 32 (A.toNat * B.toNat / 2 ^ 32))) ∧
      LaneResult (.iminI g d a b) g d (from2 a b (fun A B => BitVec.ofInt 32 (min A.toInt B.toInt))) ∧
      LaneResult (.imaxI g d a b) g d (from2 a b (fun A B => BitVec.ofInt 32 (max A.toInt B.toInt))) ∧
      LaneResult (.iminN g d a b) g d (from2 a b (fun A B => BitVec.ofNat 32 (min A.toNat B.toNat))) ∧
      LaneResult (.imaxN g d a b) g d (from2 a b (fun A B => BitVec.ofNat 32 (max A.toNat B.toNat))) ∧
      LaneResult (.iand g d a b) g d (from2 a b (fun A B => A &&& B)) ∧
      LaneResult (.ior g d a b) g d (from2 a b (fun A B => A ||| B)) ∧
      LaneResult (.ixor g d a b) g d (from2 a b (fun A B => A ^^^ B)) ∧
      LaneResult (.ishl g d a b) g d (from2 a b (fun A B =>
        if 32 ≤ B.toNat % 64 then 0#32 else BitVec.ofNat 32 (A.toNat * 2 ^ (B.toNat % 64)))) ∧
      LaneResult (.ishr g d a b) g d (from2 a b (fun A B =>
        if 32 ≤ B.toNat % 64 then 0#32 else BitVec.ofNat 32 (A.toNat / 2 ^ (B.toNat % 64)))) ∧
      LaneResult (.isra g d a b) g d (from2 a b (fun A B =>
        if 32 ≤ B.toNat % 64 then (if A.msb then 0xFFFFFFFF#32 else 0#32) else BitVec.ofInt 32 (A.toInt / 2 ^ (B.toNat % 64)))) ∧
      LaneResult (.irot g d a b) g d (from2 a b (fun A B =>
        BitVec.ofNat 32 (A.toNat * 2 ^ (B.toNat % 32) + A.toNat / 2 ^ (32 - B.toNat % 32))))) ∧
  (
    ∀ (g : PReg) (d a b : VReg),
      LaneResult (.iabs g d a) g d (from1 a (fun A => BitVec.ofNat 32 A.toInt.natAbs)) ∧
      LaneResult (.ineg g d a) g d (from1 a (fun A => BitVec.ofInt 32 (-A.toInt))) ∧
      LaneResult (.popc g d a) g d (from1 a (fun A => BitVec.ofNat 32 ((List.range 32).countP (fun i => A.getLsbD i)))) ∧
      LaneResult (.clz g d a) g d (from1 a (fun A => BitVec.ofNat 32 (leadingZeros A))) ∧
      LaneResult (.ctz g d a) g d (from1 a (fun A => BitVec.ofNat 32 (trailingZeros A))) ∧
      LaneResult (.brev g d a) g d (from1 a (fun A => A.reverse)) ∧
      LaneResult (.bfe g d a b) g d (from2 a b (fun A B =>
        BitVec.ofNat 32 (A.toNat / 2 ^ (B.toNat % 32) % 2 ^ min (B.toNat / 256 % 64) 32))) ∧
      LaneResult (.bfi g d a b) g d (from3 a b d (fun A B D =>
        let m := BitVec.ofNat 32 ((2 ^ min (B.toNat / 256 % 64) 32 - 1) * 2 ^ (B.toNat % 32))
        (D &&& ~~~m) ||| (BitVec.ofNat 32 (A.toNat * 2 ^ (B.toNat % 32)) &&& m))) ∧
      LaneResult (.iaddsI g d a b) g d (from2 a b (fun A B => BitVec.ofInt 32 (clampInt (A.toInt + B.toInt) (-2 ^ 31) (2 ^ 31 - 1)))) ∧
      LaneResult (.isubsI g d a b) g d (from2 a b (fun A B => BitVec.ofInt 32 (clampInt (A.toInt - B.toInt) (-2 ^ 31) (2 ^ 31 - 1)))) ∧
      LaneResult (.iaddsN g d a b) g d (from2 a b (fun A B => BitVec.ofNat 32 (min (A.toNat + B.toNat) (2 ^ 32 - 1)))) ∧
      LaneResult (.isubsN g d a b) g d (from2 a b (fun A B => BitVec.ofNat 32 (A.toNat - B.toNat))) ∧
      LaneResult (.imad g d a b) g d (from3 a b d (fun A B D => BitVec.ofNat 32 (A.toNat * B.toNat + D.toNat))) ∧
      LaneResult (.mov g d a) g d (from1 a (fun A => A)))

/-- R128 and R129 with R123 and R82: the instructions of majors 0x03 and 0x04, the immediate sign-extended (for `movh` and
`movh.s` zero-extended), the shifts by an immediate from 0 to 31, which are the ones that decode; `movk.s` and `movh.s` write an
s register, a write to s0 being discarded. -/
def Obligations.ImmediatesAndConstants : Prop :=
  ∀ (g : PReg) (d a : VReg) (e : SReg) (i : BitVec 13) (k : BitVec 20),
    LaneResult (.iaddi g d a i) g d (from1 a (fun A => BitVec.ofInt 32 (A.toInt + i.toInt))) ∧
    LaneResult (.iandi g d a i) g d (from1 a (fun A => A &&& BitVec.ofInt 32 i.toInt)) ∧
    LaneResult (.iori g d a i) g d (from1 a (fun A => A ||| BitVec.ofInt 32 i.toInt)) ∧
    LaneResult (.ixori g d a i) g d (from1 a (fun A => A ^^^ BitVec.ofInt 32 i.toInt)) ∧
    LaneResult (.imuli g d a i) g d (from1 a (fun A => BitVec.ofInt 32 (A.toInt * i.toInt))) ∧
    (i.toNat < 32 →
      LaneResult (.ishli g d a i) g d (from1 a (fun A => BitVec.ofNat 32 (A.toNat * 2 ^ i.toNat))) ∧
      LaneResult (.ishri g d a i) g d (from1 a (fun A => BitVec.ofNat 32 (A.toNat / 2 ^ i.toNat))) ∧
      LaneResult (.israi g d a i) g d (from1 a (fun A => BitVec.ofInt 32 (A.toInt / 2 ^ i.toNat)))) ∧
    LaneResult (.movk g d k) g d (fun _ _ => BitVec.ofInt 32 k.toInt) ∧
    LaneResult (.movh g d k) g d (from1 d (fun D => BitVec.ofNat 32 (D.toNat * 2 ^ 20 + k.toNat))) ∧
    ScalarResult (.movkS e k) e (fun _ => BitVec.ofInt 64 k.toInt) ∧
    ScalarResult (.movhS e k) e (fun t => BitVec.ofNat 64 ((readS t e.toNat).toNat * 2 ^ 20 + k.toNat))

/-- R130 and R131 with R123: the integer compares and the predicate logic set p[d] in the active lanes; a write to p0 is
discarded. R130 with R124 and R105: the float compares, where no flag that they set has its trap enabled: false (for `fcne` true) when
either operand is a NaN; NV for a signalling NaN, in `fclt` and `fcle` for any NaN. -/
def Obligations.Compares : Prop :=
  (
    ∀ (g p : PReg) (a b : VReg) (x y : PReg),
      PredResult (.ceq g p a b) g p (from2 a b (fun A B => A == B)) ∧
      PredResult (.cne g p a b) g p (from2 a b (fun A B => A != B)) ∧
      PredResult (.cltI g p a b) g p (from2 a b (fun A B => decide (A.toInt < B.toInt))) ∧
      PredResult (.cleI g p a b) g p (from2 a b (fun A B => decide (A.toInt ≤ B.toInt))) ∧
      PredResult (.cltN g p a b) g p (from2 a b (fun A B => decide (A.toNat < B.toNat))) ∧
      PredResult (.cleN g p a b) g p (from2 a b (fun A B => decide (A.toNat ≤ B.toNat))) ∧
      PredResult (.pand g p x y) g p (fun t l => (readP t x.toNat).getLsbD l && (readP t y.toNat).getLsbD l) ∧
      PredResult (.por g p x y) g p (fun t l => (readP t x.toNat).getLsbD l || (readP t y.toNat).getLsbD l) ∧
      PredResult (.pxor g p x y) g p (fun t l => (readP t x.toNat).getLsbD l != (readP t y.toNat).getLsbD l) ∧
      PredResult (.pnot g p x) g p (fun t l => !(readP t x.toNat).getLsbD l) ∧
      PredResult (.pmov g p x) g p (fun t l => (readP t x.toNat).getLsbD l)) ∧
  (
    ∀ (g p : PReg) (a b : VReg),
      let nan := fun (A B : Word32) => (fp32.dec A.toNat).isNan || (fp32.dec B.toNat).isNan
      let ord := fun (A B : Word32) => fCmp (fp32.dec A.toNat) (fp32.dec B.toNat)
      let onSnan := fun (A B : Word32) => if (fp32.dec A.toNat).isSnan || (fp32.dec B.toNat).isSnan then flNV else 0#5
      let onNan := fun (A B : Word32) => if nan A B then flNV else 0#5
      FpPredResult (.fceq g p a b) g p (from2 a b (fun A B => !nan A B && ord A B == 0)) (from2 a b onSnan) ∧
      FpPredResult (.fcne g p a b) g p (from2 a b (fun A B => nan A B || ord A B != 0)) (from2 a b onSnan) ∧
      FpPredResult (.fclt g p a b) g p (from2 a b (fun A B => !nan A B && ord A B == -1)) (from2 a b onNan) ∧
      FpPredResult (.fcle g p a b) g p (from2 a b (fun A B => !nan A B && ord A B != 1)) (from2 a b onNan) ∧
      FpPredResult (.fcun g p a b) g p (from2 a b nan) (from2 a b onSnan))

/-- R132, R133 and R134 with R123, R124 and R105: the FP32 instructions that write at once, where no flag that they set has its
trap enabled; the sign-bit forms set no flag. R136 and R137 with R123 and R124: each element of a packed pair is computed on its own, in BF16 or FP16, and the flags of both
collect. -/
def Obligations.FloatAndPackedArithmetic : Prop :=
  (
    ∀ (g : PReg) (d a b : VReg),
      let F := fun (x : Word32) => fp32.dec x.toNat
      FpResult (.fadd g d a b) g d (fun t => from2 a b (fun A B => fAdd fp32 (modeIn t) (F A) (F B)) t) ∧
      FpResult (.fsub g d a b) g d (fun t => from2 a b (fun A B => fSub fp32 (modeIn t) (F A) (F B)) t) ∧
      FpResult (.fmul g d a b) g d (fun t => from2 a b (fun A B => fMul fp32 (modeIn t) (F A) (F B)) t) ∧
      FpResult (.ffma g d a b) g d (fun t => from3 a b d (fun A B D => fFma fp32 (modeIn t) (F A) (F B) (F D)) t) ∧
      FpResult (.fmin g d a b) g d (from2 a b (fun A B => minMax fp32 true A.toNat B.toNat)) ∧
      FpResult (.fmax g d a b) g d (from2 a b (fun A B => minMax fp32 false A.toNat B.toNat)) ∧
      FpResult (.ffloor g d a) g d (from1 a (fun A => toIntegral fp32 .rdn A.toNat)) ∧
      FpResult (.fceil g d a) g d (from1 a (fun A => toIntegral fp32 .rup A.toNat)) ∧
      FpResult (.ftrunc g d a) g d (from1 a (fun A => toIntegral fp32 .rtz A.toNat)) ∧
      FpResult (.fround g d a) g d (from1 a (fun A => toIntegral fp32 .rne A.toNat)) ∧
      LaneResult (.fabs g d a) g d (from1 a (fun A => A &&& 0x7FFFFFFF#32)) ∧
      LaneResult (.fneg g d a) g d (from1 a (fun A => A ^^^ 0x80000000#32)) ∧
      LaneResult (.fcopysign g d a b) g d (from2 a b (fun A B => (A &&& 0x7FFFFFFF#32) ||| (B &&& 0x80000000#32)))) ∧
  (
    ∀ (g : PReg) (d a b : VReg) (hf : Bool),
      let f := packFmt hf
      let el := fun (e : Nat) (x : Word32) => x.toNat / 65536 ^ e % 65536
      let pair := fun (r : Nat → FRes) => ({ x := (r 0).x + 65536 * (r 1).x, fl := (r 0).fl ||| (r 1).fl } : FRes)
      FpResult (.hadd2 g d a b hf) g d (fun t => from2 a b (fun A B => pair (fun e => fAdd f (modeIn t) (f.dec (el e A)) (f.dec (el e B)))) t) ∧
      FpResult (.hsub2 g d a b hf) g d (fun t => from2 a b (fun A B => pair (fun e => fSub f (modeIn t) (f.dec (el e A)) (f.dec (el e B)))) t) ∧
      FpResult (.hmul2 g d a b hf) g d (fun t => from2 a b (fun A B => pair (fun e => fMul f (modeIn t) (f.dec (el e A)) (f.dec (el e B)))) t) ∧
      FpResult (.hfma2 g d a b hf) g d (fun t => from3 a b d (fun A B D =>
        pair (fun e => fFma f (modeIn t) (f.dec (el e A)) (f.dec (el e B)) (f.dec (el e D)))) t) ∧
      FpResult (.hmin2 g d a b hf) g d (from2 a b (fun A B => pair (fun e => minMax f true (el e A) (el e B)))) ∧
      FpResult (.hmax2 g d a b hf) g d (from2 a b (fun A B => pair (fun e => minMax f false (el e A) (el e B)))) ∧
      FpResult (.hcvt2 g d a b hf) g d (fun t => from2 a b (fun A B =>
        pair (fun e => convInto f (modeIn t) false (fp32.dec (if e = 0 then A else B).toNat))) t))

/-- R138, R139, R140 and R142 with R123, R124: the conversions to and from one word, by selector code, in the selector's mode. R141 with R111, R123, R124: the block narrowing of sixteen lanes, inactive lanes as +0, with or without error feedback, where
no flag that it sets has its trap enabled: v[d] takes the element and v[d+1] the scale word in each active lane. -/
def Obligations.ConversionsAndBlocks : Prop :=
  (
    ∀ (g : PReg) (d a : VReg) (sel : BitVec 6),
      let m := rmode (selMode sel)
      let word := fun (r : Int × Flags) => ({ x := (BitVec.ofInt 32 r.1).toNat, fl := r.2 } : FRes)
      let toFp := fun (x : Int) => roundFin fp32 m false (decide (x < 0)) x.natAbs 0
      let inf := fun (A : Word32) (r : FRes) => if (fp32.dec A.toNat).isInf then ({ r with fl := flNX } : FRes) else r
      (selCode sel = 0 →
        FpResult (.cvt g d a sel) g d (from1 a (fun A => word (toInteger m false (-2 ^ 31) (2 ^ 31 - 1) A.toNat))) ∧
        FpResult (.cvtSat g d a sel) g d (from1 a (fun A => word (toInteger m true (-2 ^ 31) (2 ^ 31 - 1) A.toNat)))) ∧
      (selCode sel = 1 →
        FpResult (.cvt g d a sel) g d (from1 a (fun A => word (toInteger m false 0 (2 ^ 32 - 1) A.toNat))) ∧
        FpResult (.cvtSat g d a sel) g d (from1 a (fun A => word (toInteger m true 0 (2 ^ 32 - 1) A.toNat)))) ∧
      (selCode sel = 2 → FpResult (.cvt g d a sel) g d (from1 a (fun A => toFp A.toInt))) ∧
      (selCode sel = 3 → FpResult (.cvt g d a sel) g d (from1 a (fun A => toFp A.toNat))) ∧
      (selCode sel = 4 →
        FpResult (.cvt g d a sel) g d (from1 a (fun A => convInto bf16 m false (fp32.dec A.toNat))) ∧
        FpResult (.cvtSat g d a sel) g d (from1 a (fun A => inf A (convInto bf16 m true (fp32.dec A.toNat))))) ∧
      (selCode sel = 5 →
        FpResult (.cvt g d a sel) g d (from1 a (fun A => convInto fp16 m false (fp32.dec A.toNat))) ∧
        FpResult (.cvtSat g d a sel) g d (from1 a (fun A => inf A (convInto fp16 m true (fp32.dec A.toNat))))) ∧
      (selCode sel = 6 → FpResult (.cvt g d a sel) g d (from1 a (fun A => widen bf16 (A.toNat % 65536)))) ∧
      (selCode sel = 7 → FpResult (.cvt g d a sel) g d (from1 a (fun A => widen fp16 (A.toNat % 65536)))) ∧
      (selCode sel = 10 → FpResult (.cvt g d a sel) g d (fun t l => nbWiden t a.toNat l true)) ∧
      (selCode sel = 11 → FpResult (.cvt g d a sel) g d (fun t l => nbWiden t a.toNat l false)) ∧
      (sel.toNat < 32 → FpResult (.cvtPack g d a sel) g d (fun t => from2 a d (fun A D =>
        { x := (D.toNat * 2 ^ (packElem (sel.toNat % 8) (rmode (sel.toNat / 8)) A.toNat).2 +
                 (packElem (sel.toNat % 8) (rmode (sel.toNat / 8)) A.toNat).1.x) % 2 ^ 32,
          fl := (packElem (sel.toNat % 8) (rmode (sel.toNat / 8)) A.toNat).1.fl }) t)) ∧
      (32 ≤ sel.toNat → sel.toNat % 4 = 0 → FpResult (.cvtPack g d a sel) g d
        (from1 a (fun A => widen e4m3 (A.toNat / 2 ^ (8 * (sel.toNat / 4 % 8)) % 256)))) ∧
      (32 ≤ sel.toNat → sel.toNat % 4 = 1 → FpResult (.cvtPack g d a sel) g d
        (from1 a (fun A => widen e5m2 (A.toNat / 2 ^ (8 * (sel.toNat / 4 % 8)) % 256)))) ∧
      (32 ≤ sel.toNat → sel.toNat % 4 = 2 → FpResult (.cvtPack g d a sel) g d
        (from1 a (fun A => widen e2m1 (A.toNat / 2 ^ (4 * (sel.toNat / 4 % 8)) % 16))))) ∧
  (
    ∀ (g : PReg) (d a : VReg) (sel : BitVec 6), (selCode sel = 8 ∨ selCode sel = 9) →
      NarrowResult (.cvt g d a sel) g d a (selCode sel == 8) false ∧ NarrowResult (.cvtEf g d a sel) g d a (selCode sel == 8) true)

/-- R143 and R144 with R123, R124: the dot products, which read and accumulate into v[d], and the scaling by a power of two. R145 to R147 with R123: the shuffles read the named lane of v[a], active or not (in a string of one lane, lane 0); the votes
read the predicate in the active lanes. -/
def Obligations.DotProductsShufflesVotes : Prop :=
  (
    ∀ (g : PReg) (d a b : VReg),
      let se := fun (w : Nat) (x : Word32) (i : Nat) => (BitVec.ofNat w (x.toNat / 2 ^ (w * i))).toInt
      let ue := fun (w : Nat) (x : Word32) (i : Nat) => ((BitVec.ofNat w (x.toNat / 2 ^ (w * i))).toNat : Int)
      let sum := fun (n : Nat) (f : Nat → Int) => (List.range n).foldl (fun acc i => acc + f i) 0
      LaneResult (.dp4I8 g d a b) g d (from3 a b d (fun A B D => BitVec.ofInt 32 (D.toInt + sum 4 (fun i => se 8 A i * se 8 B i)))) ∧
      LaneResult (.dp4N8 g d a b) g d (from3 a b d (fun A B D => BitVec.ofInt 32 (D.toNat + sum 4 (fun i => ue 8 A i * ue 8 B i)))) ∧
      LaneResult (.dp8I4 g d a b) g d (from3 a b d (fun A B D => BitVec.ofInt 32 (D.toInt + sum 8 (fun i => se 4 A i * se 4 B i)))) ∧
      FpResult (.dp4E4m3 g d a b) g d (fun t => from3 a b d (fun A B D => dotFp e4m3 4 8 (modeIn t) A.toNat B.toNat D.toNat) t) ∧
      FpResult (.dp4E5m2 g d a b) g d (fun t => from3 a b d (fun A B D => dotFp e5m2 4 8 (modeIn t) A.toNat B.toNat D.toNat) t) ∧
      FpResult (.dp8E2m1 g d a b) g d (fun t => from3 a b d (fun A B D => dotFp e2m1 8 4 (modeIn t) A.toNat B.toNat D.toNat) t) ∧
      FpResult (.fscl g d a b) g d (fun t => from2 a b (fun A B => fScale (modeIn t) A.toNat B.toInt) t)) ∧
  (
    ∀ (g : PReg) (d a b : VReg) (k : BitVec 5) (p q : PReg),
      let lane := fun (t : Str) (l : Nat) => if t.lanes = 1 then 0 else l
      LaneResult (.shfl g d a b) g d (fun t l => readV t a.toNat (lane t ((readV t b.toNat l).toNat % 32))) ∧
      LaneResult (.shup g d a k) g d (fun t l => readV t a.toNat (lane t (if k.toNat ≤ l then l - k.toNat else l))) ∧
      LaneResult (.shdn g d a k) g d (fun t l => readV t a.toNat (lane t (if l + k.toNat ≤ 31 then l + k.toNat else l))) ∧
      LaneResult (.shx g d a k) g d (fun t l => readV t a.toNat (lane t (l ^^^ k.toNat))) ∧
      LaneResult (.bcast g d a k) g d (fun t _ => readV t a.toNat (lane t k.toNat)) ∧
      BunLaneResult (.ballot g d p) g d (fun bu _ => activeMask bu g &&& readP bu.lat p.toNat) ∧
      BunLaneResult (.mpfx g d p) g d (fun bu l =>
        BitVec.ofNat 32 ((List.range l).countP (fun i => (activeMask bu g &&& readP bu.lat p.toNat).getLsbD i))) ∧
      BunPredResult (.vany g q p) g q (fun bu _ => activeMask bu g &&& readP bu.lat p.toNat != 0#32) ∧
      BunPredResult (.vall g q p) g q (fun bu _ => activeMask bu g &&& readP bu.lat p.toNat == activeMask bu g))

/-- R240 and R242: the scalar instructions of two sources and of one source and an immediate; a shift count of 64 or more gives 0,
for the arithmetic shift copies of bit 63; a write to s0 is discarded. R241 with R145: `rdl` reads a lane of v[a] into s[d], `bcs` writes the low word of s[a] to the active lanes, and `wrl` writes it
to the one lane that SB[4:0] names, when that lane is in the path's mask; nothing else changes. -/
def Obligations.ScalarsAndLanes : Prop :=
  (
    ∀ (d a b : SReg) (i : BitVec 13),
      let two := fun (f : Word64 → Word64 → Word64) (t : Str) => f (readS t a.toNat) (readS t b.toNat)
      let one := fun (f : Word64 → Word64) (t : Str) => f (readS t a.toNat)
      ScalarResult (.sadd d a b) d (two (fun x y => BitVec.ofNat 64 (x.toNat + y.toNat))) ∧
      ScalarResult (.ssub d a b) d (two (fun x y => BitVec.ofInt 64 ((x.toNat : Int) - y.toNat))) ∧
      ScalarResult (.smul d a b) d (two (fun x y => BitVec.ofNat 64 (x.toNat * y.toNat))) ∧
      ScalarResult (.sand d a b) d (two (fun x y => x &&& y)) ∧
      ScalarResult (.sor d a b) d (two (fun x y => x ||| y)) ∧
      ScalarResult (.sxor d a b) d (two (fun x y => x ^^^ y)) ∧
      ScalarResult (.sshl d a b) d (two (fun x y => BitVec.ofNat 64 (x.toNat * 2 ^ (y.toNat % 128)))) ∧
      ScalarResult (.sshr d a b) d (two (fun x y => BitVec.ofNat 64 (x.toNat / 2 ^ (y.toNat % 128)))) ∧
      ScalarResult (.ssra d a b) d (two (fun x y => BitVec.ofInt 64 (x.toInt / 2 ^ (y.toNat % 128)))) ∧
      ScalarResult (.smin d a b) d (two (fun x y => BitVec.ofInt 64 (min x.toInt y.toInt))) ∧
      ScalarResult (.smax d a b) d (two (fun x y => BitVec.ofInt 64 (max x.toInt y.toInt))) ∧
      ScalarResult (.spopc d a) d (one (fun x => BitVec.ofNat 64 ((List.range 64).countP (fun i => x.getLsbD i)))) ∧
      ScalarResult (.sclz d a) d (one (fun x => BitVec.ofNat 64 (leadingZeros x))) ∧
      ScalarResult (.saddi d a i) d (one (fun x => BitVec.ofInt 64 (x.toInt + i.toInt))) ∧
      ScalarResult (.sandi d a i) d (one (fun x => x &&& BitVec.ofInt 64 i.toInt)) ∧
      ScalarResult (.sori d a i) d (one (fun x => x ||| BitVec.ofInt 64 i.toInt)) ∧
      ScalarResult (.sshli d a i) d (one (fun x => BitVec.ofNat 64 (x.toNat * 2 ^ i.toNat))) ∧
      ScalarResult (.sshri d a i) d (one (fun x => BitVec.ofNat 64 (x.toNat / 2 ^ i.toNat)))) ∧
  (
    (∀ (d : SReg) (a : VReg) (b : SReg),
      ScalarResult (.rdl d a b) d (fun t => BitVec.ofNat 64
        (readV t a.toNat (if t.lanes = 1 then 0 else (readS t b.toNat).toNat % 32)).toNat)) ∧
    (∀ (g : PReg) (d : VReg) (a : SReg), LaneResult (.bcs g d a) g d (fun t _ => BitVec.ofNat 32 (readS t a.toNat).toNat)) ∧
    (∀ (d : VReg) (a b : SReg) (s : State) (t : Str) (ts : List Str), s.strs = t :: ts →
      let bu := s.bunOf t
      let l := if bu.lat.lanes = 1 then 0 else (readS bu.lat b.toNat).toNat % 32
      ∃ t', exec (.wrl d a b) s = .next { s with strs := t' :: ts } ∧
        (∀ r k, k < 32 → readV t' r k = if r = d.toNat ∧ k = l ∧ bu.mask.getLsbD l = true
          then BitVec.ofNat 32 (readS bu.lat a.toNat).toNat else readV t r k) ∧
        t' = { t with v := t'.v, vtag := t'.vtag, undo := t'.undo } ∧ sameMemory s { s with strs := t' :: ts }))

/-- R132, R135, R148 and R149 with R47: `fdiv`, `fsqrt` and the reductions owe each active lane its result; every active lane of a
reduction receives the same one, over the active lanes only. -/
def Obligations.LongLatencyLanes : Prop :=
  ∀ (g : PReg) (d a b : VReg) (la : BitVec 4),
    let F := fun (t : Str) (r : VReg) (l : Nat) => fp32.dec (readV t r.toNat l).toNat
    LongResult (.fdiv g d a b la) g d la (fun t _ l => fDiv fp32 (modeIn t) (F t a l) (F t b l)) ∧
    LongResult (.fsqrt g d a la) g d la (fun t _ l => fSqrt fp32 (modeIn t) (F t a l)) ∧
    LongResult (.redaddI g d a la) g d la (fun t m _ => { x := ((lanesOf m).foldl (fun acc l => acc + readV t a.toNat l) 0#32).toNat }) ∧
    LongResult (.redmaxI g d a la) g d la (fun t m _ =>
      { x := ((lanesOf m).foldl (fun acc l => if acc.toInt < (readV t a.toNat l).toInt then readV t a.toNat l else acc) 0x80000000#32).toNat }) ∧
    LongResult (.redaddF g d a la) g d la (fun t m _ => treeOf t m a.toNat (fun x y => fAdd fp32 (modeIn t) (fp32.dec x) (fp32.dec y))) ∧
    LongResult (.redmaxF g d a la) g d la (fun t m _ => treeOf t m a.toNat (fun x y => minMax fp32 false x y))

/-- R105 and R210: each instruction that sets FP flags, with an enabled flag set in some active lane and traps not masked, raises FP with
the first such lane and the conditions, and has no effect of its own. That a block's flags are charged to every lane of its group, and a
reduction's to every active lane, is the model's choice (log 96). R181, R24 and R203: a load, a store or an atomic whose lowest active lane names an address that is not a multiple of the width raises
ALIGN with that lane; a bench access outside the bounds raises BENCH_BOUND. The access has no effect. -/
def Obligations.TrapsAtIssue : Prop :=
  (
    ∀ (g p : PReg) (d a b : VReg) (hf : Bool) (sel : BitVec 6) (la : BitVec 4),
      let F := fun (x : Word32) => fp32.dec x.toNat
      let ar := fun (op : RMode → FVal → FVal → FRes) (t : Str) => from2 a b (fun A B => op (modeIn t) (F A) (F B)) t
      let h := packFmt hf
      let el := fun (e : Nat) (x : Word32) => x.toNat / 65536 ^ e % 65536
      let pair := fun (r : Nat → FRes) => ({ x := (r 0).x + 65536 * (r 1).x, fl := (r 0).fl ||| (r 1).fl } : FRes)
      let hr := fun (op : RMode → FVal → FVal → FRes) (t : Str) =>
        from2 a b (fun A B => pair (fun e => op (modeIn t) (h.dec (el e A)) (h.dec (el e B)))) t
      let snan := fun (A B : Word32) => if (F A).isSnan || (F B).isSnan then flNV else 0#5
      let nan := fun (A B : Word32) => if (F A).isNan || (F B).isNan then flNV else 0#5
      let m := rmode (selMode sel)
      let toI := fun (sat : Bool) (lo hi : Int) => from1 a (fun A => ({ x := 0, fl := (toInteger m sat lo hi A.toNat).2 } : FRes))
      let inf := fun (A : Word32) (r : FRes) => if (F A).isInf then ({ r with fl := flNX } : FRes) else r
      let dot := fun (f : Fmt) (n w : Nat) (t : Str) => from3 a b d (fun A B D => dotFp f n w (modeIn t) A.toNat B.toNat D.toNat) t
      let blk := fun (nb8 fb : Bool) (bu : Bun) (l : Nat) => (groupBlock bu.lat (activeMask bu g) a.toNat (16 * (l / 16)) nb8 fb).fl
      let tree := fun (op : RMode → Nat → Nat → FRes) (bu : Bun) (_ : Nat) => (treeOf bu.lat (activeMask bu g) a.toNat (op (modeIn bu.lat))).fl
      (FpTraps (.fadd g d a b) g (ar (fAdd fp32)) ∧ FpTraps (.fsub g d a b) g (ar (fSub fp32)) ∧ FpTraps (.fmul g d a b) g (ar (fMul fp32)) ∧
        FpTraps (.ffma g d a b) g (fun t => from3 a b d (fun A B D => fFma fp32 (modeIn t) (F A) (F B) (F D)) t) ∧
        FpTraps (.fdiv g d a b la) g (ar (fDiv fp32)) ∧ FpTraps (.fsqrt g d a la) g (fun t => from1 a (fun A => fSqrt fp32 (modeIn t) (F A)) t) ∧
        FpTraps (.fmin g d a b) g (from2 a b (fun A B => minMax fp32 true A.toNat B.toNat)) ∧
        FpTraps (.fmax g d a b) g (from2 a b (fun A B => minMax fp32 false A.toNat B.toNat)) ∧
        FpTraps (.ffloor g d a) g (from1 a (fun A => toIntegral fp32 .rdn A.toNat)) ∧ FpTraps (.fceil g d a) g (from1 a (fun A => toIntegral fp32 .rup A.toNat)) ∧
        FpTraps (.ftrunc g d a) g (from1 a (fun A => toIntegral fp32 .rtz A.toNat)) ∧ FpTraps (.fround g d a) g (from1 a (fun A => toIntegral fp32 .rne A.toNat))) ∧
      (FpTrap (.fceq g p a b) g (fun bu => from2 a b snan bu.lat) ∧ FpTrap (.fcne g p a b) g (fun bu => from2 a b snan bu.lat) ∧
        FpTrap (.fcun g p a b) g (fun bu => from2 a b snan bu.lat) ∧ FpTrap (.fclt g p a b) g (fun bu => from2 a b nan bu.lat) ∧
        FpTrap (.fcle g p a b) g (fun bu => from2 a b nan bu.lat)) ∧
      (FpTraps (.hadd2 g d a b hf) g (hr (fAdd h)) ∧ FpTraps (.hsub2 g d a b hf) g (hr (fSub h)) ∧ FpTraps (.hmul2 g d a b hf) g (hr (fMul h)) ∧
        FpTraps (.hfma2 g d a b hf) g (fun t => from3 a b d (fun A B D =>
          pair (fun e => fFma h (modeIn t) (h.dec (el e A)) (h.dec (el e B)) (h.dec (el e D)))) t) ∧
        FpTraps (.hmin2 g d a b hf) g (from2 a b (fun A B => pair (fun e => minMax h true (el e A) (el e B)))) ∧
        FpTraps (.hmax2 g d a b hf) g (from2 a b (fun A B => pair (fun e => minMax h false (el e A) (el e B)))) ∧
        FpTraps (.hcvt2 g d a b hf) g (fun t => from2 a b (fun A B => pair (fun e => convInto h (modeIn t) false (F (if e = 0 then A else B)))) t)) ∧
      ((selCode sel = 0 → FpTraps (.cvt g d a sel) g (toI false (-2 ^ 31) (2 ^ 31 - 1)) ∧ FpTraps (.cvtSat g d a sel) g (toI true (-2 ^ 31) (2 ^ 31 - 1))) ∧
        (selCode sel = 1 → FpTraps (.cvt g d a sel) g (toI false 0 (2 ^ 32 - 1)) ∧ FpTraps (.cvtSat g d a sel) g (toI true 0 (2 ^ 32 - 1))) ∧
        (selCode sel = 2 → FpTraps (.cvt g d a sel) g (from1 a (fun A => roundFin fp32 m false (decide (A.toInt < 0)) A.toInt.natAbs 0))) ∧
        (selCode sel = 3 → FpTraps (.cvt g d a sel) g (from1 a (fun A => roundFin fp32 m false false A.toNat 0))) ∧
        (selCode sel = 4 → FpTraps (.cvt g d a sel) g (from1 a (fun A => convInto bf16 m false (F A))) ∧
          FpTraps (.cvtSat g d a sel) g (from1 a (fun A => inf A (convInto bf16 m true (F A))))) ∧
        (selCode sel = 5 → FpTraps (.cvt g d a sel) g (from1 a (fun A => convInto fp16 m false (F A))) ∧
          FpTraps (.cvtSat g d a sel) g (from1 a (fun A => inf A (convInto fp16 m true (F A))))) ∧
        (selCode sel = 6 → FpTraps (.cvt g d a sel) g (from1 a (fun A => widen bf16 (A.toNat % 65536)))) ∧
        (selCode sel = 7 → FpTraps (.cvt g d a sel) g (from1 a (fun A => widen fp16 (A.toNat % 65536)))) ∧
        (selCode sel = 8 ∨ selCode sel = 9 → FpTrap (.cvt g d a sel) g (blk (selCode sel == 8) false) ∧ FpTrap (.cvtEf g d a sel) g (blk (selCode sel == 8) true)) ∧
        (selCode sel = 10 → FpTraps (.cvt g d a sel) g (fun t l => nbWiden t a.toNat l true)) ∧
        (selCode sel = 11 → FpTraps (.cvt g d a sel) g (fun t l => nbWiden t a.toNat l false)) ∧
        (sel.toNat < 32 → FpTraps (.cvtPack g d a sel) g (from1 a (fun A => (packElem (sel.toNat % 8) (rmode (sel.toNat / 8)) A.toNat).1))) ∧
        (32 ≤ sel.toNat → sel.toNat % 4 < 2 → FpTraps (.cvtPack g d a sel) g
          (from1 a (fun A => widen (if sel.toNat % 4 = 0 then e4m3 else e5m2) (A.toNat / 2 ^ (8 * (sel.toNat / 4 % 8)) % 256))))) ∧
      (FpTraps (.dp4E4m3 g d a b) g (dot e4m3 4 8) ∧ FpTraps (.dp4E5m2 g d a b) g (dot e5m2 4 8) ∧ FpTraps (.dp8E2m1 g d a b) g (dot e2m1 8 4) ∧
        FpTraps (.fscl g d a b) g (fun t => from2 a b (fun A B => fScale (modeIn t) A.toNat B.toInt) t) ∧
        FpTrap (.redaddF g d a la) g (tree (fun r x y => fAdd fp32 r (fp32.dec x) (fp32.dec y))) ∧
        FpTrap (.redmaxF g d a la) g (tree (fun _ x y => minMax fp32 false x y)))) ∧
  (
    ∀ (g : PReg) (d : VReg) (base : BitVec 6) (vb : Bool) (w : BitVec 3) (ord la : BitVec 4) (colour : BitVec 3) (off : BitVec 5)
      (op : BitVec 4) (sz rt : Bool) (s : State) (t : Str) (ts : List Str) (bu : Bun) (l : Nat) (ls : List Nat), Issuing s t ts bu →
      lanesOf (activeMask bu g) = l :: ls →
      let n := widthBytes w
      let x := laneAddr bu.lat base vb off.toNat n l
      let trap := fun (c : Cause) => Host.Outcome.next (s.raise t bu { cause := c, lane := l })
      (x.toNat % n ≠ 0 →
        exec (.ldG g d base vb w ord la off) s = trap .align ∧ exec (.ldP g d base vb w ord la off) s = trap .align ∧
        exec (.ldB g d base vb w ord la off) s = trap .align ∧ exec (.stG g d base vb w ord colour off) s = trap .align ∧
        exec (.stP g d base vb w ord colour off) s = trap .align ∧ exec (.stB g d base vb w ord colour off) s = trap .align) ∧
      (x.toNat % n = 0 → x.toNat < bu.lat.benchb.toNat ∨ bu.lat.benchl.toNat < x.toNat + n →
        exec (.ldB g d base vb w ord la off) s = trap .benchBound ∧ exec (.stB g d base vb w ord colour off) s = trap .benchBound) ∧
      (let k := if sz then 8 else 4
       let y := laneAddr bu.lat base vb off.toNat k l
       (y.toNat % k ≠ 0 →
         exec (.atomG g d base vb op ord sz rt off) s = trap .align ∧ exec (.atomP g d base vb op ord sz rt off) s = trap .align ∧
         exec (.atomB g d base vb op ord sz rt off) s = trap .align) ∧
       (y.toNat % k = 0 → y.toNat < bu.lat.benchb.toNat ∨ bu.lat.benchl.toNat < y.toNat + k →
         exec (.atomB g d base vb op ord sz rt off) s = trap .benchBound)))

/-- R226 with R40, R41 and R224: a taken path moves to the target, one that no lane takes goes on, a split gives the taken group to
the other slot if it is empty and not suspended, else pushes it, and a push beyond 256 records raises DIVERGE_OVERFLOW before
any effect. Nothing but the slots, the stack and its undo entry changes. R227 with R224: `call` writes the index of the next bundle to s63 and moves the path to its target; `ret` and `brx` move it to
the bundle index in s[a]; the mask stays, and no other register, flag or byte of memory changes. -/
def Obligations.BranchesCallsReturns : Prop :=
  (
    ∀ (g : PReg) (disp : BitVec 23) (s : State) (t : Str) (ts : List Str) (bu : Bun), Issuing s t ts bu →
      noTear s bu (bu.lat.wbOpen && !(guardTaint bu g).isEmpty) →
      let act := activeMask bu g
      let rest := bu.mask &&& ~~~act
      let idx := s.idxOf t bu.pc + disp.signExtend 64
      let dest : Word32 → Path := fun m => { pc := s.baseOf t + (idx <<< 4), mask := m, bad := decide (s.lenOf t ≤ idx.toNat) }
      let stay := setSlot t bu.slotB (some { pc := bu.pc + 16#64, mask := rest })
      let full := (slotOf t (!bu.slotB)).isSome || suspended t (!bu.slotB)
      (act = 0#32 → exec (.bra g disp) s = .next s) ∧
      (act ≠ 0#32 → rest = 0#32 → exec (.bra g disp) s = .next (s.withMoved (setSlot t bu.slotB (some (dest bu.mask))) ts bu)) ∧
      (act ≠ 0#32 → rest ≠ 0#32 → full = false →
        exec (.bra g disp) s = .next (s.withMoved (setSlot stay (!bu.slotB) (some (dest act))) ts bu)) ∧
      (act ≠ 0#32 → rest ≠ 0#32 → full = true → t.stack.length < 256 →
        exec (.bra g disp) s = .next (s.withMoved { stay with stack := .path (dest act).pc act :: t.stack, hdepth := min t.hdepth (t.stack.length + 1), undo := .stack t.stack t.hdepth :: t.undo } ts bu)) ∧
      (act ≠ 0#32 → rest ≠ 0#32 → full = true → 256 ≤ t.stack.length →
        exec (.bra g disp) s = .next (s.raise t bu { cause := .divergeOverflow }))) ∧
  (
    ∀ (disp : BitVec 23) (a : SReg) (s : State) (t : Str) (ts : List Str) (bu : Bun), Issuing s t ts bu →
      let idx := s.idxOf t bu.pc
      let at_ : Word64 → Path := fun i => { pc := s.baseOf t + (i <<< 4), mask := bu.mask, bad := decide (s.lenOf t ≤ i.toNat) }
      (∃ t', exec (.call disp) s = .next (s.withMoved (setSlot t' bu.slotB (some (at_ (idx + disp.signExtend 64)))) ts bu) ∧
        WritesS s t t' 63 (idx + 1#64)) ∧
      (noTear s bu (bu.lat.wbOpen && tagS bu.lat a.toNat != .plan) →
        exec (.ret a) s = .next (s.withMoved (setSlot t bu.slotB (some (at_ (readS bu.lat a.toNat)))) ts bu) ∧
        exec (.brx a) s = .next (s.withMoved (setSlot t bu.slotB (some (at_ (readS bu.lat a.toNat)))) ts bu)))

/-- R230 with R41, R42, R43 and R44: `mark` pushes a rejoin record that expects the path's mask, or raises DIVERGE_OVERFLOW where it would be
the 257th; `join` with no rejoin record goes on. Otherwise it acts on the topmost rejoin record, the path records above it staying: with
the record completed it goes on with its expected mask and the lanes that pass through, records that then stand empty on the top popped;
else the arrived lanes stay in the record, the passing lanes going on or the slot falling free, which takes the path record on the top.
That a path that goes on is noted with its lanes, to order its earlier accesses before its later ones, is the model's choice (log 66). R231 and R210 with R42 and R43: `exit` takes its active lanes from the path and from every rejoin record; a record that has then all the
lanes that it expects becomes a path after its `join`, in place, and one that expects none is popped when it reaches the top. A path
with no lanes left frees its slot, which takes the path record on the top of the stack; a record that became a path on the top enters
an empty slot at once. With traps masked the whole string ends. That nothing happens with no active lane, traps masked or not, and
that the paths which go on are noted with their lanes, is the model's choice (logs 58 and 66). -/
def Obligations.MarksJoinsExits : Prop :=
  (
    ∀ (s : State) (t : Str) (ts : List Str) (bu : Bun), Issuing s t ts bu →
      let go := fun (u : Str) (m : Word32) => setSlot u bu.slotB (some { pc := bu.pc + 16#64, mask := m })
      let marked := fun (m : Word32) => { t with joins := t.joins ++ [(s.nseq, m)] }
      let next := { s with nseq := s.nseq + 1 }
      (t.stack.length < 256 → exec .mark s = .next (s.withHead (setStack t (.rejoin 0#32 0#32 bu.mask :: t.stack)) ts)) ∧
      (256 ≤ t.stack.length → exec .mark s = .next (s.raise t bu { cause := .divergeOverflow })) ∧
      ((∀ r ∈ t.stack, ∃ pc m, r = .path pc m) → exec .join s = .next (next.withMoved (go (marked bu.mask) bu.mask) ts bu)) ∧
      (∀ ps arr j e st, (∀ r ∈ ps, ∃ pc m, r = .path pc m) → t.stack = ps ++ .rejoin arr j e :: st →
        let left := ps ++ .rejoin (arr ||| (bu.mask &&& e)) ((s.idxOf t bu.pc).extractLsb' 0 32) e :: st
        let stops := setSlot (setStack t left) bu.slotB none
        (arr ||| (bu.mask &&& e) = e → exec .join s = .next (next.withMoved (settleTop (go (setStack (marked (e ||| bu.mask)) (ps ++ st)) (e ||| bu.mask))) ts bu)) ∧
        (arr ≠ e → bu.mask &&& e = 0#32 → bu.mask ≠ 0#32 → exec .join s = .next (next.withMoved (go (marked bu.mask) bu.mask) ts bu)) ∧
        (arr ||| (bu.mask &&& e) ≠ e → arr ||| (bu.mask &&& e) ≠ arr →
          (bu.mask &&& ~~~e ≠ 0#32 → exec .join s = .next (next.withMoved (go (setStack (marked (bu.mask &&& ~~~e)) left) (bu.mask &&& ~~~e)) ts bu)) ∧
          (bu.mask &&& ~~~e = 0#32 → ps = [] → exec .join s = .next (s.withMoved stops ts bu)) ∧
          (∀ pc m ps', bu.mask &&& ~~~e = 0#32 → ps = .path pc m :: ps' → suspended t bu.slotB = false →
            exec .join s = .next (s.withMoved (setSlot (setStack stops left.tail) bu.slotB (some { pc := pc, mask := m })) ts bu))))) ∧
  (
    ∀ (g : PReg) (s : State) (t : Str) (ts : List Str) (bu : Bun), Issuing s t ts bu →
      noTear s bu (bu.lat.wbOpen && !(guardTaint bu g).isEmpty) →
      let gone := activeMask bu g
      let left := bu.mask &&& ~~~gone
      (gone = 0#32 → exec (.exit g) s = .next s) ∧
      (gone ≠ 0#32 → tm0 bu.lat = true →
        exec (.exit g) s = .next (s.withMoved { t with slotA := none, slotB := none, stack := [] } ts bu)) ∧
      (gone ≠ 0#32 → tm0 bu.lat = false → t.stack = [] →
        exec (.exit g) s = .next (s.withMoved (setSlot t bu.slotB
          (if left = 0#32 then none else some { pc := bu.pc + 16#64, mask := left })) ts bu)) ∧
      (∀ pc m st, gone ≠ 0#32 → tm0 bu.lat = false → left = 0#32 → suspended t bu.slotB = false → t.stack = .path pc m :: st →
        (∀ r ∈ st, ∃ pc m, r = .path pc m) →
        exec (.exit g) s = .next (s.withMoved (setSlot (setStack (setSlot t bu.slotB none) st) bu.slotB (some { pc := pc, mask := m })) ts bu)) ∧
      (gone ≠ 0#32 → tm0 bu.lat = false →
        let drop := fun (r : Rec) => match r with
          | .path pc m => Rec.path pc m
          | .rejoin arr j e => if arr = e &&& ~~~gone ∧ e &&& ~~~gone ≠ 0#32 then .path (s.baseOf t + ((j.zeroExtend 64 + 1#64) <<< 4)) (e &&& ~~~gone) else .rejoin arr j (e &&& ~~~gone)
        let joined := t.stack.filterMap (fun (r : Rec) => match r, drop r with | .rejoin _ _ _, .path _ m => some m | _, _ => none)
        let settled := fun (st : List Rec) => st.dropWhile (fun (r : Rec) => match r with | .rejoin _ _ e => e == 0#32 | .path _ _ => false)
        let topJoined := t.stack.head?.any (fun (r : Rec) => match r, drop r with | .rejoin _ _ _, .path _ _ => true | _, _ => false)
        let free := (slotOf t (!bu.slotB)).isNone && !suspended t (!bu.slotB)
        ∃ s' t', exec (.exit g) s = .next s' ∧ s' = { s with strs := t' :: ts, bun := some { bu with moved := true }, nseq := s'.nseq } ∧
          t' = { t with slotA := t'.slotA, slotB := t'.slotB, stack := t'.stack, hdepth := t'.hdepth, undo := t'.undo, joins := t.joins ++ joined.map (fun m => (s.nseq, m)) } ∧
          (left ≠ 0#32 → slotOf t' bu.slotB = some { pc := bu.pc + 16#64, mask := left } ∧
            (topJoined = false ∨ free = false → slotOf t' (!bu.slotB) = slotOf t (!bu.slotB) ∧ t'.stack = settled (t.stack.map drop)) ∧
            (∀ pc m st, topJoined = true → free = true → t.stack.map drop = .path pc m :: st →
              slotOf t' (!bu.slotB) = some { pc := pc, mask := m } ∧ t'.stack = settled st)) ∧
          (left = 0#32 → slotOf t' (!bu.slotB) = slotOf t (!bu.slotB) ∧
            (∀ pc m st, suspended t bu.slotB = false → settled (t.stack.map drop) = .path pc m :: st →
              slotOf t' bu.slotB = some { pc := pc, mask := m } ∧ t'.stack = settled st) ∧
            ((∀ pc m st, settled (t.stack.map drop) ≠ .path pc m :: st) →
              slotOf t' bu.slotB = none ∧ t'.stack = settled (t.stack.map drop)))))

/-- R232 and R91: `nop` does nothing; `yield` makes the string not ready until YIELD_EXPIRY, `idle` the slot until one of its events
or IDLE_TIMEOUT; neither changes a register, a flag or a byte of memory. -/
def Obligations.NopYieldIdle : Prop :=
  ∀ (s : State) (t : Str) (ts : List Str) (bu : Bun), Issuing s t ts bu →
    exec .nop s = .next s ∧
    exec .yield s = .next { s with strs := { t with yielding := true } :: ts, agenda := s.agenda ++ [.yieldExpiry t.band t.num] } ∧
    (bu.slotB = false →
      exec .idle s = .next { s with strs := { t with idleA := true } :: ts, agenda := s.agenda ++ [.idleTimeout t.band t.num] }) ∧
    (bu.slotB = true →
      exec .idle s = .next { s with strs := { t with idleB := true } :: ts, agenda := s.agenda ++ [.idleTimeout t.band t.num] })

/-- R234, R235 and R237: `loop` with a count of zero goes on after the body; with a count it admits the first iteration, sets the
first stage predicate and clears the others in the path's lanes, and goes on with the body; `lquit` in the body, with its
guard true in some lane, stops admission; outside its contexts each raises OPCODE (R236). -/
def Obligations.LoopsStartAndQuit : Prop :=
  (∀ (a : SReg) (n1 : BitVec 6) (k1 q : BitVec 3) (s : State) (t : Str) (ts : List Str) (bu : Bun), Issuing s t ts bu →
    let c := ((readS bu.lat a.toNat).extractLsb' 0 32).toNat
    (t.loop.act = true → exec (.loop a n1 k1 q) s = .next (s.raise t bu { cause := .opcode })) ∧
    (t.loop.act = false → noTear s bu (bu.lat.wbOpen && tagS bu.lat a.toNat != .plan) →
      (c = 0 → exec (.loop a n1 k1 q) s = .next (s.withMoved
        (setSlot t bu.slotB (some { pc := bu.pc + BitVec.ofNat 64 (16 * (n1.toNat + 2)), mask := bu.mask })) ts bu)) ∧
      (c ≠ 0 → q ≠ 0#3 → q.toNat + k1.toNat ≤ 7 →
        ∃ t', exec (.loop a n1 k1 q) s = .next (s.withMoved t' ts bu) ∧
          t'.loop.act = true ∧ t'.loop.rem = c - 1 ∧ t'.loop.adm = [0] ∧ t'.loop.pass = 0 ∧ t'.loop.quit = false ∧
          t'.loop.base = (s.idxOf t bu.pc).toNat ∧ t'.loop.n1 = n1.toNat ∧ t'.loop.k1 = k1.toNat ∧ t'.loop.q = q.toNat ∧
          (∀ l, l < 32 → bu.mask.getLsbD l = true → (readP t' q.toNat).getLsbD l = true ∧
            ∀ j, 1 ≤ j → j ≤ k1.toNat → (readP t' (q.toNat + j)).getLsbD l = false) ∧
          slotOf t' bu.slotB = some { pc := bu.pc + 16#64, mask := bu.mask } ∧
          t'.v = t.v ∧ t'.sr = t.sr ∧ t'.stat = t.stat ∧ t'.stack = t.stack))) ∧
  (∀ (g : PReg) (s : State) (t : Str) (ts : List Str) (bu : Bun), Issuing s t ts bu →
    let here := inBody t bu.slotB (s.idxOf t bu.pc).toNat
    (here = false → exec (.lquit g) s = .next (s.raise t bu { cause := .opcode })) ∧
    (here = true → noTear s bu (bu.lat.wbOpen && !(guardTaint bu g).isEmpty) →
      (activeMask bu g = 0#32 → exec (.lquit g) s = .next s) ∧
      (activeMask bu g ≠ 0#32 → ∃ t', exec (.lquit g) s = .next (s.withHead t' ts) ∧
        t'.loop = { t.loop with quit := true } ∧ t' = { t with loop := t'.loop, undo := t'.undo })))

/-- R228, R229 with R40 and R41: `jtab` raises TABLE_RANGE for the lowest lane whose index is negative or not below the count; with
every index in range it first reads the distinct entries, which count on path 2 as one operation (the model's reading, log 92), the string
waiting for them. Where they have come, a path whose
lanes all go to one target moves there; else the lanes fall into groups by target, the lowest staying in the issuing slot, the next going
to the other slot if it is empty and not suspended, and the others standing on the stack in ascending order; where the stack has no room
for them DIVERGE_OVERFLOW is raised. -/
def Obligations.JumpTables : Prop :=
  ∀ (a : VReg) (b c : SReg) (s : State) (t : Str) (ts : List Str) (bu : Bun), Issuing s t ts bu →
    let cnt := (readS bu.lat c.toNat).toNat
    let base := readS bu.lat b.toNat
    let out := fun l => decide ((readV bu.lat a.toNat l).toInt < 0) || decide ((cnt : Int) ≤ (readV bu.lat a.toNat l).toInt)
    (∀ l, (lanesOf bu.mask).find? out = some l → exec (.jtab a b c) s = .next (s.raise t bu { cause := .tableRange, lane := l })) ∧
    ((lanesOf bu.mask).find? out = none → bu.mask ≠ 0#32 → noTear s bu (bu.lat.wbOpen && (lanesOf bu.mask).any (fun l => tagV bu.lat a.toNat l != .plan)) →
      let idx := sortNats ((lanesOf bu.mask).map (fun l => (readV bu.lat a.toNat l).toNat))
      (∀ s1 ents, bu.lat.jt = none → jtabCheck s t base idx [] = (s1, .ok ents) → fullPath bu.lat [2] = none →
        case6 s1 bu.lat ents (idx.map (fun i => { sp := .glob, a := (base + BitVec.ofNat 64 (4 * i)).toNat, n := 4 })) = false →
        ∃ s2 t' op, exec (.jtab a b c) s = .next s2 ∧ s2.strs = t' :: ts ∧
          t' = { bu.lat with wait := .reply s1.nextId, outst := bu.lat.outst ++ [{ o := s1.nextId, path := 2, back := false }] } ∧
          op ∈ s2.ops ∧ op.id = s1.nextId ∧ op.kind = .jtab bu.slotB base.toNat idx ∧ sameMemory s s2) ∧
      (∀ sb vals x, bu.lat.jt = some (sb, vals) → t.stack.length ≤ 256 →
        (∀ l, bu.mask.getLsbD l = true → l < 32 →
          ((vals.find? (fun y => y.1 == (readV bu.lat a.toNat l).toNat)).map (fun y => y.2)) = some x) →
        exec (.jtab a b c) s = .next (s.withMoved { setSlot t bu.slotB
          (some { pc := s.baseOf t + (BitVec.ofNat 64 x <<< 4), mask := bu.mask, bad := decide (s.lenOf t ≤ (BitVec.ofNat 64 x).toNat) }) with jt := none } ts bu)) ∧
      (∀ sb vals x y more, bu.lat.jt = some (sb, vals) →
        let tgt := fun l => ((vals.find? (fun z => z.1 == (readV bu.lat a.toNat l).toNat)).map (fun z => z.2)).getD 0
        let lanes := fun z => maskOf ((lanesOf bu.mask).filter (fun l => tgt l == z))
        let path := fun z => ({ pc := s.baseOf t + (BitVec.ofNat 64 z <<< 4), mask := lanes z, bad := decide (s.lenOf t ≤ (BitVec.ofNat 64 z).toNat) } : Path)
        let recs := fun (zs : List Nat) => zs.map (fun z => Rec.path (path z).pc (lanes z))
        let full := (slotOf t (!bu.slotB)).isSome || suspended t (!bu.slotB)
        let moves := fun (t' : Str) => exec (.jtab a b c) s = .next (s.withMoved t' ts bu) ∧ slotOf t' bu.slotB = some (path x) ∧
          t' = { t with slotA := t'.slotA, slotB := t'.slotB, stack := t'.stack, hdepth := t'.hdepth, undo := t'.undo, jt := none }
        sortNats ((lanesOf bu.mask).map tgt) = x :: y :: more →
        (full = false → t.stack.length + more.length ≤ 256 →
          ∃ t', moves t' ∧ slotOf t' (!bu.slotB) = some (path y) ∧ t'.stack = recs more ++ t.stack) ∧
        (full = true → t.stack.length + more.length + 1 ≤ 256 →
          ∃ t', moves t' ∧ slotOf t' (!bu.slotB) = slotOf t (!bu.slotB) ∧ t'.stack = recs (y :: more) ++ t.stack) ∧
        (256 < t.stack.length + more.length + (if full then 1 else 0) → exec (.jtab a b c) s = .next (s.raise t bu { cause := .divergeOverflow }))))

/-- R208 with R203, R205 and R202: a trap of a string whose traps are not masked, with a handler in its bale, first rolls the string
back to its last proof point; xtcause, xtpc and xtbad take the cause, the proof point and the trapping bundle, TM[0] is set,
the FP conditions stand in FPCOND, the handler's slot takes xtvec with its mask, and every other register stands as the rollback left it. R210, R208 and R216: a trap with traps masked, or without a handler in the bale, kills the band: it is killed
where it stands, its settlement is posted, and no byte of memory changes. -/
def Obligations.TrapEntersHandlerOrKills : Prop :=
  (
    ∀ (s : State) (b n : Nat) (i : TrapInfo) (t : Str) (bd : Band),
      s.str? b n = some t → s.band? b = some bd → bd.prof ≠ .executive → tm0 t = false →
      let gone := (s.ops.filter (fun (o : Op) => undoneBy b n t.rp.seq o && !o.sent)).map (fun (o : Op) => o.id)
      let u := rollStr t gone
      u.xtvec ≠ 0#64 → inBale s bd.bale u.xtvec = true →
      ∀ h, slotOf u u.slotA.isNone = some h →
      ∃ t', (takeTrap s b n i).str? b n = some t' ∧
        t'.xtcause = h.mask ++ BitVec.ofNat 16 i.detail ++ BitVec.ofNat 5 i.lane ++ BitVec.ofBool i.late ++ BitVec.ofNat 2 i.islot ++ BitVec.ofNat 8 i.cause.code ∧
        t'.xtpc = h.pc &&& ~~~15#64 ∧ t'.xtbad = i.bad &&& ~~~15#64 ∧
        t'.stat = setField (setField u.stat 18 1 1) 19 5 i.fpconds.toNat ∧ tm0 t' = true ∧
        slotOf t' u.slotA.isNone = some { pc := u.xtvec, mask := h.mask } ∧
        slotOf t' (!u.slotA.isNone) = slotOf u (!u.slotA.isNone) ∧ suspended t' (!u.slotA.isNone) = true ∧
        t'.v = u.v ∧ t'.sr = u.sr ∧ t'.pr = u.pr ∧ t'.stack = u.stack ∧ t'.xtvec = u.xtvec ∧ t'.buf = [] ∧ t'.undo = [] ∧
        sameMemory s (takeTrap s b n i)) ∧
  (
    ∀ (s : State) (b n : Nat) (i : TrapInfo) (t : Str) (bd : Band) (c : Nat),
      s.str? b n = some t → s.band? b = some bd → bd.prof ≠ .executive → bd.place = .resident c →
      (tm0 t = true ∨ (rollStr t ((s.ops.filter (fun (o : Op) => undoneBy b n t.rp.seq o && !o.sent)).map (fun (o : Op) => o.id))).xtvec = 0#64) →
      ∃ bd', (takeTrap s b n i).band? b = some bd' ∧ bd'.place = .killed c ∧
        (takeTrap s b n i).agenda = s.agenda ++ [.bandSettle b] ∧ sameMemory s (takeTrap s b n i))

/-- R233: `trap` raises BREAK with its code in DETAIL; with a handler the string enters it, and xtcause then reads that cause and
code. The bundle has no effect of its own, and xtpc holds the proof point. -/
def Obligations.TrapRaisesBreak : Prop :=
  ∀ (code : BitVec 12) (s : State) (t : Str) (ts : List Str) (bu : Bun) (bd : Band), Issuing s t ts bu →
    s.band? t.band = some bd → bd.prof ≠ .executive → tm0 bu.lat = false →
    let gone := (s.ops.filter (fun (o : Op) => undoneBy t.band t.num bu.lat.rp.seq o && !o.sent)).map (fun (o : Op) => o.id)
    let u := rollStr bu.lat gone
    u.xtvec ≠ 0#64 → inBale s bd.bale u.xtvec = true → ∀ h, slotOf u u.slotA.isNone = some h →
    ∃ s' t', exec (.trap code) s = .next s' ∧ s'.str? t.band t.num = some t' ∧
      (t'.xtcause.extractLsb' 0 8).toNat = 0x0D ∧ t'.xtcause.extractLsb' 16 16 = code.zeroExtend 16 ∧
      t'.xtcause.extractLsb' 32 32 = h.mask ∧ t'.xtpc = h.pc &&& ~~~15#64 ∧ t'.xtbad = bu.pc &&& ~~~15#64 ∧ tm0 t' = true ∧
      t'.v = u.v ∧ t'.sr = u.sr ∧ t'.pr = u.pr ∧ t'.buf = [] ∧
      slotOf t' u.slotA.isNone = some { pc := u.xtvec, mask := h.mask } ∧ sameMemory s s'

/-- R211: `tret` in a handler whose path has the mask of xtcause and whose stack is no deeper than at its entry goes on at xtpc
with that mask, traps unmasked and FPCOND cleared; with another mask or a deeper stack the band is killed; outside a handler OPCODE is raised. -/
def Obligations.TrapReturn : Prop :=
  ∀ (s : State) (t : Str) (ts : List Str) (bu : Bun), Issuing s t ts bu →
    (tm0 bu.lat = false → exec .tret s = .next (s.raise t bu { cause := .opcode })) ∧
    (tm0 bu.lat = true → bu.mask ≠ bu.lat.xtcause.extractLsb' 32 32 ∨ bu.lat.hdepth < bu.lat.stack.length →
      exec .tret s = .next ((killBand s t.band).endBun)) ∧
    (tm0 bu.lat = true → bu.mask = bu.lat.xtcause.extractLsb' 32 32 → bu.lat.stack.length ≤ bu.lat.hdepth →
      ∃ t', exec .tret s = .next (s.withMoved t' ts bu) ∧
        slotOf t' bu.slotB = some { pc := t.xtpc, mask := t.xtcause.extractLsb' 32 32 } ∧
        slotOf t' (!bu.slotB) = slotOf t (!bu.slotB) ∧ suspended t' (!bu.slotB) = false ∧
        t'.stat = setField t.stat 18 6 0 ∧ tm0 t' = false ∧ t'.inTrap = false ∧
        t'.v = t.v ∧ t'.sr = t.sr ∧ t'.pr = t.pr ∧ t'.stack = t.stack ∧ sameMemory s (s.withMoved t' ts bu))

/-- R243, R245, R246, R247 and R290: `rdx` of a register that is not long writes its value to s[d] and changes nothing else; `rdx` of
xlane writes the lane number to v[d] in the lanes of the path; a long register is owed under the lookahead. xspan needs system rights
(R244). Each register's value is given, field by field where it has fields. That xwb.FALLBACK reads 1 in the normal run of a faulted replay
band is the model's reading (log 111). -/
def Obligations.ReadingSystemRegisters : Prop :=
  (∀ (d : BitVec 7) (idx : BitVec 10) (la : BitVec 4) (s : State) (t : Str) (ts : List Str) (bu : Bun), Issuing s t ts bu →
    (idx ≠ 0x041#10 ∨ modeOf bu.lat = true) →
    (idx ≠ 0x017#10 → sysLong idx.toNat = false →
      ∃ t', exec (.rdx d idx la) s = .next (s.withHead t' ts) ∧ WritesS s t t' d.toNat (sysRead s bu.lat idx.toNat) ∧
        sameMemory s (s.withHead t' ts)) ∧
    (idx = 0x017#10 → (s.profOf t = .lane ∨ s.profOf t = .array) →
      ∃ t', exec (.rdx d idx la) s = .next (s.withHead t' ts) ∧
        (∀ r l, l < 32 → readV t' r l = if r = d.toNat ∧ bu.mask.getLsbD l = true then BitVec.ofNat 32 l else readV t r l) ∧
        t' = { t with v := t'.v, vtag := t'.vtag, undo := t'.undo }) ∧
    (sysLong idx.toNat = true →
      ∃ s' t' ow, exec (.rdx d idx la) s = .next s' ∧ s'.strs = t' :: ts ∧ t'.owed = t.owed ++ [ow] ∧ ow.left = la.toNat ∧
        ow.dst = .s d.toNat ∧ ow.val = none ∧ (∃ op ∈ s'.ops, op.id = ow.o ∧ op.kind = .calc [sysRead s bu.lat idx.toNat]) ∧
        t' = { t with owed := t'.owed, undo := t'.undo } ∧ sameMemory s s')) ∧
  (∀ (s : State) (t : Str) (bd : Band), s.band? t.band = some bd →
    sysRead s t 0x000 = t.stat ∧ sysRead s t 0x001 = t.xtvec ∧ sysRead s t 0x002 = t.xtcause ∧ sysRead s t 0x003 = t.xtpc ∧
    sysRead s t 0x004 = t.xtbad ∧ (sysRead s t 0x005).toNat = t.rcp.seen.toNat ∧ sysRead s t 0x006 = BitVec.ofNat 64 bd.xswap ∧
    sysRead s t 0x010 = BitVec.ofNat 64 t.num ∧ sysRead s t 0x011 = BitVec.ofNat 64 bd.nstr ∧ sysRead s t 0x012 = BitVec.ofNat 64 bd.bx ∧
    sysRead s t 0x013 = BitVec.ofNat 64 bd.byy ∧ sysRead s t 0x014 = BitVec.ofNat 64 bd.bz ∧
    (bd.prof ≠ .executive → sysRead s t 0x008 = (BitVec.ofNat 64 (t.undo.length % 256) <<< 8) ||| BitVec.ofNat 64 (t.buf.length % 256)) ∧
    (bd.prof = .lane ∨ bd.prof = .array → sysRead s t 0x00A = t.benchb ∧ sysRead s t 0x00B = t.benchl) ∧
    sysRead s t 0x00F = 0#64 ∧ sysRead s t 0x3FF = 0#64 ∧
    (∀ p, p < 7 → (sysRead s t 0x007).extractLsb' (8 * p) 8 = BitVec.ofNat 8 (pathCount t p)) ∧ (sysRead s t 0x007).extractLsb' 56 8 = 0#8 ∧
    (∀ ln, s.launch? bd.launch = some ln →
      let x := sysRead s t 0x009
      x.extractLsb' 32 32 = BitVec.ofNat 32 ln.handle ∧ x.extractLsb' 16 16 = 0#16 ∧ x.extractLsb' 5 3 = 0#3 ∧
      x.extractLsb' 8 8 = BitVec.ofNat 8 (if ln.busy then 9 else if bd.torn then bd.tcause else 0) ∧ x.getLsbD 4 = t.wbStrict ∧
      x.getLsbD 3 = (bd.torn && !ln.busy) ∧ x.getLsbD 2 = t.wbOpen ∧ x.getLsbD 1 = (ln.fallback || bd.plain) ∧ x.getLsbD 0 = s.records t.band) ∧
    (bd.prof ≠ .executive →
      let x := sysRead s t 0x00C
      x.extractLsb' 32 32 = BitVec.ofNat 32 t.loop.rem ∧ x.getLsbD 31 = t.loop.act ∧ x.getLsbD 30 = t.loop.quit ∧ x.extractLsb' 24 6 = BitVec.ofNat 6 t.loop.n1 ∧
      x.extractLsb' 21 3 = BitVec.ofNat 3 t.loop.k1 ∧ x.extractLsb' 18 3 = BitVec.ofNat 3 t.loop.q ∧ x.extractLsb' 0 18 = BitVec.ofNat 18 t.loop.pass) ∧
    (∀ c, bd.place = .resident c → c < 64 → sysRead s t 0x015 = BitVec.ofNat 64 c) ∧
    (sysRead s t 0x016).extractLsb' 0 4 = BitVec.ofNat 4 bd.die ∧ (sysRead s t 0x016).extractLsb' 8 4 = BitVec.ofNat 4 s.dev ∧
    (sysRead s t 0x016).extractLsb' 4 4 = 0#4 ∧ (sysRead s t 0x016).extractLsb' 12 52 = 0#52 ∧
    (∃ k, k ≤ 16 ∧ sysRead s t 0x018 = s.clk + BitVec.ofNat 64 k - 8#64) ∧
    (∀ st, (bd.prof = .lane ∨ bd.prof = .array) → s.site? bd.die = some st →
      let x := sysRead s t 0x019
      x.getLsbD 16 = st.upper ∧ x.extractLsb' 8 8 = 8#8 ∧ x.extractLsb' 0 8 = BitVec.ofNat 8 st.capMiB ∧ x.extractLsb' 17 47 = 0#47) ∧
    (bd.prof = .control → sysRead s t 0x019 = 0#64) ∧
    (∀ ba, s.bale? bd.bale = some ba → sysRead s t 0x01A = ba.base &&& ~~~0xFFFF#64) ∧
    (bd.prof ≠ .executive → ∀ i, i < 4 → sysRead s t (0x020 + i) = t.xwa.getD i 0#64 ∧ sysRead s t (0x024 + i) = t.xwc.getD i 0#64) ∧
    (∀ c, s.ctx? bd.ctx = some c →
      let x := sysRead s t 0x040
      x.getLsbD 17 = c.pinned ∧ x.getLsbD 16 = c.conf ∧ x.extractLsb' 0 12 = BitVec.ofNat 12 bd.ctx ∧ x.extractLsb' 12 4 = 0#4 ∧ x.extractLsb' 18 46 = 0#46) ∧
    (∀ c, s.ctx? t.spanSel.toNat = some c → c.spanBase.extractLsb' 52 12 = 0#12 →
      (sysRead s t 0x041).extractLsb' 52 12 = t.spanSel ∧ (sysRead s t 0x041).extractLsb' 0 52 = c.spanBase.extractLsb' 0 52) ∧
    (let x := sysRead s t 0x042
     x.extractLsb' 48 16 = BitVec.ofNat 16 (min t.tkCount 0xFFFF) ∧ x.extractLsb' 32 8 = BitVec.ofNat 8 t.tkLast ∧ x.extractLsb' 0 32 = t.tkId ∧
     ∀ c k, bd.place = .resident c → s.core? bd.die c = some k → x.extractLsb' 40 8 = BitVec.ofNat 8 k.tickets.length))

/-- R243, R245, R246, R248, R257, R114 and R52: `wrx` writes the writable fields of a register, with its undo entry, and leaves a
read-only register alone; xstat takes its RW bits and the bundle's own flags; a recipe write waits for four issued bundles; xswap
is the band's and is clamped; of xwb STRICT alone is written; the bench bounds are written on lane and array cores alone, clipped to
the allocation, and the watchpoints outside the executive profile. A write to xspan with system rights stores the base for its context
and drops that context's translations, and one that selects context 0 is ignored (R300, R250). R253: `xmask` reads the old TM[0] into s[d] and sets TM[0] to bit 0 of s[a]; no other field of xstat changes. -/
def Obligations.WritingSystemRegistersAndMask : Prop :=
  (
    ∀ (d : SReg) (idx : BitVec 10) (r : BitVec 10) (s : State) (t : Str) (ts : List Str) (bu : Bun) (bd : Band), Issuing s t ts bu →
      s.band? t.band = some bd →
      let lanes := bd.prof = .lane ∨ bd.prof = .array
      let v := readS bu.lat d.toNat
      let clip := if v.toNat ≤ bd.benchBytes then v else BitVec.ofNat 64 bd.benchBytes
      (idx = 0x000#10 → exec (.wrx d idx) s = .next (s.withHead { t with undo := .sys 0 t.stat :: t.undo, stat := orFlags ((t.stat &&& ~~~0x7FFE0#64) ||| (v &&& 0x7FFE0#64)) bu.flags } ts)) ∧
      (idx = 0x001#10 → exec (.wrx d idx) s = .next (s.withHead { t with undo := .sys 1 t.xtvec :: t.undo, xtvec := v &&& ~~~15#64 } ts)) ∧
      (idx = 0x003#10 → exec (.wrx d idx) s = .next (s.withHead { t with undo := .sys 3 t.xtpc :: t.undo, xtpc := v &&& ~~~15#64 } ts)) ∧
      (idx = 0x005#10 → exec (.wrx d idx) s = .next (s.withHead { t with undo := .rcp t.rcp :: t.undo, rcp := { seen := t.rcp.seen, new := v.extractLsb' 0 10, left := 6 } } ts)) ∧
      exec (.setrcp r) s = .next (s.withHead { t with undo := .rcp t.rcp :: t.undo, rcp := { seen := t.rcp.seen, new := r, left := 6 } } ts) ∧
      (idx = 0x009#10 → exec (.wrx d idx) s = .next (s.withHead { t with undo := .sys 9 (if t.wbStrict then 16#64 else 0#64) :: t.undo, wbStrict := v.getLsbD 4 } ts)) ∧
      (idx = 0x00A#10 → lanes → exec (.wrx d idx) s = .next (s.withHead { t with undo := .sys 0x00A t.benchb :: t.undo, benchb := clip } ts)) ∧
      (idx = 0x00B#10 → lanes → exec (.wrx d idx) s = .next (s.withHead { t with undo := .sys 0x00B t.benchl :: t.undo, benchl := clip } ts)) ∧
      ((idx = 0x00A#10 ∨ idx = 0x00B#10) → ¬lanes → exec (.wrx d idx) s = .next (s.withHead t ts)) ∧
      (0x020 ≤ idx.toNat → idx.toNat ≤ 0x027 → bd.prof = .executive → exec (.wrx d idx) s = .next (s.withHead t ts)) ∧
      (0x020 ≤ idx.toNat → idx.toNat ≤ 0x023 → bd.prof ≠ .executive → ∃ t', exec (.wrx d idx) s = .next (s.withHead t' ts) ∧
        t'.xwa = t.xwa.set (idx.toNat - 0x020) v ∧ t' = { t with xwa := t'.xwa, undo := t'.undo }) ∧
      (0x024 ≤ idx.toNat → idx.toNat ≤ 0x027 → bd.prof ≠ .executive → ∃ t', exec (.wrx d idx) s = .next (s.withHead t' ts) ∧
        t'.xwc = t.xwc.set (idx.toNat - 0x024) (v &&& 0xFF1F#64) ∧ t' = { t with xwc := t'.xwc, undo := t'.undo }) ∧
      (idx = 0x006#10 → exec (.wrx d idx) s = .next (s.modBand t.band (fun b =>
        { b with xswap := max 1024 (min v.toNat 16777216) }))) ∧
      ((idx = 0x002#10 ∨ idx = 0x004#10 ∨ idx = 0x007#10 ∨ idx = 0x008#10 ∨ idx = 0x00C#10 ∨ (0x010 ≤ idx.toNat ∧ idx.toNat ≤ 0x01A) ∨ idx = 0x040#10 ∨ idx = 0x042#10) →
        exec (.wrx d idx) s = .next (s.withHead t ts)) ∧
      (idx = 0x041#10 → modeOf bu.lat = true →
        let sel := v.extractLsb' 52 12
        (sel = 0#12 → exec (.wrx d idx) s = .next s) ∧
        (sel ≠ 0#12 → ∃ s' t', exec (.wrx d idx) s = .next s' ∧ s' = { s with strs := s'.strs, cores := s'.cores, ctxs := s'.ctxs } ∧
          s'.strs.head? = some t' ∧ t' = { t with undo := .sys 0x041 (t.spanSel.zeroExtend 64) :: t.undo, spanSel := sel, lspan := t'.lspan } ∧
          (∀ c, s.ctx? sel.toNat = some c → s'.ctx? sel.toNat = some { c with spanBase := v &&& 0xFFFFFFFE0000#64, spangen := c.spangen + 1 }) ∧
          (∀ j, j ≠ sel.toNat → s'.ctx? j = s.ctx? j) ∧ (∀ k ∈ s'.cores, ∀ x ∈ k.spans, x.1 ≠ sel.toNat) ∧
          (∀ u ∈ s'.strs, ctxOf s u.band = sel.toNat → u.lspan = [])))) ∧
  (
    ∀ (d a : SReg) (s : State) (t : Str) (ts : List Str) (bu : Bun), Issuing s t ts bu →
      ∃ t', exec (.xmask d a) s = .next (s.withHead t' ts) ∧
        (d ≠ 0#6 → readS t' d.toNat = BitVec.ofNat 64 (tm0 bu.lat).toNat) ∧
        (∀ r, r ≠ d.toNat → readS t' r = readS t r) ∧
        tm0 t' = (readS bu.lat a.toNat).getLsbD 0 ∧ (∀ i, i ≠ 18 → t'.stat.getLsbD i = t.stat.getLsbD i) ∧
        t' = { t with sr := t'.sr, stag := t'.stag, stat := t'.stat, undo := t'.undo } ∧ sameMemory s (s.withHead t' ts))

/-- R244, R250, R252 and R300: without system rights `spinv`, `hsamp` and the accesses to xspan raise PRIVILEGE, with the index of the
register in DETAIL, in a context that is not confidential; with them `spinv` drops the span translations of its range on every core
and string of the context and raises its span generation, and `hsamp` sets its context's sampling. That both complete at issue, with no wait for the
acknowledgements of R250 and R252, is the model's choice (log 16). R251: `flush` and `inv` of a range that is not aligned to lines, is empty or is longer than 2^24 raise ALIGN; with a valid range the
dirty lines in it that the core's cache holds are posted for their write-back, the string waits for them, and `inv` leaves the core no
line of the range. No
register and no byte of memory changes. -/
def Obligations.PrivilegedAndCacheInstructions : Prop :=
  (
    ∀ (a b d : SReg) (la : BitVec 4) (s : State) (t : Str) (ts : List Str) (bu : Bun) (bd : Band) (c : Ctx), Issuing s t ts bu →
      s.band? t.band = some bd → s.ctx? bd.ctx = some c →
      let refusedWith := fun (k : Nat) => s.raise t bu { cause := .privilege, detail := k }
      (modeOf bu.lat = false → bd.prof ≠ .executive → c.conf = false →
        exec (.spinv a b) s = .next (refusedWith 0) ∧ exec (.hsamp a b) s = .next (refusedWith 0) ∧
        exec (.wrx d 0x041#10) s = .next (refusedWith 0x041) ∧ exec (.rdx (d.zeroExtend 7) 0x041#10 la) s = .next (refusedWith 0x041)) ∧
      (modeOf bu.lat = true →
        (∃ s', exec (.spinv a b) s = .next s' ∧
          (s'.ctx? bd.ctx).map (fun (x : Ctx) => x.spangen) = some (c.spangen + 1) ∧
          (∀ (k : Core) (x : Nat × Nat × Word64), k ∈ s'.cores → x ∈ k.spans → x.1 = bd.ctx → (readS bu.lat b.toNat).toNat ≠ 0 →
            ¬((readS bu.lat a.toNat).toNat / 2 ^ 21 ≤ x.2.1 ∧ x.2.1 < (readS bu.lat a.toNat).toNat / 2 ^ 21 + (readS bu.lat b.toNat).toNat)) ∧
          sameMemory s s') ∧
        (∃ s', exec (.hsamp a b) s = .next s' ∧
          (s'.ctx? bd.ctx).map (fun (x : Ctx) => x.sampler) = some (sampling (readS bu.lat a.toNat) (readS bu.lat b.toNat)) ∧
          s'.strs = s.strs ∧ sameMemory s s'))) ∧
  (
    ∀ (a b : SReg) (s : State) (t : Str) (ts : List Str) (bu : Bun), Issuing s t ts bu →
      let x := (readS bu.lat a.toNat).toNat
      let n := (readS bu.lat b.toNat).toNat
      (x % 128 ≠ 0 ∨ n % 128 ≠ 0 ∨ n < 128 ∨ 2 ^ 24 < n →
        exec (.flush a b) s = .next (s.raise t bu { cause := .align }) ∧ exec (.inv a b) s = .next (s.raise t bu { cause := .align })) ∧
      (x % 128 = 0 → n % 128 = 0 → 128 ≤ n → n ≤ 2 ^ 24 → x + n ≤ 2 ^ 48 →
        ∀ s1 ents st, checkSpans s t (fun _ => none) (spansOf x n) [] = (s1, .ok ents) → s1.site? (s1.seat t).1 = some st →
        (∃ s', exec (.flush a b) s = .next s' ∧ s'.strs = { t with waitX := some s1.nextId } :: ts ∧
          s'.agenda = s1.agenda ++ (st.lines.filter (fun (c : CLine) => inRange s1 ents x n c && c.cores.contains (s1.seat t).2 && c.dirty && !c.wb)).map (putEvent (s1.seat t).1) ∧
          sameMemory s s') ∧
        (∃ s', exec (.inv a b) s = .next s' ∧ s'.strs = { t with waitX := some s1.nextId } :: ts ∧
          (∀ st', s'.site? (s1.seat t).1 = some st' → ∀ c ∈ st'.lines, inRange s1 ents x n c = true → (s1.seat t).2 ∉ c.cores) ∧
          s'.agenda = s1.agenda ++ (st.lines.filter (fun (c : CLine) => inRange s1 ents x n c && c.cores.contains (s1.seat t).2 && c.dirty && !c.wb)).map (putEvent (s1.seat t).1) ∧
          sameMemory s s')))

/-- R177, R179 and R47 to R49: a load whose lanes pass the checks of R181, touch no watchpoint, find its path counters below 255 and no
withheld `put`, `sig` or atomic in the way (R59) is issued: an operation with the lanes and their addresses counts on its path, and
its result is owed to the destination group under the lookahead. With no active lane it owes nothing. No byte of memory changes. That it counts
once on each path, whatever verbs carry it, is the model's reading (log 92). -/
def Obligations.LoadsIssue : Prop :=
  ∀ (g : PReg) (d : VReg) (base : BitVec 6) (vb : Bool) (w : BitVec 3) (ord la : BitVec 4) (off : BitVec 5),
    LoadResult (.ldG g d base vb w ord la off) .glob g d base vb w ord la off ∧
    LoadResult (.ldP g d base vb w ord la off) .pantry g d base vb w ord la off ∧
    LoadResult (.ldB g d base vb w ord la off) .bench g d base vb w ord la off

/-- R177 to R179, R58 and R60: a store whose lanes pass the checks, touch no watchpoint and find the counters below 255 is issued: its
bytes are withheld in the string's buffer, at the addresses that its base and offset give, the highest lane's where several write one
address, beside the entries and bytes already held, and nothing of memory changes before the proof release. -/
def Obligations.StoresAreWithheld : Prop :=
  ∀ (g : PReg) (d : VReg) (base : BitVec 6) (vb : Bool) (w : BitVec 3) (ord : BitVec 4) (colour : BitVec 3) (off : BitVec 5),
    StoreResult (.stG g d base vb w ord colour off) .glob g d base vb w off ∧
    StoreResult (.stP g d base vb w ord colour off) .pantry g d base vb w off ∧
    StoreResult (.stB g d base vb w ord colour off) .bench g d base vb w off

/-- R186, R187 with R58 and R49: an atomic that passes the checks is issued: a returning one, where every earlier entry of the string
has drained, as an operation whose old values are owed to the destination; any other as withheld descriptors, one for each line.
That it counts once on each path is the model's reading (log 92). Nothing of memory changes at issue. R187: the new value of each read-modify-write, for 8-byte operands and for 4-byte operands: sum, signed and unsigned minima and maxima,
bitwise, exchange, compare and exchange, and the two wrapping counters; on 4 bytes the sum wraps at 32 bits. -/
def Obligations.AtomicsIssueAndApply : Prop :=
  (
    ∀ (g : PReg) (d : VReg) (base : BitVec 6) (vb : Bool) (op ord : BitVec 4) (sz rt : Bool) (off : BitVec 5),
      AtomResult (.atomG g d base vb op ord sz rt off) .glob g d base vb op sz rt off ∧
      AtomResult (.atomP g d base vb op ord sz rt off) .pantry g d base vb op sz rt off ∧
      AtomResult (.atomB g d base vb op ord sz rt off) .bench g d base vb op sz rt off) ∧
  (
    (∀ (old x y : Word64),
      atomNew 0 true old x y = BitVec.ofNat 64 (old.toNat + x.toNat) ∧
      (atomNew 1 true old x y).toInt = min old.toInt x.toInt ∧ (atomNew 2 true old x y).toInt = max old.toInt x.toInt ∧
      (atomNew 3 true old x y).toNat = min old.toNat x.toNat ∧ (atomNew 4 true old x y).toNat = max old.toNat x.toNat ∧
      atomNew 5 true old x y = old &&& x ∧ atomNew 6 true old x y = old ||| x ∧ atomNew 7 true old x y = old ^^^ x ∧
      atomNew 8 true old x y = x ∧ atomNew 9 true old x y = (if old = x then y else old) ∧
      (atomNew 10 true old x y).toNat = (if x.toNat ≤ old.toNat then 0 else old.toNat + 1) ∧
      (atomNew 11 true old x y).toNat = (if old.toNat = 0 ∨ x.toNat < old.toNat then x.toNat else old.toNat - 1)) ∧
    (∀ (old x y : Word32),
      let new := fun (op : Nat) => atomNew op false (old.zeroExtend 64) (x.zeroExtend 64) (y.zeroExtend 64)
      let is := fun (op : Nat) (r : Word32) => new op = r.zeroExtend 64
      is 0 (BitVec.ofNat 32 (old.toNat + x.toNat)) ∧
      is 1 (BitVec.ofInt 32 (min old.toInt x.toInt)) ∧ is 2 (BitVec.ofInt 32 (max old.toInt x.toInt)) ∧
      is 3 (BitVec.ofNat 32 (min old.toNat x.toNat)) ∧ is 4 (BitVec.ofNat 32 (max old.toNat x.toNat)) ∧
      is 5 (old &&& x) ∧ is 6 (old ||| x) ∧ is 7 (old ^^^ x) ∧ is 8 x ∧ is 9 (if old = x then y else old) ∧
      is 10 (if x.toNat ≤ old.toNat then 0#32 else old + 1#32) ∧ is 11 (if old.toNat = 0 ∨ x.toNat < old.toNat then x else old - 1#32)))

/-- R163, R164 with R58 and R156: `fence.rel` stands as a mark among the withheld entries, `fence.acq` marks the point after which
accesses wait for the reads before it, and `fence.full` goes on where every earlier access is released and performed, or may count as
performed at its scope, which is the model's reading (log 65); otherwise what is withheld is released and the string waits. No register
and no byte of memory changes. R196 with R49: `waitc` goes on while its path counter is at most its threshold, an immediate or the value of s[a]; with the
counter above it, what is withheld is released and the string waits for the counter. -/
def Obligations.FencesAndCounterWaits : Prop :=
  (
    ∀ (sc : BitVec 6) (m : BitVec 8) (s : State) (t : Str) (ts : List Str) (bu : Bun), Issuing s t ts bu →
      (∃ e, exec (.fenceRel sc m) s = .next { s with strs := { t with buf := t.buf ++ [e] } :: ts, nextId := s.nextId + 1, nseq := s.nseq + 1 } ∧
        e.kind = .fence sc.toNat m ∧ e.seq = s.nseq ∧ e.ops = []) ∧
      exec (.fenceAcq sc) s = .next { s with nseq := s.nseq + 1, strs := { t with acqMarks := if sc = 0#6 then t.acqMarks else t.acqMarks ++ [(s.nseq, sc.toNat)] } :: ts } ∧
      (bu.lat.buf = [] → accessesDone s t.band t.num bu.seq = true → s.narrower t.band t.num sc.toNat = false → exec (.fenceFull sc) s = .next s) ∧
      (bu.lat.buf = [] → sc ≠ 0#6 → claimAll s t.band t.num bu.seq sc.toNat = true →
        ∃ s', exec (.fenceFull sc) s = .next s' ∧ s' = { s with ops := s'.ops, rels := s'.rels } ∧ sameMemory s s') ∧
      (sc ≠ 0#6 → bu.lat.buf ≠ [] ∨ drainOver s t.band t.num sc.toNat bu.seq = false → noTearHeld s bu →
        ∃ s' t', exec (.fenceFull sc) s = .next s' ∧ s'.str? t.band t.num = some t' ∧ t'.wait = .drain sc.toNat bu.seq ∧ t'.buf = [] ∧
          (∀ e ∈ bu.lat.buf, (t.band, t.num, e) ∈ s'.rels) ∧ t'.v = bu.lat.v ∧ t'.sr = bu.lat.sr ∧ t'.pr = bu.lat.pr ∧ sameMemory s s')) ∧
  (
    ∀ (p : BitVec 3) (n : BitVec 8) (a : SReg) (s : State) (t : Str) (ts : List Str) (bu : Bun), Issuing s t ts bu →
      let recorded := 4 ≤ p.toNat ∧ p.toNat ≤ 6
      let cnt := pathCount bu.lat p.toNat
      let reg := (readS bu.lat a.toNat).toNat
      let waits := fun (o : Host.Outcome State Fault Refusal) (thr : Nat) =>
        noTearHeld s bu → ∃ s' t', o = .next s' ∧ s'.str? t.band t.num = some t' ∧ t'.wait = .path p.toNat thr ∧ t'.buf = [] ∧ (∀ e ∈ bu.lat.buf, (t.band, t.num, e) ∈ s'.rels) ∧ sameMemory s s'
      (cnt ≤ n.toNat → ¬recorded → exec (.waitcImm p n) s = .next s) ∧
      (cnt ≤ n.toNat → recorded → exec (.waitcImm p n) s = .next (s.modBun (fun x => { x with recWait := some (p.toNat, n.toNat, .plan) }))) ∧
      (n.toNat < cnt → waits (exec (.waitcImm p n) s) n.toNat) ∧
      (noTear s bu (bu.lat.wbOpen && tagS bu.lat a.toNat == .data) →
        (cnt ≤ reg → ¬recorded → exec (.waitcReg p a) s = .next s) ∧
        (cnt ≤ reg → recorded → exec (.waitcReg p a) s = .next (s.modBun (fun x => { x with recWait := some (p.toNat, reg, tagS bu.lat a.toNat) }))) ∧
        (reg < cnt → waits (exec (.waitcReg p a) s) reg)))

/-- R192 to R194 with R166: a string whose earlier accesses are performed arrives at a slot of its band's barriers: the slot counts
it, the string's token takes the slot's generation, and the arrival that makes the count completes the slot: its generation
rises, the count and the mask clear, and no string waits on it. A second arrival in one generation waits. `bar.wait` compares
the slot's generation with the token or, without one, with the generation when the bundle issued first: it goes on where they differ and
waits where they agree; `bar.sync` arrives and is left pending unless the slot has
completed, its token kept till then; `bar.cnt` sets what the slot expects, between 1 and the band's strings. R195 with R194: `gbar` of a string whose earlier accesses are performed counts it in its band and leaves the bundle pending while
another live string of the band has not come; the last string of the last band completes the launch barrier, and the bundle is over. -/
def Obligations.BandAndLaunchBarriers : Prop :=
  (
    ∀ (k : BitVec 4) (b : SReg) (s : State) (t : Str) (ts : List Str) (bu : Bun) (bd : Band) (y : Bar), Issuing s t ts bu →
      s.band? t.band = some bd → bd.bars[k.toNat]? = some y → t.num < 32 →
      let drained := bu.lat.buf = [] ∧ accessesDone s t.band t.num bu.seq = true ∧ s.narrower t.band t.num 1 = false
      let after := if y.cnt + 1 < y.exp then { y with arr := y.arr ||| (1#32 <<< t.num), cnt := y.cnt + 1 } else { y with gen := y.gen + 1#16, arr := 0#32, cnt := 0 }
      let g := (smGet none bu.lat.tok k.toNat).getD ((waitGen bu.lat bu.slotB bu.pc k.toNat).getD y.gen)
      let others := fun (s' : State) => (∀ j, j ≠ k.toNat → s'.bar t.band j = s.bar t.band j) ∧ sameMemory s s'
      let free := fun (s' : State) => y.exp ≤ y.cnt + 1 → ∀ u ∈ s'.strs, u.band = t.band → ∀ g a, u.wait ≠ .bar k.toNat g a
      (drained → y.arr.getLsbD t.num = false →
        (∃ s' t', exec (.barArr k) s = .next s' ∧ s'.bar t.band k.toNat = after ∧ others s' ∧ free s' ∧ s'.bun = s.bun ∧
          s'.str? t.band t.num = some t' ∧ smGet none t'.tok k.toNat = some y.gen) ∧
        (∃ s', exec (.barSync k) s = .next s' ∧ s'.bar t.band k.toNat = after ∧ others s' ∧ free s' ∧
          (s'.str? t.band t.num).map (fun (u : Str) => smGet none u.tok k.toNat) = some (if y.cnt + 1 < y.exp then some y.gen else none) ∧
          s'.bun = if y.cnt + 1 < y.exp then some { bu with pend := some (some (k.toNat, y.gen), 0) } else some bu)) ∧
      (drained → y.arr.getLsbD t.num = true → noTearHeld s bu →
        (∃ s' t', exec (.barArr k) s = .next s' ∧ s'.str? t.band t.num = some t' ∧ t'.wait = .bar k.toNat y.gen true ∧ s'.bar t.band k.toNat = y) ∧
        (∃ s' t', exec (.barSync k) s = .next s' ∧ s'.str? t.band t.num = some t' ∧ t'.wait = .bar k.toNat y.gen true ∧ s'.bar t.band k.toNat = y)) ∧
      (g ≠ y.gen → exec (.barWait k) s = .next (s.withHead { dropWaitGen bu.slotB bu.pc t with tok := smPut none t.tok k.toNat none } ts)) ∧
      (g = y.gen → noTearHeld s bu →
        ∃ s' t', exec (.barWait k) s = .next s' ∧ s'.str? t.band t.num = some t' ∧ t'.wait = .bar k.toNat y.gen false ∧
          waitGen t' bu.slotB bu.pc k.toNat = some y.gen ∧ t'.tok = bu.lat.tok) ∧
      (1 ≤ bd.nstr → ∃ s', exec (.barCnt k b) s = .next s' ∧ others s' ∧
        let e := max 1 (min (readS bu.lat b.toNat).toNat bd.nstr)
        s'.bar t.band k.toNat = if e ≤ y.cnt then { exp := e, gen := y.gen + 1#16, arr := 0#32, cnt := 0 } else { y with exp := e })) ∧
  (
    ∀ (s : State) (t : Str) (ts : List Str) (bu : Bun) (bd : Band) (ln : Launch), Issuing s t ts bu →
      s.band? t.band = some bd → s.launch? bd.launch = some ln → ln.gbarCnt = bd.gbarCnt →
      bu.lat.buf = [] → accessesDone s t.band t.num bu.seq = true → s.narrower t.band t.num 3 = false →
      ((∃ u ∈ s.strs, u.band = t.band ∧ u.ended = false ∧ u.num ≠ t.num ∧ u.num ∉ bd.gbarArr) →
        exec .gbar s = .next ((s.modBand t.band (fun x => { x with gbarArr := t.num :: x.gbarArr })).modBun
          (fun x => { x with pend := some (none, bd.gbarCnt + 1) }))) ∧
      ((∀ u ∈ s.strs, u.band = t.band → u.ended = false → u.num = t.num ∨ u.num ∈ bd.gbarArr) →
        (∀ x ∈ s.bands, x.id = t.band → x = bd) → bd.place ≠ .ended →
        (∀ x ∈ s.bands, x.launch = bd.launch → x.id ≠ t.band → x.place = .ended ∨ x.gbarCnt = ln.gbarCnt + 1) →
        ln.stopped = true ∨ ln.x * ln.y * ln.z ≤ ln.next →
        ∃ s', exec .gbar s = .next s' ∧ (s'.launch? bd.launch).map (fun (l : Launch) => l.gbarCnt) = some (ln.gbarCnt + 1) ∧
          s'.bun = some bu ∧ sameMemory s s'))

/-- R197 to R199: `put` and `get` of addresses and lengths that are not multiples of 8, of no bytes or of more than 65,536, and `sig`
to an address that is no multiple of 8, raise ALIGN. R197 to R199 with R49 and R58: a verb whose checks pass, that touches no watchpoint, finds the counter of path 3 below 255 and tears
no recording, counts on path 3: `put` and `sig` are withheld, `get` is sent, as an operation between the addresses that its
registers give. Nothing of memory changes at issue. -/
def Obligations.RemoteVerbs : Prop :=
  (
    ∀ (d a b : SReg) (s : State) (t : Str) (ts : List Str) (bu : Bun), Issuing s t ts bu →
      let bad := fun (x y n : Word64) => x.toNat % 8 ≠ 0 ∨ y.toNat % 8 ≠ 0 ∨ n.toNat = 0 ∨ n.toNat % 8 ≠ 0 ∨ 65536 < n.toNat
      let trap := Host.Outcome.next (s.raise t bu { cause := .align })
      (bad (readS bu.lat d.toNat) (readS bu.lat a.toNat) (readS bu.lat b.toNat) → exec (.put d a b) s = trap ∧ exec (.get d a b) s = trap) ∧
      ((readS bu.lat d.toNat).toNat % 8 ≠ 0 → exec (.sig d a) s = trap)) ∧
  (
    ∀ (d a b : SReg) (s : State) (t : Str) (ts : List Str) (bu : Bun) (s1 : State) (x : Nat) (ents : List (Nat × Word64)), Issuing s t ts bu →
      let sp := localSpace s1 t
      let rd := readS bu.lat d.toNat
      let ra := readS bu.lat a.toNat
      let n := (readS bu.lat b.toNat).toNat
      let sized := rd.toNat % 8 = 0 ∧ ra.toNat % 8 = 0 ∧ n ≠ 0 ∧ n % 8 = 0 ∧ n ≤ 65536
      let went := fun (s2 : State) (t' : Str) => s2.strs = t' :: ts ∧ t'.outst = t.outst ++ [{ o := s1.nextId, path := 3, back := false }] ∧
        t' = { t with buf := t'.buf, outst := t'.outst, lspan := t'.lspan } ∧ sameMemory s s2
      fullPath bu.lat [3] = none →
      (sized → resolvePantry s t rd n = .ok x → checkLocal s t bu.lat ra n needR = (s1, .ok ents) →
        watchAny s1 t bu.lat [(0, sp, true, false, ra.toNat, n), (0, .pantry, false, true, x, n)] = none → noTear s1 bu true →
        ∃ s2 t' e op, exec (.put d a b) s = .next s2 ∧ went s2 t' ∧ t'.buf = t.buf ++ [e] ∧ e.kind = .put ∧ e.ops = [s1.nextId] ∧
          op ∈ s2.ops ∧ op.id = s1.nextId ∧ op.kind = .copy sp .pantry ra.toNat x n false ∧ op.left = 1) ∧
      (sized → resolvePantry s t ra n = .ok x → checkLocal s t bu.lat rd n needW = (s1, .ok ents) →
        watchAny s1 t bu.lat [(0, sp, false, true, rd.toNat, n), (0, .pantry, true, false, x, n)] = none → noTear s1 bu true →
        case6 s1 bu.lat [] [{ sp := .pantry, a := x, n := n }] = false →
        ∃ s2 t' op, exec (.get d a b) s = .next s2 ∧ went s2 t' ∧ t'.buf = t.buf ∧ op ∈ s2.ops ∧ op.id = s1.nextId ∧
          op.kind = .copy .pantry sp x rd.toNat n false) ∧
      (s1 = s → rd.toNat % 8 = 0 → resolvePantry s t rd 8 = .ok x → watchAny s t bu.lat [(0, .pantry, false, true, x, 8)] = none → noTear s bu true →
        ∃ s2 t' e, exec (.sig d a) s = .next s2 ∧ went s2 t' ∧ t'.buf = t.buf ++ [e] ∧ e.kind = .sig x ra ∧ e.ops = [s.nextId]))

/-- R287 with R285 and R58: `wbrec` opens the bracket of a recording and `wbend` closes it; `ldarg` writes the word of the launch's
argument copy; `wbdrop` is withheld with its handle and counts on path 6; `wbseal` of a readable address issues a load that counts on
path 6 and owes s[d]. No byte of memory changes. -/
def Obligations.WaybillBracket : Prop :=
  ∀ (d a b : SReg) (k : BitVec 8) (s : State) (t : Str) (ts : List Str) (bu : Bun), Issuing s t ts bu →
    exec .wbrec s = .next (s.withHead { t with wbOpen := true } ts) ∧
    exec .wbend s = .next (s.withHead { t with wbOpen := false } ts) ∧
    (∀ bd ln, s.band? t.band = some bd → s.launch? bd.launch = some ln →
      ∃ t', exec (.ldarg d k) s = .next (s.withHead t' ts) ∧ WritesS s t t' d.toNat (ln.args.getD k.toNat 0#64)) ∧
    (fullPath bu.lat [6] = none →
      ∃ s2 t' e, exec (.wbdrop a) s = .next s2 ∧ s2.strs = t' :: ts ∧ t'.buf = t.buf ++ [e] ∧
        e.kind = .drop ((readS bu.lat a.toNat).toNat % 2 ^ 32) ∧ e.ops = [s.nextId] ∧
        t'.outst = t.outst ++ [{ o := s.nextId, path := 6, back := false }] ∧ t' = { t with buf := t'.buf, outst := t'.outst } ∧ sameMemory s s2) ∧
    (∀ s1 ent, fullPath bu.lat [6] = none →
      let x := readS bu.lat a.toNat
      checkGlobal s t 0 x 8 needR = (s1, .ok ent) → watchAny s1 t bu.lat [(0, .glob, true, false, x.toNat, 8)] = none →
      noTear s1 bu (sealOf x (readS bu.lat b.toNat) (tagS bu.lat a.toNat)).isNone →
      case6 s1 bu.lat [ent] [{ sp := .glob, a := x.toNat, n := 8 }] = false →
      ∃ s2 t' op ow, exec (.wbseal d a b) s = .next s2 ∧ s2.strs.head? = some t' ∧ op ∈ s2.ops ∧ op.id = s1.nextId ∧
        op.kind = .seal d.toNat x.toNat (readS bu.lat b.toNat) (tagS bu.lat a.toNat) ∧
        t'.owed = t.owed ++ [ow] ∧ ow.o = s1.nextId ∧ ow.left = 0 ∧ ow.dst = .s d.toNat ∧ ow.val = none ∧
        t'.outst = t.outst ++ [{ o := s1.nextId, path := 6, back := false }] ∧
        t' = { t with owed := t'.owed, outst := t'.outst, undo := t'.undo, lspan := t'.lspan } ∧ sameMemory s s2)

/-- R258, R259, R262 to R264: a matrix instruction whose checks find a cause raises it; one that passes them is sent with its bundle's
release, its recipe, tile and source registers with it, unless 64 operations of the band are queued, for which the bundle of its slot
waits, or, for `mst` and `mclr`, an earlier operation to the tile has not retired, for which the string waits (log 11). `mbatch` counts on path 5. No register and no
byte of memory changes at issue. R259 with R25, R113: ACC_RANGE for a tile that the band does not have, before RECIPE, which an unsupported recipe raises with the
recipe in DETAIL, before ALIGN for a bench address that is no multiple of 16. -/
def Obligations.MatrixInstructions : Prop :=
  (
    ∀ (tl : BitVec 7) (a b : SReg) (s : State) (t : Str) (ts : List Str) (bu : Bun) (bd : Band), Issuing s t ts bu → s.band? t.band = some bd →
      let forms := [(Instr.mload a b, 0, 0, a, b), (Instr.mmul tl a b, 1, tl.toNat, a, b), (Instr.mmulz tl a b, 2, tl.toNat, a, b), (Instr.mst tl a b, 3, tl.toNat, a, b), (Instr.mclr tl, 4, tl.toNat, 0#6, 0#6)]
      (∀ f ∈ forms,
        let chk := mopCheck bd bu.lat.benchb.toNat bu.lat.benchl.toNat f.2.1 f.2.2.1 bu.lat.rcp.seen (readS bu.lat f.2.2.2.1.toNat) (readS bu.lat f.2.2.2.2.toNat)
        let tears := f.2.1 != 4 && (tagS bu.lat f.2.2.2.1.toNat == .data || tagS bu.lat f.2.2.2.2.toNat == .data)
        let full := 64 ≤ (bandMops s t.band).length
        let busy := (f.2.1 = 3 ∨ f.2.1 = 4) ∧ tileBusy s t.band bd.prof f.2.2.1 = true
        let waits := fun (w : Wait) => ∃ s', exec f.1 s = .next s' ∧ s'.strs = putWait bu.slotB w bu.lat :: ts ∧ sameMemory s s'
        (∀ c dt, chk = some (c, dt) → exec f.1 s = .next (s.raise t bu { cause := c, detail := dt })) ∧
        (chk = none → noTear s bu (bu.lat.wbOpen && tears) → ¬full → ¬busy →
          ∃ m, exec f.1 s = .next { s with nextId := s.nextId + 1, nseq := s.nseq + 1, bun := some { bu with mops := bu.mops ++ [m] } } ∧
            m.b = t.band ∧ m.n = t.num ∧ m.minor = f.2.1 ∧ m.tile = f.2.2.1 ∧ m.rcp = bu.lat.rcp.seen ∧
            m.sa = readS bu.lat f.2.2.2.1.toNat ∧ m.sb = readS bu.lat f.2.2.2.2.toNat ∧ m.seq = s.nseq ∧ m.started = false) ∧
        (chk = none → noTear s bu (bu.lat.wbOpen && tears) → busy → waits .tile) ∧
        (chk = none → noTear s bu (bu.lat.wbOpen && tears) → full → ¬busy → waits .unit)) ∧
      (fullPath bu.lat [5] = none →
        ∃ op, exec .mbatch s = .next { s with nextId := s.nextId + 1, nseq := s.nseq + 1, ops := s.ops ++ [op], bun := some { bu with batch := some s.nextId }, strs := { t with outst := t.outst ++ [{ o := s.nextId, path := 5, back := false }] } :: ts } ∧
          op.id = s.nextId ∧ op.kind = .batch [])) ∧
  (
    ∀ (tl : BitVec 7) (a b : SReg) (s : State) (t : Str) (ts : List Str) (bu : Bun) (bd : Band), Issuing s t ts bu → s.band? t.band = some bd →
      bd.prof = .array →
      let r := bu.lat.rcp.seen
      let trap := fun (c : Cause) (d : Nat) => Host.Outcome.next (s.raise t bu { cause := c, detail := d })
      (bd.ntiles ≤ tl.toNat → exec (.mst tl a b) s = trap .accRange tl.toNat ∧ exec (.mclr tl) s = trap .accRange tl.toNat ∧
        exec (.mmul tl a b) s = trap .accRange tl.toNat ∧ exec (.mmulz tl a b) s = trap .accRange tl.toNat) ∧
      (tl.toNat < bd.ntiles → bd.ntiles ≤ tl.toNat + 3 → exec (.mmul tl a b) s = trap .accRange bd.ntiles) ∧
      (tl.toNat + 3 < bd.ntiles → rcpOk r = false → exec (.mmul tl a b) s = trap .recipe r.toNat ∧ exec (.mmulz tl a b) s = trap .recipe r.toNat ∧
        exec (.mst tl a b) s = trap .recipe r.toNat ∧ exec (.mload a b) s = trap .recipe r.toNat) ∧
      (tl.toNat < bd.ntiles → rcpOk r = true → (readS bu.lat b.toNat).extractLsb' 0 4 = 0#4 → (readS bu.lat a.toNat).toNat % 16 ≠ 0 →
        exec (.mst tl a b) s = trap .align 0))

/-- R269 with R24, R49, R278 and R279: a job form of a card at an address that is no multiple of 64 raises ALIGN, of one outside the bench
bounds BENCH_BOUND; otherwise, with room, it counts on path 4 and its command, with the card as the bench holds it then, goes with the
bundle's release. With 64 jobs of the core out, or with an access before it that the card's read follows not performed, the bundle of its slot
waits (log 11). `jobq` copies the string's job error record to s[d],
with one undo entry and no path; every form is a proof point and takes guard p0. -/
def Obligations.JobForms : Prop :=
  (∀ (a : SReg) (s : State) (t : Str) (ts : List Str) (bu : Bun) (bd : Band), Issuing s t ts bu → s.band? t.band = some bd →
    let x := (readS bu.lat a.toNat).toNat
    ∀ f ∈ [(Instr.jobCpy a, 0), (Instr.jobGth a, 1), (Instr.jobCol a, 2), (Instr.jobMc a, 3)],
      (x % 64 ≠ 0 → exec f.1 s = .next (s.raise t bu { cause := .align })) ∧
      (x % 64 = 0 → x < bu.lat.benchb.toNat ∨ bu.lat.benchl.toNat < x + 64 → exec f.1 s = .next (s.raise t bu { cause := .benchBound })) ∧
      (x % 64 = 0 → bu.lat.benchb.toNat ≤ x → x + 64 ≤ bu.lat.benchl.toNat → case6 s bu.lat [] [{ sp := .bench, a := x, n := 64 }] = false →
        (cardBusy s bu.lat bu.mask x bu.seq = true → ∃ s', exec f.1 s = .next s' ∧ s'.strs = putWait bu.slotB (.card x) bu.lat :: ts ∧ sameMemory s s') ∧
        (cardBusy s bu.lat bu.mask x bu.seq = false →
        ((coreJobs s bd.die (bd.place.core?.getD 0)).length < 64 → fullPath bu.lat [4] = none →
          ∃ op j, exec f.1 s = .next { s with nextId := s.nextId + 1, nseq := s.nseq + 1, ops := s.ops ++ [op], bun := some { bu with jobs := bu.jobs ++ [j] }, strs := { t with outst := t.outst ++ [{ o := s.nextId, path := 4, back := false }] } :: ts } ∧
            op.id = s.nextId ∧ op.kind = .job s.nextId ∧ j.id = s.nextId ∧ j.b = t.band ∧ j.n = some t.num ∧ j.mn = f.2 ∧ j.cardAt = x ∧
            j.card.length = 64 ∧ (bu.lat.buf = [] → s.rels = [] → j.card = memBytes bd.bench x 64)) ∧
        (64 ≤ (coreJobs s bd.die (bd.place.core?.getD 0)).length →
          ∃ s', exec f.1 s = .next s' ∧ s'.strs = putWait bu.slotB .unit bu.lat :: ts ∧ sameMemory s s')))) ∧
  (∀ (d : SReg), ScalarResult (.jobq d) d (fun t => t.jobErr)) ∧
  (∀ i : Instr, i.major = some 0x2A → i.isProofPoint = true) ∧
  (∀ (c : DecCtx) (sl : Slot), sl.maj = 0x2A#6 → sl.g ≠ 0#3 → ∃ e, decodeSlot c sl = .error e)

/-- R47, R48: the result of a long-latency instruction whose lookahead is used up is written to its destination when it arrives; with
counted slots left it stands until they have issued; the result of an undone instruction is discarded. No byte of memory changes. R49: the return of an operation lowers its path's counter when no older operation of the path is outstanding, and a `waitc` that the
counter then meets ends, as does the wait of a bundle that found the counter full; a return that comes before an older one of its path leaves the counter. Registers and memory stay. -/
def Obligations.ResultsAndReturnsArrive : Prop :=
  (
    ∀ (b n o : Nat) (s : State) (t : Str) (op : Op) (w : Owed) (vs : List Word64), s.str? b n = some t → s.op? o = some op → op.fin = true →
      (op.undone = true → Completes (.longLatencyResult b n o) s (fun s' => s'.strs = s.strs ∧ sameMemory s s')) ∧
      (op.undone = false → op.kind = .calc vs → t.owed = [w] → w.o = o → w.val = none → w.logged = true →
        (0 < w.left → Completes (.longLatencyResult b n o) s (fun s' => ∃ t', s'.str? b n = some t' ∧ t'.owed = [{ w with val := some vs }] ∧
          t'.v = t.v ∧ t'.sr = t.sr ∧ t'.pr = t.pr ∧ sameMemory s s')) ∧
        (w.left = 0 → ∀ d m, w.dst = .v d 1 m → Completes (.longLatencyResult b n o) s (fun s' => ∃ t', s'.str? b n = some t' ∧ t'.owed = [] ∧
          (∀ i l, (lanesOf m)[i]? = some l → readV t' d l = (vs.getD i 0#64).extractLsb' 0 32) ∧
          (∀ r l, l < 32 → ¬(r = d ∧ m.getLsbD l = true) → readV t' r l = readV t r l) ∧ t'.sr = t.sr ∧ t'.pr = t.pr ∧ sameMemory s s')) ∧
        (w.left = 0 → ∀ d, w.dst = .s d → Completes (.longLatencyResult b n o) s (fun s' => ∃ t', s'.str? b n = some t' ∧ t'.owed = [] ∧
          (∀ r, readS t' r = if r = d ∧ d ≠ 0 then vs.getD 0 0#64 else readS t r) ∧ t'.v = t.v ∧ t'.pr = t.pr ∧ sameMemory s s')))) ∧
  (
    ∀ (o p : Nat) (s : State) (t : Str) (op : Op), s.op? o = some op → op.fin = true → s.str? op.b op.n = some t →
      (∀ rest, t.outst = { o := o, path := p, back := false } :: rest → (∀ y ∈ rest, y.o ≠ o ∧ y.back = false) →
        Completes (.operationReturn o) s (fun s' => ∃ t', s'.str? op.b op.n = some t' ∧ t'.outst = rest ∧ pathCount t' p + 1 = pathCount t p ∧
          (∀ thr, t.wait = .path p thr → pathCount t' p ≤ thr → t'.wait = .none) ∧ (pathCount t' p < 255 → (t.holdA = .full p → t'.holdA = .none) ∧ (t.holdB = .full p → t'.holdB = .none)) ∧ t'.v = t.v ∧ t'.sr = t.sr ∧ t'.pr = t.pr ∧ sameMemory s s')) ∧
      (∀ y, y.path = p → y.o ≠ o → y.back = false → t.outst = [y, { o := o, path := p, back := false }] →
        Completes (.operationReturn o) s (fun s' => ∃ t', s'.str? op.b op.n = some t' ∧ pathCount t' p = pathCount t p ∧ t'.v = t.v ∧ t'.sr = t.sr ∧ sameMemory s s')))

/-- R60, R114, R232 and R63: PROOF_POINT_RELEASE hands the withheld entries to the memory system in order, every withheld byte in one of
them (an entry whose stores came before and after an open `get` in parts), clears the undo record and moves the restart point, where it
raises no WAYBILL_TORN (R293); RECIPE_DELAY_EXPIRY makes a recipe whose delay has passed visible, at whatever moment after the fourth
bundle it comes, which is the model's choice (log 54); YIELD_EXPIRY and IDLE_TIMEOUT make the string ready, both slots at once and a
timer of an earlier wait too, which is the model's choice (log 12); SEGMENT_COPY_DONE puts the segment, named by its bale's measurement, into one of
the core's four frames, the blocks whose tag does not match standing shut (R355). -/
def Obligations.StringTimersAndRelease : Prop :=
  ∀ (b n : Nat) (s : State) (t : Str), s.str? b n = some t →
    (t.wbStrict = false ∨ s.records b = false → Completes (.proofPointRelease b n) s (fun s' => sameMemory s s' ∧
      (∃ es : List Entry, s'.rels = s.rels ++ es.map (fun e => (b, n, e)) ∧ (openGets s b n = [] → es = t.buf) ∧ ∀ sp x, heldByte es sp x ↔ heldByte t.buf sp x) ∧
      ∃ t', s'.str? b n = some t' ∧ t'.buf = [] ∧ t'.undo = [] ∧ t'.rp.a = t.slotA ∧ t'.rp.b = t.slotB ∧ t'.rp.stat = t.stat ∧
        t'.v = t.v ∧ t'.sr = t.sr ∧ t'.pr = t.pr ∧ t'.slotA = t.slotA ∧ t'.slotB = t.slotB)) ∧
    Completes (.recipeDelayExpiry b n) s (fun s' => ∃ t', s'.str? b n = some t' ∧
      (t.rcp.left = 1 → t'.rcp.seen = t.rcp.new) ∧ (t.rcp.left ≠ 1 → t'.rcp = t.rcp) ∧ t' = { t with rcp := t'.rcp } ∧ sameMemory s s') ∧
    Completes (.yieldExpiry b n) s (fun s' => s'.str? b n = some { t with yielding := false } ∧ sameMemory s s') ∧
    Completes (.idleTimeout b n) s (fun s' => s'.str? b n = some { t with idleA := false, idleB := false } ∧ sameMemory s s') ∧
    (∀ die core bale seg c bl, s.core? die core = some c → s.bale? bale = some bl →
      let f : Frame := { meas := bl.meas, seg := seg }
      c.copies.any f.same = true → c.frames.length ≤ 4 →
      Completes (.segmentCopyDone die core bale seg) s (fun s' => ∃ c', s'.core? die core = some c' ∧ c'.frames.any f.same = true ∧
        (c.frames.any f.same = false → ∃ g ∈ c'.frames, f.same g = true ∧ g.bad = badBlocks s bl seg) ∧
        c'.copies.any f.same = false ∧ c'.frames.length ≤ 4 ∧ s'.strs = s.strs ∧ sameMemory s s'))

/-- R213 and R214: a pre-emption request marks a resident band and asks its one live string, which does not wait, to stop, deferred
while its traps are masked; the stop timeout and the deferral's second expiry roll the string back to its proof point, where it counts as
stopped; the first expiry of the deferral makes the stop overdue. R51, R215, R218 to R220: a band whose strings have stopped and that owes nothing is saved, where its context's pool has room once
spilled waybills have yielded, and its die dispatches again; without room it goes on waiting unless its context is quarantined; one that
only waits is saved when its swap-out clocks are over; a saved band that may be taken becomes resident on a core with room, and one whose
area fails its check is killed and its context quarantined. That a band whose area has a line that cannot be corrected is killed is the
model's choice (log 81), and that a bundle held by a full counter waits on a path counter its reading (log 105). -/
def Obligations.PreemptionSavesAndRestores : Prop :=
  (
    ∀ (b n c : Nat) (s : State) (t : Str) (bd : Band), s.band? b = some bd → bd.place = .resident c → s.str? b n = some t → t.ended = false →
      (bd.preempt = false → bd.prof ≠ .executive → liveStrs s b = [t] → t.num = n → t.stop = .none → longWait s t = false →
        Completes (.preemptionRequest b) s (fun s' =>
          s'.str? b n = some { t with stop := if tm0 t then .deferred else .asked, idleA := false, idleB := false } ∧
          (s'.band? b).map (fun (x : Band) => x.preempt) = some true ∧ placeIn s' b = some (.resident c) ∧ .bandSave b ∈ s'.agenda ∧
          (if tm0 t then Instr.preemptDeferralExpiry b n else Instr.preemptStopTimeout b n) ∈ s'.agenda ∧ sameMemory s s')) ∧
      (t.stop = .asked → Completes (.preemptStopTimeout b n) s (fun s' => s'.str? b n = some { rolled s b n t with stop := .stopped } ∧ sameMemory s s')) ∧
      (t.stop = .deferred → Completes (.preemptDeferralExpiry b n) s (fun s' => s'.str? b n = some { t with stop := .late } ∧
        .preemptDeferralExpiry b n ∈ s'.agenda ∧ sameMemory s s')) ∧
      (t.stop = .late → Completes (.preemptDeferralExpiry b n) s (fun s' => s'.str? b n = some { rolled s b n t with stop := .stopped } ∧ sameMemory s s'))) ∧
  (
    ∀ (b core : Nat) (s : State) (bd : Band), s.band? b = some bd →
      let room := roomFor (makeRoom s bd.ctx (saveSize bd)) bd.ctx (saveSize bd)
      (saveReady s b = true → room = true → Completes (.bandSave b) s (fun s' =>
        placeIn s' b = some (.saved (bd.replayAt.isSome || (liveStrs s b).any (fun (t : Str) => !longWait s t))) ∧ .bandDispatch bd.die ∈ s'.agenda ∧
        (∀ u ∈ s'.strs, u.band = b → u.lspan = [] ∧ u.rslot = 8) ∧ sameMemory s s')) ∧
      (saveReady s b = true → room = false → (s.ctx? bd.ctx).any (fun (c : Ctx) => c.quarantined) = false →
        exec (.bandSave b) s = .next ((makeRoom s bd.ctx (saveSize bd)).post [.bandSave b])) ∧
      (bd.preempt = true → (∃ c, bd.place = .resident c) → saveReady s b = false → exec (.bandSave b) s = .next (s.post [.bandSave b])) ∧
      (swapReady s b = true → room = true → (∀ t ∈ liveStrs s b, t.buf = []) → Completes (.xswapExpiry b) s (fun s' =>
        placeIn s' b = some (.saved false) ∧ .bandDispatch bd.die ∈ s'.agenda ∧ sameMemory s s')) ∧
      (bd.place = .saved true → (s.site? bd.die).any (fun (x : Site) => x.st == .admitted) = true → (s.core? bd.die core).isSome = true →
        roomOn s bd.die core bd = true → (s.ctx? bd.ctx).any (fun (c : Ctx) => c.frozen) = false → (∀ t ∈ s.strs, t.band = b → t.late = []) →
        let bad := areaFaults s bd
        let killed := fun (s' : State) => placeIn s' b = some (.killed core) ∧ .bandSettle b ∈ s'.agenda ∧ sameMemory s s'
        let shut := fun (s' : State) => killed s' ∧ ((s.ctx? bd.ctx).isSome = true → (s'.ctx? bd.ctx).map (fun (c : Ctx) => c.quarantined) = some true)
        ((∀ x ∈ bad, x.1 ≠ 0 ∧ x.2 = true) → Completes (.bandRestore b core true) s (fun s' => placeIn s' b = some (.resident core) ∧ .bandDispatch bd.die ∈ s'.agenda ∧ sameMemory s s')) ∧
        (∀ ok, ok = false ∨ (∃ x ∈ bad, x.1 ≠ 0 ∧ x.2 = false) → Completes (.bandRestore b core ok) s shut) ∧
        ((∃ x ∈ bad, x.1 = 0) → (∀ x ∈ bad, x.1 = 0 ∨ x.2 = true) → Completes (.bandRestore b core true) s (fun s' => killed s' ∧ s'.ctxs = s.ctxs))))

/-- R37, R39, R45, R53, R54: the dispatcher of an ADMITTED die starts its first wanted band on the first core with room: the band is
resident there, with as many strings as the launch asks for, each at the bale's entry with all its lanes; a band in a core's queue starts
in the same way when it comes to the head. That a fresh string has no register value, so that each of its registers and predicates reads
zero, is the model's choice (log 2), and so is that a queued band of a launch that has been stopped starts (log 78). -/
def Obligations.BandsStart : Prop :=
  ∀ (die core : Nat) (s s1 : State) (bd : Band) (ln : Launch) (bl : Bale),
    (s.site? die).any (fun (x : Site) => x.st == .admitted) = true → bd.die = die →
    s1.band? bd.id = some bd → s1.launch? bd.launch = some ln → s1.bale? bd.bale = some bl → (ln.replay && !bd.plain) = false →
    let started := fun (s' : State) => placeIn s' bd.id = some (.resident core) ∧
      (s'.strs.filter (fun (t : Str) => t.band == bd.id)).length = bd.nstr ∧
      (∀ t ∈ s'.strs, t.band = bd.id → t.v = [] ∧ t.sr = [] ∧ t.pr = [] ∧ t.stack = [] ∧ t.buf = [] ∧ t.slotB = none ∧
        t.slotA = some { pc := bl.base + BitVec.ofNat 64 (16 * ln.entry), mask := if bd.prof = .control then 1#32 else 0xFFFFFFFF#32 }) ∧
      .bandDispatch die ∈ s'.agenda
    (makeFor s die = s1 → firstBand s1 (s1.bands.filter (wanted s1 die)) = some bd → bd.place = .waiting →
      (nextCores s1 die).find? (fun c => roomOn s1 die c bd) = some core → Completes (.bandDispatch die) s started) ∧
    (s1 = s → ∀ c rest, s.core? die core = some c → c.bandQ = bd.id :: rest → bd.place = .queued core → roomOn s die core bd = true →
      Completes (.queuedBandResident die core) s (fun s' => started s' ∧ (s'.core? die core).map (fun (k : Core) => k.bandQ) = some rest))

/-- R56: an idle core of a stealing launch steps its shift register to another core of its die and takes the highest-indexed band of that
core's queue; where the queue is empty it backs off, and STEAL_BACKOFF_EXPIRY ends that. The shift register's step is that of the taps
16, 14, 13, 11; that it steps before its value is used, and again while it names the asking core, is the model's choice (log 28). -/
def Obligations.WorkStealing : Prop :=
  (∀ (die core : Nat) (s : State) (c v : Core) (ln : Launch), s.core? die core = some c → c.backoff = false → c.bandQ = [] →
    ln ∈ s.launches → ln.steal = true → ln.complete = false →
    let k := (s.cores.filter (fun (x : Core) => x.die == die)).length
    let pick := stealVictim die core k 64 c.lfsr
    2 ≤ k → pick.2 ≠ core → s.core? die pick.2 = some v →
    (v.bandQ = [] → Completes (.stealRequest die core) s (fun s' => s'.core? die core = some { c with lfsr := pick.1, backoff := true } ∧
      .stealBackoffExpiry die core ∈ s'.agenda ∧ s'.strs = s.strs ∧ sameMemory s s')) ∧
    (∀ x bd, x ∈ v.bandQ → s.band? x = some bd → (∀ y ∈ v.bandQ, y ≠ x → ∃ z, s.band? y = some z ∧ z.index < bd.index) → Completes (.stealRequest die core) s (fun s' =>
      s'.core? die core = some { c with lfsr := pick.1, bandQ := [x] } ∧ s'.core? die pick.2 = some { v with bandQ := v.bandQ.filter (fun y => y != x) } ∧
      placeIn s' x = some (.queued core) ∧ .queuedBandResident die core ∈ s'.agenda ∧ sameMemory s s'))) ∧
  (∀ (die core : Nat) (s : State) (c : Core), s.core? die core = some c →
    Completes (.stealBackoffExpiry die core) s (fun s' => s'.core? die core = some { c with backoff := false } ∧ s'.strs = s.strs ∧ sameMemory s s')) ∧
  (∀ x : BitVec 16, lfsrStep x = (x >>> 1) ||| (if (x.getLsbD 0 ^^ x.getLsbD 2 ^^ x.getLsbD 3 ^^ x.getLsbD 5) then 0x8000#16 else 0#16))

/-- R33, R34, R35, R288: a launch packet whose signal address is no record's is counted and dropped; one that fails a check completes with
BADPACKET, with no ADMITTED die NODIE, with a band that no core can hold RESOURCE; one that passes starts a launch with the fields of the
packet and the argument words, and every die of it dispatches; behind an earlier launch packet of its queue and priority that has not been
served, or while bands of its context that a fatal context error killed have not ended, it waits (R54, R316). A signal completes once every earlier packet has; a waybill drop removes
the waybill and completes. R35: a completion record is 16 bytes: the status in bytes 0 to 3, the relaunch count in 4 and 5, the flags in 6, a zero byte, the
sequence number in 8 to 15; it is written by one request of the serai to the packet's signal address, where its span is writable. -/
def Obligations.PacketsActAndComplete : Prop :=
  (
    ∀ (q sq : Nat) (s : State) (x : Queue) (p : Pkt), s.pkt? q sq = some (x, p) → p.done = false → (s.ctx? x.ctx).any (fun (c : Ctx) => c.frozen) = false →
      let f := field p.bytes
      let ends := fun (st : Nat) => endPacket s q sq x.ctx (f 40 8) st 0 0
      let dies := (maskDies x p.bytes).filter (fun d => (s.site? d).any (fun (y : Site) => y.st == .admitted))
      (ctxEnding s x.ctx = true ∨ behindSignal s x sq = true ∨ behindLaunch s x p = true → exec (.launchPacket q sq) s = .next (s.post [.launchPacket q sq])) ∧
      (ctxEnding s x.ctx = false → behindSignal s x sq = false → behindLaunch s x p = false →
        (signalOk p.bytes = false → exec (.launchPacket q sq) s = .next (dropPacket s q sq)) ∧
        (signalOk p.bytes = true → badLaunch s x p.bytes = true → exec (.launchPacket q sq) s = .next (ends 1)) ∧
        (signalOk p.bytes = true → badLaunch s x p.bytes = false → dies = [] → exec (.launchPacket q sq) s = .next (ends 2)) ∧
        (∀ bl s1 bs, signalOk p.bytes = true → badLaunch s x p.bytes = false → s.baleFor x.ctx (f 2 1) = some bl → dies ≠ [] →
          fits [] { id := 0, launch := 0, index := 0, ctx := 0, die := 0, prof := codeProf (f 2 1), nstr := f 5 1, regs := 8 * f 6 1, nbars := f 7 1, benchBytes := f 24 4, ntiles := f 28 1 } = true →
          peekVa s x.ctx (f 32 8) (8 * bl.nargs) = .bytes s1 bs → f 3 1 / 4 % 2 = 0 →
          Completes (.launchPacket q sq) s (fun s' => ∃ l, s'.launches = s.launches ++ [l] ∧ l.id = s1.nextId ∧ l.sq = sq ∧ l.ctx = x.ctx ∧ l.bale = bl.id ∧
            l.code = f 2 1 ∧ l.nstr = f 5 1 ∧ l.regs = 8 * f 6 1 ∧ l.nbars = f 7 1 ∧ l.entry = f 8 4 ∧ l.x = f 12 4 ∧ l.y = f 16 4 ∧ l.z = f 20 4 ∧
            l.bench = f 24 4 ∧ l.tiles = f 28 1 ∧ l.done = BitVec.ofNat 64 (f 40 8) ∧ l.dies = dies ∧ l.replay = false ∧ l.complete = false ∧
            l.args = (List.range bl.nargs).map (fun i => BitVec.ofNat 64 (field bs (8 * i) 8)) ∧ (∀ d ∈ dies, .bandDispatch d ∈ s'.agenda) ∧ s'.bands = s.bands))) ∧
      (behindSignal s x sq = false →
        (signalOk p.bytes = false → exec (.waybillDropPacket q sq) s = .next (dropPacket s q sq)) ∧
        (signalOk p.bytes = true → badSignal x p.bytes true = true → exec (.waybillDropPacket q sq) s = .next (ends 1)) ∧
        (signalOk p.bytes = true → badSignal x p.bytes true = false → exec (.waybillDropPacket q sq) s = .next (endPacket
          { s with waybills := s.waybills.filter (fun (w : Waybill) => !(w.ctx == x.ctx && w.handle == f 52 4)) } q sq x.ctx (f 40 8) 0 0 0))) ∧
      (signalOk p.bytes = false → exec (.signalPacket q sq) s = .next (dropPacket s q sq)) ∧
      (signalOk p.bytes = true → badSignal x p.bytes false = true → exec (.signalPacket q sq) s = .next (ends 1)) ∧
      (signalOk p.bytes = true → badSignal x p.bytes false = false → exec (.signalPacket q sq) s = .next (s.post [.signalPacketComplete q sq])) ∧
      ((∀ y ∈ x.pkts, y.sq < sq → pktDone s q y = true) → exec (.signalPacketComplete q sq) s = .next (ends 0))) ∧
  (
    ∀ (q sq ctx va st n fl : Nat) (s : State), st < 2 ^ 32 → n < 2 ^ 16 → fl < 2 ^ 8 → sq < 2 ^ 64 → va % 16 = 0 →
      let r := completionRec st n fl sq
      (r.length = 16 ∧ field r 0 4 = st ∧ field r 4 2 = n ∧ field r 6 1 = fl ∧ field r 7 1 = 0 ∧ field r 8 8 = sq) ∧
      endPacket s q sq ctx va st n fl = seraiWrite (s.modQueue q (fun x =>
        { x with pkts := x.pkts.map (fun (p : Pkt) => if p.sq = sq then { p with done := true } else p) })) q sq ctx va r ∧
      (∀ s1 e, seraiSpan s ctx (va / 128 * 128) = (s1, some e) → entW e = true →
        ∃ rq ws, (seraiWrite s q sq ctx va r).reqs = s1.reqs ++ [rq] ∧ rq.id = s1.nextId ∧ rq.who = .serai q sq ∧ rq.kind = .write ws ∧
          ws.map (fun (w : WByte) => (w.a, w.v)) = r.zipIdx.map (fun z => (va + z.2, z.1))))

/-- R35, R175, R282, R292: a launch whose bands have all ended writes its completion record; an untorn recording that completes OK first
commits its waybill, where the store has room; while some access, or job with a write footprint, of a band of it is not performed or
returned it waits, and jobs without one may still be reading when the record is written; a completed launch whose bands are over leaves the tables. That
the waybill takes the context's generations at its commit is the model's reading (log 110). R216, R217: a killed band with nothing in flight is settled: a band of an idempotent launch that still places bands, under its retry limit, waits to be placed again;
otherwise it has ended, and the launch places no further band and carries BANDFATAL, unless it completes at once with its own status. That a
band killed after its launch was stopped is not relaunched is the model's choice (log 69). -/
def Obligations.LaunchesCompleteBandsSettle : Prop :=
  (
    ∀ (i : Nat) (s : State) (l : Launch), s.launch? i = some l →
      let rec_ := fun (u : State) => ((endPacket u l.q l.sq l.ctx l.done.toNat l.status l.relaunched l.msat.toNat).modLaunch i
        (fun x => { x with complete := true, stopped := true })).post [.launchComplete i]
      let w := waybillOf s l
      let kept := s.waybills.filter (fun (v : Waybill) => !(v.ctx == w.ctx && v.handle == w.handle))
      (l.complete = false → l.atOnce = true ∨ launchOver s l = true ∨ launchReads s l = true → launchQuiet s l = false → exec (.launchComplete i) s = .next (s.post [.launchComplete i])) ∧
      (l.complete = false → l.atOnce = true ∨ launchOver s l = true ∨ launchReads s l = true → launchQuiet s l = true → l.recording = false ∨ l.torn = true ∨ l.status ≠ 0 →
        exec (.launchComplete i) s = .next (rec_ s)) ∧
      (l.complete = false → l.atOnce = true ∨ launchOver s l = true ∨ launchReads s l = true → launchQuiet s l = true → l.recording = true → l.torn = false → l.status = 0 → w.recs.length ≤ 65536 →
        ((kept.filter (fun (v : Waybill) => v.die == w.die && !v.spilled && v.valid)).map waybillSize).sum + waybillSize w ≤ 8388608 →
        exec (.launchComplete i) s = .next (rec_ { s with waybills := kept ++ [w] })) ∧
      (l.complete = true → launchOver s l = true → Completes (.launchComplete i) s (fun s' => s'.launch? i = none ∧ (∀ b ∈ s'.bands, b.launch ≠ i) ∧
        s'.strs = s.strs))) ∧
  (
    ∀ (b c : Nat) (s : State) (bd : Band) (l : Launch), s.band? b = some bd → bd.place = .killed c → bd.replayAt = none → s.launch? bd.launch = some l →
      let again := l.idem = true ∧ bd.relaunches < l.retry ∧ l.stopped = false ∧ l.atOnce = false ∧ (s.ctx? bd.ctx).any (fun (x : Ctx) => x.frozen) = false
      (bandBusy s b = true → exec (.bandSettle b) s = .next (s.post [.bandSettle b])) ∧
      (bandBusy s b = false → again → Completes (.bandSettle b) s (fun s' => ∃ bd' l', s'.band? b = some bd' ∧ s'.launch? l.id = some l' ∧
        bd'.place = .waiting ∧ bd'.relaunches = bd.relaunches + 1 ∧ l'.relaunched = l.relaunched + 1 ∧ l'.status = l.status ∧
        (∀ t ∈ s'.strs, t.band ≠ b) ∧ .bandDispatch bd.die ∈ s'.agenda)) ∧
      (bandBusy s b = false → ¬again → Completes (.bandSettle b) s (fun s' => ∃ bd' l', s'.band? b = some bd' ∧ s'.launch? l.id = some l' ∧
        bd'.place = .ended ∧ l'.stopped = true ∧ l'.status = (if l.atOnce = true then l.status else if l.status = 0 then 5 else min l.status 5) ∧
        (∀ t ∈ s'.strs, t.band ≠ b) ∧ .launchComplete l.id ∈ s'.agenda)))

/-- R195, R259, R263, R267, R268, R296, R297: the one band of which the next record awaits the event and can go on performs it and goes on to its next record: BAND
clears bench and tiles, FILL writes its masked bytes, a job record and a matrix record are submitted with the patched image, WAIT is over,
GBAR arrives first; a job record whose card fails the checks of the form that recorded it, and a matrix record that fails its checks, faults the band, which, with nothing in flight, runs again plainly or ends the launch with
WBFAULT. That a GBAR record passes a barrier that has completed is the model's choice (log 67), and so is that a band faulted after its
launch was stopped is not relaunched (log 69). -/
def Obligations.ReplayRecords : Prop :=
  ∀ (s : State) (bd : Band) (k : Nat) (img : List Byte) (l : Launch), s.band? bd.id = some bd → s.launch? bd.launch = some l →
    let only := fun (ev : Instr) (r : NextRec) => readyReplayers s ev = [(bd, r)]
    let on := fun (s' : State) => (s'.band? bd.id).bind (fun (x : Band) => x.replayAt) = bd.replayAt.map (· + 1)
    let benchOf := fun (s' : State) => ((s'.band? bd.id).map (fun (x : Band) => x.bench)).getD []
    let fault := fun (s' : State) => (s'.band? bd.id).map (fun (x : Band) => x.replayFault) = some true ∧ .replayFaultSettle bd.id ∈ s'.agenda
    let form := if 4 ≤ k then 3 else k - 1
    let chk := mopCheck bd 0 bd.benchBytes (k - 0x10) (field img 1 1) (BitVec.ofNat 10 (field img 2 2)) (BitVec.ofNat 64 (field img 8 8)) (BitVec.ofNat 64 (field img 16 8))
    (only .replayBandRecord .band → Completes .replayBandRecord s (fun s' => on s' ∧ benchOf s' = [] ∧ (s'.band? bd.id).map (fun (x : Band) => x.tiles) = some [])) ∧
    (only .replayFillRecord (.record k img) → Completes .replayFillRecord s (fun s' => on s' ∧
      (∀ i, i < 32 → memGet (benchOf s') (field img 4 4 + i) = if field img 8 4 / 2 ^ i % 2 = 1 then img.getD (16 + i) 0#8 else memGet bd.bench (field img 4 4 + i)) ∧
      (∀ a, a < field img 4 4 ∨ field img 4 4 + 32 ≤ a → memGet (benchOf s') a = memGet bd.bench a))) ∧
    (only .replayJobRecord (.record k img) → cardError s bd form img = none → Completes .replayJobRecord s (fun s' => on s' ∧ ∃ j, s'.jobs = s.jobs ++ [j] ∧
      j.id = s.nextId ∧ j.b = bd.id ∧ j.n = none ∧ j.mn = form ∧ j.card = img ∧ .jobStart s.nextId ∈ s'.agenda)) ∧
    (only .replayJobRecord (.record k img) → cardError s bd form img ≠ none → Completes .replayJobRecord s (fun s' => fault s' ∧ s'.jobs = s.jobs)) ∧
    (only .replayMatrixRecord (.record k img) → k ≠ 0x15 → chk = none → Completes .replayMatrixRecord s (fun s' => on s' ∧
      ∃ m, s'.mops = s.mops ++ [m] ∧ m.b = bd.id ∧ m.minor = k - 0x10 ∧ m.tile = field img 1 1 ∧ m.rcp = BitVec.ofNat 10 (field img 2 2) ∧
        m.sa = BitVec.ofNat 64 (field img 8 8) ∧ m.sb = BitVec.ofNat 64 (field img 16 8))) ∧
    (only .replayMatrixRecord (.record k img) → k ≠ 0x15 → chk ≠ none → Completes .replayMatrixRecord s fault) ∧
    (only .replayWaitRecord (.record k img) → Completes .replayWaitRecord s (fun s' => on s' ∧ sameMemory s s')) ∧
    (only .replayGbarRecord (.record k img) → bd.gbarCnt ≠ gbarsBefore s bd → Completes .replayGbarRecord s (fun s' => on s' ∧ sameMemory s s')) ∧
    (only .replayGbarRecord (.record k img) → bd.gbarCnt = gbarsBefore s bd → Completes .replayGbarRecord s (fun s' =>
      (s'.band? bd.id).map (fun (x : Band) => x.gbarCnt) = some (bd.gbarCnt + 1) ∧ .replayGbarRecord ∈ s'.agenda ∧ sameMemory s s')) ∧
    (∀ c, bd.replayFault = true → bd.place = .resident c → bandBusy s bd.id = false →
      let again := l.idem = true ∧ l.stopped = false ∧ l.atOnce = false ∧ (s.ctx? bd.ctx).any (fun (x : Ctx) => x.frozen) = false
      (again → Completes (.replayFaultSettle bd.id) s (fun s' => ∃ bd', s'.band? bd.id = some bd' ∧ bd'.place = .waiting ∧ bd'.plain = true ∧
        bd'.replayAt = none ∧ bd'.replayFault = false)) ∧
      (¬again → Completes (.replayFaultSettle bd.id) s (fun s' => placeIn s' bd.id = some .ended ∧
        (s'.launch? l.id).map (fun (x : Launch) => (x.stopped, x.status)) = some (true, if l.atOnce = true then l.status else if l.status = 0 then 6 else min l.status 6))))

/-- R258, R260 to R266: the oldest queued operation of a core whose edges allow it starts and performs its effect: `mload` copies B into the weight
banks, `mst` of whole words writes row after row of the tile, `mclr` zeroes its tile, `mmul` and `mmulz` begin to read A against the B that the
banks hold. The retirement writes the tile words that MatMul gives, takes the operation from the queue and lets the band's strings that wait
for the unit look again. Where the bench has changed since an `mmul` started (R280), it reads on, or retires with words read in either state. R119, R120: a group with a NaN among its elements or in its accumulator gives the canonical NaN, and so does a product of an infinity and a
zero; an INT32 accumulation is exact, clamped to ±(2^31 − 1), and says whether the clamp changed the value. -/
def Obligations.MatrixUnitAndAccumulation : Prop :=
  (
    ∀ (die core : Nat) (s : State) (m : MOp) (bd : Band) (c : Core), s.band? m.b = some bd → s.core? die core = some c →
      let after := fun (s' : State) => (s'.band? m.b).getD bd
      let begun := fun (s' : State) => .matrixOpRetire die core ∈ s'.agenda ∧ s'.mops = s.mops.map (fun (x : MOp) => if x.id == m.id then { x with started := true, snaps := if mulOp m then [bd.bench] else [] } else x)
      let gone := fun (s' : State) => s'.mops = s.mops.filter (fun (x : MOp) => x.id != m.id) ∧ (∀ t ∈ s'.strs, t.band = m.b → t.wait ≠ .tile ∧ t.holdA ≠ .unit ∧ t.holdB ≠ .unit) ∧ sameMemory s s'
      let met := { m with snaps := m.snaps ++ [bd.bench] }
      let same := ∀ x ∈ m.snaps, x = bd.bench
      (mopReady s die core = some m →
        (∀ d, m.minor = 0 → m.bd = some d → Completes (.matrixOpStart die core) s (fun s' => begun s' ∧
          s'.core? die core = some { c with wbank := some m.b, wdata := loadB bd d } ∧ sameMemory s s')) ∧
        (∀ d, m.minor = 1 ∨ m.minor = 2 → m.bd = some d → Completes (.matrixOpStart die core) s (fun s' => begun s' ∧
          s'.core? die core = some { c with wbank := some m.b, wdata := if c.wbank = some m.b then c.wdata else loadB bd d } ∧
          (after s').tiles = bd.tiles ∧ sameMemory s s')) ∧
        (m.minor = 3 → m.sb.extractLsb' 0 4 = 0#4 → m.sb.extractLsb' 8 24 = 0#24 → Completes (.matrixOpStart die core) s (fun s' => begun s' ∧
          (∀ i j, i < 64 → j < 64 → memBytes (after s').bench (m.sa.toNat + 256 * i + 4 * j) 4 = leBytes 4 (smGet 0#32 bd.tiles (4096 * m.tile + 64 * i + j)).toNat) ∧
          (∀ a, a < m.sa.toNat ∨ m.sa.toNat + 16384 ≤ a → memGet (after s').bench a = memGet bd.bench a) ∧
          (∀ n a, n ≠ .bench m.b → s'.byteAt n a = s.byteAt n a) ∧ (after s').tiles = bd.tiles)) ∧
        (m.minor = 4 → Completes (.matrixOpStart die core) s (fun s' => begun s' ∧ sameMemory s s' ∧
          ∀ k, smGet 0#32 (after s').tiles k = if k / 4096 = m.tile then 0#32 else smGet 0#32 bd.tiles k))) ∧
      ((coreMops s die core).find? (fun (x : MOp) => x.started) = some m →
        (mulOp m = false → Completes (.matrixOpRetire die core) s (fun s' => gone s' ∧ (after s').tiles = bd.tiles)) ∧
        (∀ d, mulOp m = true → m.bd = some d →
          (same → Completes (.matrixOpRetire die core) s (fun s' => gone s' ∧ (after s').tiles = (putTiles (matMul 0 bd c.wdata d m).1 bd).tiles)) ∧
          (¬same → Completes (.matrixOpRetire die core) s (fun s' =>
            (.matrixOpRetire die core ∈ s'.agenda ∧ s'.mops = s.mops.map (fun (x : MOp) => if x.id == m.id then met else x) ∧
              (after s').tiles = bd.tiles ∧ sameMemory s s') ∨
            (gone s' ∧ ∃ q, (after s').tiles = (putTiles (matMul q bd c.wdata d met).1 bd).tiles)))))) ∧
  (
    (∀ (as bs : List FVal) (acc : Word32), (as ++ bs).any FVal.isNan = true ∨ (fp32.dec acc.toNat).isNan = true → accFp as bs acc = 0x7FC00000#32) ∧
    (∀ (as bs : List FVal) (acc : Word32) (a b : FVal), (a, b) ∈ as.zip bs → a.isInf = true → b.isZero = true → accFp as bs acc = 0x7FC00000#32) ∧
    (∀ (xs : List (Int × Int)) (acc : Word32),
      let val := fun (x : Int) => FVal.fin (decide (x < 0)) x.natAbs 0
      let sum := acc.toInt + (xs.map (fun p => p.1 * p.2)).sum
      let r := accInt (xs.map (fun p => val p.1)) (xs.map (fun p => val p.2)) acc
      (-(2 ^ 31 - 1) ≤ sum → sum ≤ 2 ^ 31 - 1 → r.1.toInt = sum ∧ r.2 = false) ∧
      (2 ^ 31 - 1 < sum → r.1.toInt = 2 ^ 31 - 1 ∧ r.2 = true) ∧ (sum < -(2 ^ 31 - 1) → r.1.toInt = -(2 ^ 31 - 1) ∧ r.2 = true)))

/-- R270 to R273, R275, R277, R278: a job whose edges, fences and die allow it starts, or ends with its card's error; a copy from bench to bench
reads a row, some bytes at a time, writes it, some bytes at a time, and goes on to the next, and returns after its last: its command is gone
and its string's operation returns; a job that failed owes its string the job error record. The oldest matching receive of a multicast takes
the bytes, some at a time; a target whose die is not ADMITTED, or whose band has ended, settles with its error. An instance that every
member has joined hands the result to each to write. That a row is read whole before it is written, and the rows one after the other, is
the model's choice (log 23), and so is the way in which the bytes of a row are grouped (log 90). -/
def Obligations.EngineJobs : Prop :=
  ∀ (i : Nat) (s : State) (j : Job) (bd : Band), s.job? i = some j → s.band? j.b = some bd →
    let jobIn := fun (s' : State) => s'.job? i
    let benchIn := fun (s' : State) (b : Nat) => ((s'.band? b).map (fun (x : Band) => x.bench)).getD []
    let copies := cardKind j.card = 1 ∧ (j.region 0).sp = 2 ∧ (j.region 2).sp = 2 ∧ j.started = true ∧ j.err = none ∧ jobOut s i = false ∧
      engineOn s j = true
    let rb := rowBytes j.card
    let row := fun (base w r : Nat) => (List.range rb).map (fun x => (x, base + r * w + x))
    let reading := fun (k : Job) => { k with got := [], todo := row (j.region 0).base (cardW1 j.card) k.row, ph := 1 }
    let some' := fun (now rest : List (Nat × Nat)) => now ≠ [] ∧ ∀ p, p ∈ j.todo ↔ p ∈ now ∨ p ∈ rest
    (j.started = false → depsDone s j.deps = true → strClear s j.b (j.n.getD 32) j.seq (j.rd ++ j.wr) = true → fenceBefore s j = false →
      s.claimed j.b (j.n.getD 32) [] (j.rd ++ j.wr) = false → engineOn s j = true →
      (∀ c x, cardError s bd j.mn j.card = some (c, x) → j.err = none → Completes (.jobStart i) s (fun s' =>
        (jobIn s').map (fun (k : Job) => (k.err, k.ph)) = some (some (c, x), 4) ∧ .jobReturn i ∈ s'.agenda ∧ sameMemory s s')) ∧
      (cardError s bd j.mn j.card = none → cardKind j.card = 1 → copyFits j = true → Completes (.jobStart i) s (fun s' =>
        jobIn s' = some { j with started := true } ∧ .jobReturn i ∈ s'.agenda ∧ sameMemory s s'))) ∧
    (copies → j.ph = 0 → j.todo = [] → j.row < rowCount j.card → Completes (.jobReturn i) s (fun s' =>
      jobIn s' = some (reading j) ∧ .jobReturn i ∈ s'.agenda ∧ sameMemory s s')) ∧
    (copies → j.ph = 1 → j.todo ≠ [] → Completes (.jobReturn i) s (fun s' => .jobReturn i ∈ s'.agenda ∧ sameMemory s s' ∧ ∃ now rest, some' now rest ∧
      jobIn s' = some { j with todo := rest, got := now.foldl (fun g (p : Nat × Nat) => smPut 0#8 g p.1 (memGet bd.bench p.2)) j.got })) ∧
    (copies → j.ph = 1 → j.todo = [] → Completes (.jobReturn i) s (fun s' => .jobReturn i ∈ s'.agenda ∧ sameMemory s s' ∧
      jobIn s' = some { j with ph := 3, data := (List.range rb).map (fun x => smGet 0#8 j.got x), todo := row (j.region 2).base (cardW2 j.card) j.row })) ∧
    (copies → j.ph = 3 → j.todo ≠ [] → Completes (.jobReturn i) s (fun s' => .jobReturn i ∈ s'.agenda ∧ ∃ now rest, some' now rest ∧
      jobIn s' = some { j with todo := rest } ∧ (∀ n a, n ≠ .bench j.b → s'.byteAt n a = s.byteAt n a) ∧
      benchIn s' j.b = now.foldl (fun m (p : Nat × Nat) => memPut m p.2 (j.data.getD p.1 0#8)) bd.bench)) ∧
    (copies → j.ph = 3 → j.todo = [] → Completes (.jobReturn i) s (fun s' => .jobReturn i ∈ s'.agenda ∧ sameMemory s s' ∧
      jobIn s' = some (if rowCount j.card ≤ j.row + 1 then { j with row := j.row + 1, ph := 4 } else reading { j with row := j.row + 1 }))) ∧
    (j.started = true → j.ph = 4 → j.todo = [] → j.err = none → jobOut s i = false → engineOn s j = true → Completes (.jobReturn i) s (fun s' => jobIn s' = none ∧
      (∀ n, j.n = some n → .operationReturn j.op ∈ s'.agenda) ∧ (∀ t ∈ s'.strs, t.wait ≠ .tile ∧ t.holdA ≠ .unit ∧ t.holdB ≠ .unit) ∧ sameMemory s s')) ∧
    (∀ c x n t, j.started = true → j.ph = 4 → j.todo = [] → j.err = some (c, x) → jobOut s i = false → j.n = some n → s.str? j.b n = some t →
      t.ended = false → Completes (.jobReturn i) s (fun s' => jobIn s' = none ∧ .operationReturn j.op ∈ s'.agenda ∧ sameMemory s s' ∧
        (s'.str? j.b n).map (fun (u : Str) => u.late) =
          some (t.late ++ [{ engine := true, detail := BitVec.ofNat 16 (x * 256 + c), pc := j.pc, err := jobRecord j c x }]))) ∧
    (∀ target l, j.ph = 2 → j.filled.contains target = false → s.launch? bd.launch = some l → target < l.x * l.y * l.z →
      let bands := s.bands.filter (fun (b : Band) => b.launch == l.id && b.index == target)
      let mine := s.jobs.filter (fun (r : Job) => cardKind r.card == 5 && bands.any (fun (b : Band) => b.id == r.b))
      let filling := mine.find? (fun (r : Job) => r.ph == 3 && r.inst == i)
      let oldest := mine.find? (fun (r : Job) => waitsFill s r && cardW0 r.card == cardW0 j.card)
      let here := (s.site? (bandDie l target)).any (fun (st : Site) => st.st == .admitted) = true
      let away := ∃ b ∈ bands, b.place = .ended ∨ ∃ c, b.place = .saved c
      let n := inBytes j.card
      let more := fun (s' : State) => .multicastFill i target ∈ s'.agenda
      let settled := fun (s' : State) (err : Option (Nat × Nat)) => (jobIn s').map (fun (k : Job) => (k.filled, k.err)) =
        some (j.filled ++ [target], if j.err.isSome then j.err else err) ∧ sameMemory s s' ∧
        (cardW2 j.card ≤ j.filled.length + 1 → .jobReturn i ∈ s'.agenda ∧ (jobIn s').map (fun (k : Job) => k.ph) = some 4)
      (¬here → ¬away → Completes (.multicastFill i target) s (fun s' => settled s' (some (7, 4)))) ∧
      (here ∨ away →
        (∀ r, filling = none → oldest = some r → s.job? r.id = some r → r.ph = 5 ∨ r.ph = 3 →
          ((r.region 2).len = n → Completes (.multicastFill i target) s (fun s' => more s' ∧ sameMemory s s' ∧
            s'.job? r.id = some { r with ph := 3, inst := i, data := j.bytes n, todo := (List.range n).map (fun k => (k, (r.region 2).base + k)) })) ∧
          ((r.region 2).len ≠ n → Completes (.multicastFill i target) s (fun s' => settled s' (some (13, 0)) ∧ .jobReturn r.id ∈ s'.agenda ∧
            (s'.job? r.id).map (fun (k : Job) => (k.ph, k.err)) = some (4, if r.err.isSome then r.err else some (13, 0))))) ∧
        (∀ r b, filling = some r → s.job? r.id = some r → r.todo ≠ [] → (r.region 2).sp = 2 → s.band? r.b = some b →
          Completes (.multicastFill i target) s (fun s' => more s' ∧ ∃ now rest, now ≠ [] ∧ (∀ p, p ∈ r.todo ↔ p ∈ now ∨ p ∈ rest) ∧
            s'.job? r.id = some { r with todo := rest } ∧ (∀ m a, m ≠ .bench r.b → s'.byteAt m a = s.byteAt m a) ∧
            benchIn s' r.b = now.foldl (fun m (p : Nat × Nat) => memPut m p.2 (r.data.getD p.1 0#8)) b.bench)) ∧
        (∀ r, filling = some r → s.job? r.id = some r → r.todo = [] → Completes (.multicastFill i target) s (fun s' => settled s' none ∧
          s'.job? r.id = some { r with ph := 4 } ∧ .jobReturn r.id ∈ s'.agenda)) ∧
        (filling = none → oldest = none → ((∃ b ∈ bands, b.place = .ended) → Completes (.multicastFill i target) s (fun s' => settled s' (some (12, 0)))) ∧
          ((∀ b ∈ bands, b.place ≠ .ended) → bands ≠ [] → Completes (.multicastFill i target) s (fun s' => s' = s.post [.multicastFill i target]))))) ∧
    (∀ c gi k g, s.group? c gi = some g → g.members ≠ [] → g.broken = false → (∀ m ∈ g.members, m.m = s.dev) →
      let sent := g.members.zipIdx.filterMap (fun x => memberSent s c gi k g x.1 x.2)
      ∀ op w1, sent.length = g.members.length → (∀ x ∈ sent, x.1 = op ∧ x.2.1 = w1) → (instJobs s c gi k).filter (fun (x : Job) => x.ph == 2) = [j] →
      (j.region 2).sp = 2 → Completes (.collectiveInstanceComplete c gi k) s (fun s' => .jobReturn j.id ∈ s'.agenda ∧
        let res := colResult (op % 16) (op / 16) w1 (sent.map (fun x => x.2.2))
        jobIn s' = some { j with ph := 3, data := res, todo := (List.range res.length).map (fun x => (x, (j.region 2).base + x)) } ∧ sameMemory s s'))

/-- R154, R168, R171, R184, R185, R187, R304, R306, R315, R335, R337, R365: a request that arrives at its home, whose line nobody caches and
whose stored copy is whole, is performed there, in granary or in host memory: a read gives the bytes of memory, a write stores its bytes,
an atomic applies its lanes; a store to a replicated page first locks the lowest of its replicas; the host's completion may say that it
has failed. A missing page draws NR_NOPAGE with the page's ticket, or holds a released entry. A verb that arrives at the owning die is performed at its bank
units, some of its pieces at a time, to the end also where the die quiesces meanwhile (R337); where the die is not ADMITTED then it is answered
NR_DIE_ABSENT. The reply goes back to the requester's die, which takes its bytes. Which
slot a new ticket takes is the model's choice (log 34), and so are the way in which the pieces of a verb are grouped (log 90) and that a posted
write to the host's memory is always performed and never fails (log 88). -/
def Obligations.HomeAndPantryPerform : Prop :=
  ∀ (i : Nat) (s : State) (r : Req),
    (∀ p, Arrives s i r p → s.dir? r.ctx r.line = none → s.lineErr r.ctx r.line = none →
      (∀ a, locOf p (r.line * 128) = .gran a →
        (∀ ps, r.kind = .read ps → Completes (.homeRequest i) s (fun s' =>
          RepliedWith s' i r 15 (ps.map (fun z => (z.1, memGet s.gran (a + z.2 % 128)))) ∧ sameMemory s s')) ∧
        (∀ bs, r.kind = .write bs → domainsOf p.rmask = [p.prim] → s.gran.wf = true → Completes (.homeRequest i) s (fun s' =>
          (∀ x, memGet s'.gran x = memGet (bs.foldl (fun m (b : WByte) => memPut m (a + b.a % 128) b.v) s.gran) x) ∧ RepliedWith s' i r 15 [] ∧
          ∀ n x, n ≠ .granary → s'.byteAt n x = s.byteAt n x)) ∧
        (∀ op w8 ls, r.kind = .rmw op w8 ls → sharedWord ls = false → domainsOf p.rmask = [p.prim] → s.gran.wf = true →
          (∀ z ∈ ls, z.a % (if w8 then 8 else 4) = 0) → Completes (.homeRequest i) s (fun s' =>
          let x := rmwMem op w8 (ls.map (fun (z : LaneAtom) => { z with a := a + z.a % 128 })) s.gran
          (∀ k, memGet s'.gran k = memGet x.1 k) ∧ RepliedWith s' i r 15 (oldBytes x.2) ∧ ∀ n k, n ≠ .granary → s'.byteAt n k = s.byteAt n k)) ∧
        (∀ bs, r.kind = .write bs → r.cached = false → 1 < (domainsOf p.rmask).length → Completes (.homeRequest i) s (fun s' =>
          .homeRequest i ∈ s'.agenda ∧ sameMemory s s' ∧
          (s'.page? r.ctx (r.line / 512)).map (fun (q : Page) => (q.storing, q.putting, q.lock)) =
            some (some i, none, 1#8 <<< ((domainsOf p.rmask).headD 0))))) ∧
      (∀ a, locOf p (r.line * 128) = .host a → s.window? a = none → fromDies r →
        let failed := fun (s' : State) => (.negativeReply i 2#8 ∈ s'.agenda ∨ .negativeReply i 7#8 ∈ s'.agenda) ∧ sameMemory s s'
        (∀ ps, r.kind = .read ps → Completes (.homeRequest i) s (fun s' => failed s' ∨
          (RepliedWith s' i r 15 (ps.map (fun z => (z.1, memGet s.host (a + z.2 % 128)))) ∧ sameMemory s s'))) ∧
        (∀ bs, r.kind = .write bs → Completes (.homeRequest i) s (fun s' => s'.host = bs.foldl (fun m (b : WByte) => memPut m (a + b.a % 128) b.v) s.host ∧
          RepliedWith s' i r 15 [] ∧ ∀ n x, n ≠ .host → s'.byteAt n x = s.byteAt n x)) ∧
        (∀ op w8 ls, r.kind = .rmw op w8 ls → sharedWord ls = false → Completes (.homeRequest i) s (fun s' => failed s' ∨
          let x := rmwMem op w8 (ls.map (fun (z : LaneAtom) => { z with a := a + z.a % 128 })) s.host
          (s'.host = x.1 ∧ RepliedWith s' i r 15 (oldBytes x.2) ∧ ∀ n k, n ≠ .host → s'.byteAt n k = s.byteAt n k))))) ∧
    (s.req? i = some r → r.home = s.dev → s.dev < 16 → r.arr = 0 → (s.ctx? r.ctx).bind (fun (c : Ctx) => c.sampler) = none → homeRefusal s r = none →
      s.page? r.ctx (r.line / 512) = none →
      (∀ b n, r.who = .str b n → s.waitsAtHome r = false →
        (r.pinned = true → Completes (.homeRequest i) s (fun s' => .nrNopage i 0#32 ∈ s'.agenda ∧ sameMemory s s')) ∧
        (∀ t, r.pinned = false → s.ticketFor r.ctx (r.line / 512) = some t → Completes (.homeRequest i) s (fun s' =>
          .nrNopage i (ticketId s.dev t.slot t.gen) ∈ s'.agenda ∧ s'.ticketFor r.ctx (r.line / 512) = some (t.enlist (s.dev, r.die, r.core)) ∧ sameMemory s s'))) ∧
      (∀ t, s.waitsAtHome r = true → r.pinned = false → s.ticketFor r.ctx (r.line / 512) = some t → Completes (.homeRequest i) s (fun s' =>
        (s'.req? i).map (fun (q : Req) => (q.held, q.arr)) = some (some (ticketId s.dev t.slot t.gen), 0) ∧
        s'.ticketFor r.ctx (r.line / 512) = some t ∧ sameMemory s s'))) ∧
    (∀ d st, s.req? i = some r → r.pdie = some d → s.site? d = some st → fromDies r →
      let left := fun (s' : State) (k : ReqKind) => (s'.req? i).map (fun (q : Req) => (q.kind, q.back)) = some (k, r.back) ∧ .pantryVerb i ∈ s'.agenda
      let given := fun (s' : State) (bs : List (Nat × Byte)) => ∀ o op, r.op = some o → s.op? o = some op → s'.op? o = some (gather bs op)
      (st.st ≠ .admitted → r.arr = 0 ∨ st.st ≠ .quiescing → exec (.pantryVerb i) s = .next (s.post [.negativeReply i 4#8])) ∧
      (st.st = .admitted → r.arr = 0 → exec (.pantryVerb i) s = .next (({ s with nseq := s.nseq + 1 }.modReq i (fun x => { x with arr := s.nseq + 1 })).post [.pantryVerb i])) ∧
      (st.st = .admitted ∨ st.st = .quiescing → r.arr ≠ 0 →
        (∀ ps, r.kind = .read ps → Completes (.pantryVerb i) s (fun s' => sameMemory s s' ∧ ∃ now rest : List (Nat × Nat),
          (∀ z, z ∈ ps ↔ z ∈ now ∨ z ∈ rest) ∧ (ps ≠ [] → now ≠ []) ∧ given s' (now.map (fun z => (z.1, memGet st.pantry (z.2 % 2 ^ 27)))) ∧
          if rest = [] then RepliedWith s' i r d [] else left s' (.read rest))) ∧
        (∀ bs, r.kind = .write bs → Completes (.pantryVerb i) s (fun s' => (∀ n x, n ≠ .pantry d → s'.byteAt n x = s.byteAt n x) ∧
          ∃ now rest : List WByte, (∀ z, z ∈ bs ↔ z ∈ now ∨ z ∈ rest) ∧ (bs ≠ [] → now ≠ []) ∧
          (s'.site? d).map (fun (x : Site) => x.pantry) = some (now.foldl (fun m (b : WByte) => memPut m (b.a % 2 ^ 27) b.v) st.pantry) ∧
          if rest = [] then RepliedWith s' i r d [] else left s' (.write rest))) ∧
        (∀ op w8 ls, r.kind = .rmw op w8 ls → sharedWord ls = false → Completes (.pantryVerb i) s (fun s' => (∀ n x, n ≠ .pantry d → s'.byteAt n x = s.byteAt n x) ∧
          ∃ now rest : List LaneAtom, (∀ z, z ∈ ls ↔ z ∈ now ∨ z ∈ rest) ∧ (ls ≠ [] → now ≠ []) ∧
          let x := rmwMem op w8 (now.map (fun (z : LaneAtom) => { z with a := z.a % 2 ^ 27 })) st.pantry
          (s'.site? d).map (fun (x : Site) => x.pantry) = some x.1 ∧ given s' (oldBytes x.2) ∧
          if rest = [] then RepliedWith s' i r d [] else left s' (.rmw op w8 rest))))) ∧
    (∀ bs, s.req? i = some r → r.back = some bs →
      (∀ o op, dieTakes s r.die = true → loadOf s r o op → Completes (.dataMsg i none) s (fun s' => LoadAnswered s' o op bs ∧ s'.req? i = none ∧ sameMemory s s')) ∧
      (dieTakes s r.die = false → exec (.dataMsg i none) s = .next (s.dropReq i)))

/-- R315, R319, R321 to R325: GetS of a line without an entry grants it, exclusive to a MOESI requester, shared to another; of a line that
another die owns it asks the owner; of a line that none owns it adds a sharer. GetM and Upg of a line without other holders grant
ownership; other holders lose the line first. A line that the grant takes from host memory may draw what the host's completion says. -/
def Obligations.DirectoryRequests : Prop :=
  ∀ (i : Nat) (s : State) (r : Req) (p : Page), Arrives s i r p → (∃ b n, r.who = .str b n) → r.die < 10 → s.lineErr r.ctx r.line = none →
    let asks := fun (s' : State) (k : TxnKind) (hs : List Nat) => ∃ x, s'.txn? r.ctx r.line = some x ∧ x.kind = k ∧ x.r = i ∧ x.await = hs
    let sends := fun (s' : State) => .dataMsg i (if (s.lineAt r.die r.ctx r.line).isSome then none else some (s.memLine r.ctx r.line)) ∈ s'.agenda ∧
      s'.txn? r.ctx r.line = none ∧ sameMemory s s' ∧ (s'.req? i).map (fun (q : Req) => (q.src, q.arr)) = some (15, 0)
    let grants := fun (i : Instr) (given : Option DirEnt → Prop) => Completes i s (fun s' =>
      (sends s' ∧ given (s'.dir? r.ctx r.line)) ∨
      (p.hostres = true ∧ s.lineAt r.die r.ctx r.line = none ∧ (.negativeReply r.id 2#8 ∈ s'.agenda ∨ .negativeReply r.id 7#8 ∈ s'.agenda) ∧ sameMemory s s'))
    let owned := fun (o : Option DirEnt) => o.map (fun (e : DirEnt) => (e.st, e.owner)) = some (.M, r.die)
    (s.dir? r.ctx r.line = none → (snoopPeers s p.prim r.line).length < 16 →
      grants (.gets i) (fun o => ∃ e, o = some e ∧ (moesi s r = true → e.st = .E ∧ e.owner = r.die) ∧ (moesi s r = false → e.st = .S ∧ e.holders = [r.die])) ∧
      grants (.getm i) owned ∧ grants (.upg i) owned) ∧
    (∀ e, s.dir? r.ctx r.line = some e →
      (e.st.owns = true → e.owner ≠ r.die → e.owner < 16 → Completes (.gets i) s (fun s' => asks s' .gets [e.owner] ∧
        .fwdgets e.owner r.ctx r.line ∈ s'.agenda ∧ sameMemory s s')) ∧
      (e.st.owns = false → grants (.gets i) (fun o => ∃ e', o = some e' ∧ e'.st = e.st ∧ ∀ h, e'.holds h = true ↔ e.holds h = true ∨ h = r.die)) ∧
      (e.holders.filter (fun x => x != r.die) = [] → grants (.getm i) owned ∧ grants (.upg i) owned) ∧
      (e.holders.filter (fun x => x != r.die) ≠ [] →
        let os := e.holders.filter (fun x => x != r.die)
        Completes (.getm i) s (fun s' => asks s' .getm os ∧ (∀ h ∈ os, h < 16 → takeMsg e r.ctx r.line h ∈ s'.agenda) ∧ sameMemory s s') ∧
        Completes (.upg i) s (fun s' => asks s' .upg os ∧ (∀ h ∈ os, h < 16 → takeMsg e r.ctx r.line h ∈ s'.agenda) ∧ sameMemory s s')))

/-- R168, R323 to R326: a write-back of the owner's line that nothing stands before writes it to memory and takes the copy; one that an
earlier request stands before waits; on a replicated page it first locks the lowest of the replicas. A forwarded read leaves the owner's E
copy shared and its M copy owned and sends its data; a copy that is taken away goes, a dirty one sending its data home; the last
acknowledgement of a recall ends it, the data that it brings to a replicated page being written once every replica is locked; Data brings the line to the requester's die and its bytes to the load, some of them first. Which
bytes a load reads first is the model's choice (log 90). -/
def Obligations.DirectoryMessages : Prop :=
  ∀ (die ctx line : Nat) (s : State),
    (∀ c e, die < 16 → line < 2 ^ 41 → s.lineAt die ctx line = some c → c.keep = false → s.txn? ctx line = none → s.dir? ctx line = some e → e.st.owns = true →
      e.owner = die → (∀ x ∈ s.sites, ∀ y ∈ x.lines, y.ctx = ctx → y.line = line → y = c ∨ y.wb = false ∨ y.arr = 0) →
      let waiting := ∃ x ∈ s.reqs, x.ctx = ctx ∧ x.line = line ∧ x.home = s.dev ∧ x.pdie = none ∧ x.arr ≠ 0 ∧ (c.arr = 0 → x.arr ≤ s.nseq) ∧ (c.arr ≠ 0 → x.arr < c.arr)
      let alone := ∀ x ∈ s.reqs, x.ctx = ctx → x.line = line → x.home = s.dev → x.arr = 0 ∨ x.pdie.isSome = true
      let idle := fun (p : Page) => p.storing = none ∧ p.putting = none
      let back := fun (s' : State) => s'.lineAt die ctx line = none ∧ s'.gran = (s.writeHome ctx (line * 128) c.data).gran ∧
        s'.host = (s.writeHome ctx (line * 128) c.data).host ∧ (∀ x, s'.dir? ctx line = some x → x.st = .S ∧ x.holds die = false)
      (alone → (∀ p, s.page? ctx (line / 512) = some p → idle p ∧ (domainsOf p.rmask).length ≤ 1) →
        (c.st = .M → Completes (.putm die ctx line) s back) ∧ (c.st = .O → Completes (.puto die ctx line) s back)) ∧
      (waiting → (c.st = .M → Completes (.putm die ctx line) s (fun s' => .putm die ctx line ∈ s'.agenda ∧ sameMemory s s')) ∧
        (c.st = .O → Completes (.puto die ctx line) s (fun s' => .puto die ctx line ∈ s'.agenda ∧ sameMemory s s'))) ∧
      (∀ p, alone → s.page? ctx (line / 512) = some p → idle p → 1 < (domainsOf p.rmask).length → c.st = .M → Completes (.putm die ctx line) s (fun s' =>
        .putm die ctx line ∈ s'.agenda ∧ sameMemory s s' ∧ (s'.page? ctx (line / 512)).map (fun (q : Page) => (q.putting, q.storing, q.lock)) =
          some (some (die, line), none, 1#8 <<< ((domainsOf p.rmask).headD 0))))) ∧
    (∀ c x, s.lineAt die ctx line = some c → s.txn? ctx line = some x → x.await.contains die = true →
      s.dataTo die ctx line = false →
      (∀ r b n, x.ro = false → s.req? x.r = some r → r.who = .str b n → r.home = s.dev → r.ctx = ctx → r.line = line →
        s.lineAt r.die ctx line = none →
        Completes (.fwdgets die ctx line) s (fun s' => .dataMsg x.r (some c.data) ∈ s'.agenda ∧ (s'.req? x.r).map (fun (q : Req) => q.src) = some die ∧
          (s'.lineAt die ctx line).map (fun (y : CLine) => (y.st, y.data)) = some (c.st.forwarded, c.data) ∧ sameMemory s s')) ∧
      (x.kind = .getm ∨ x.kind = .upg → Completes (.fwdgetm die ctx line) s (fun s' => s'.lineAt die ctx line = none ∧
        (s'.txn? ctx line).map (fun (y : Txn) => (y.fwd, y.src)) = some (some c.data, die) ∧ .invack die ctx line none ∈ s'.agenda ∧ sameMemory s s')) ∧
      Completes (.backinv die ctx line) s (fun s' => s'.lineAt die ctx line = none ∧
        .invack die ctx line (if c.dirty then some c.data else none) ∈ s'.agenda ∧ sameMemory s s')) ∧
    (∀ x d, line < 2 ^ 41 → s.lineAt die ctx line = none → s.txn? ctx line = some x → x.await = [die] → x.kind = .recall → d.length = 128 →
      let idle := fun (p : Page) => p.storing = none ∧ p.putting = none
      (∀ p, s.page? ctx (line / 512) = some p → idle p → 1 < (domainsOf p.rmask).length → Completes (.invack die ctx line (some d)) s (fun s' =>
        .invack die ctx line (some d) ∈ s'.agenda ∧ sameMemory s s' ∧ s'.txns = s.txns ∧ (s'.page? ctx (line / 512)).map (fun (q : Page) => (q.putting, q.storing, q.lock)) =
          some (some (die, line), none, 1#8 <<< ((domainsOf p.rmask).headD 0)))) ∧
      ((∀ p, s.page? ctx (line / 512) = some p → idle p ∧ (domainsOf p.rmask).length ≤ 1) → Completes (.invack die ctx line (some d)) s (fun s' => s'.txn? ctx line = none ∧ s'.dir? ctx line = none ∧
        s'.gran = (s.writeHome ctx (line * 128) d).gran ∧ s'.host = (s.writeHome ctx (line * 128) d).host))) ∧
    (∀ i r o op ps d b n, s.req? i = some r → r.home = s.dev → s.dev < 16 → r.pdie = none → r.who = .str b n → r.cached = true → r.remote ≠ 3 →
      (s.site? r.die).any (fun (y : Site) => y.st == .admitted) = true → s.lineAt r.die r.ctx r.line = none → r.kind = .read ps → loadOf s r o op →
      r.back = none → d.length = 128 →
      Completes (.dataMsg i (some d)) s (fun s' => s'.req? i = none ∧ (∃ now rest : List (Nat × Nat), (∀ z, z ∈ ps ↔ z ∈ now ∨ z ∈ rest) ∧ (ps ≠ [] → now ≠ []) ∧
        let bs := now.map (fun z => (z.1, d.getD (z.2 % 128) 0#8))
        if rest = [] then LoadAnswered s' o op bs else s'.op? o = some { gather bs op with left := 0, todo := rest }) ∧
        (s'.lineAt r.die r.ctx r.line).map (fun (y : CLine) => y.data) = some d ∧ sameMemory s s'))

/-- R169, R182, R309 to R316: a load that drew NR_NOPAGE is rolled back and its string parked on the ticket; a released entry waits with it; a
core that remembers the notice acts on it at once. Ticket 0 to a pinned request (that an unpinned one's is an ordinary ticket is log 104, the
model's choice) is fatal to the context, also where a rollback undid the access (log 106, the model's reading): every band of it is killed, every open launch completes
with CONTEXT. A served page ends its ticket: the slot is free, its generation rises, what the owner held is performed, and the notice
follows, which makes the parked string ready, or brings it REMOTE_NEG with the code of a FAILED one. A code other than NR_RETRY ends an
access: fatal to the band of a released entry, REMOTE_NEG to a load; NR_PERM and NR_KEY quarantine a confidential context as well (R221, log 98,
106). A reply to
a die that is lost is discarded (R335), and NR_NOPAGE from a dead module is NR_PEER_DEAD (R348). A string without a ticket looks again; a replica is dropped.
That the cause of a FAILED notice names lane 0 (log 73), and what of the string its entry into the handler leaves (log 91), are the model's reading. -/
def Obligations.TicketsAndRefusals : Prop :=
  ∀ (i : Nat) (tk : BitVec 32) (s : State) (r : Req), s.req? i = some r → (tk ≠ 0#32 ∨ r.pinned = false) →
    (r.home ≠ s.dev → peerDead s r.home = true → exec (.nrNopage i tk) s = .next (s.post [.negativeReply i 5#8])) ∧
    (r.home = s.dev ∨ peerDead s r.home = false →
    (∀ o op t bd c k, r.op = some o → s.op? o = some op → op.undone = false → op.isPut = false → s.str? op.b op.n = some t → t.rp.seq ≤ op.seq →
      (remembered s r tk = none → (∀ x, t.wait ≠ .ticket x) → s.band? op.b = some bd → bd.place = .resident c → s.core? bd.die c = some k →
        k.tickets.length < 64 → Completes (.nrNopage i tk) s (fun s' => s'.str? op.b op.n = some (parked tk op.pc (rolled s op.b op.n t)) ∧
          (∃ k', s'.core? bd.die c = some k' ∧ ∃ e ∈ k'.tickets, e.t = tk ∧ (op.b, op.n) ∈ e.strs) ∧ sameMemory s s')) ∧
      (remembered s r tk = some 0#8 → Completes (.nrNopage i tk) s (fun s' => s'.str? op.b op.n = some { rolled s op.b op.n t with tkLast := 3 } ∧
        sameMemory s s'))) ∧
    ((r.op = none ∨ ∃ o op, r.op = some o ∧ s.op? o = some op ∧ op.undone = false ∧ op.isPut = true) →
      (remembered s r tk = none → exec (.nrNopage i tk) s = .next (s.modReq i (fun x => { x with held := some tk }))) ∧
      (remembered s r tk = some 0#8 → exec (.nrNopage i tk) s = .next (s.again r)) ∧
      (∀ code, remembered s r tk = some code → code ≠ 0#8 → exec (.nrNopage i tk) s = .next (s.post [.negativeReply r.id code]))) ∧
    (∀ b n bd, r.who = .str b n → r.pinned = true → s.band? b = some bd → Completes (.nrNopage i 0#32) s (fun s' => sameMemory s s' ∧ (r.op = none → s'.req? i = none) ∧
      (∀ x, s.band? x.id = some x → x.ctx = bd.ctx → x.place ≠ .ended → ∃ c, placeIn s' x.id = some (.killed c)) ∧
      (∀ l ∈ s.launches, l.ctx = bd.ctx → l.complete = false → .launchComplete l.id ∈ s'.agenda ∧ ∃ l' ∈ s'.launches, l'.id = l.id ∧
        l'.stopped = true ∧ l'.atOnce = true ∧ (l.status = 0 → l'.status = 7))))) ∧
    (∀ code : BitVec 8, dieTakes s r.die = false → exec (.negativeReply i code) s = .next (s.dropReq i)) ∧
    (dieTakes s r.die = true → exec (.negativeReply i 9#8) s = .next ((s.modReq i Req.away).again r)) ∧
    (∀ code : BitVec 8, dieTakes s r.die = true → code ≠ 9#8 →
      let shut := fun (s' : State) => if code = 2#8 ∨ code = 6#8 then violation s' (r.agentCtx s) else s'
      (∀ b n, r.op = none → r.who = .str b n → exec (.negativeReply i code) s = .next (shut (entryRefused s r b))) ∧
      (∀ o op b n, r.op = some o → s.op? o = some op → op.undone = false → op.isPut = false → r.who = .str b n →
        exec (.negativeReply i code) s = .next (shut (opRefused s r op code.toNat))) ∧
      (∀ j, r.op = none → r.who = .job j → exec (.negativeReply i code) s = .next (shut (jobFail (s.dropReq i) j 7 code.toNat))) ∧
      (∀ off, r.op = none → r.who = .host off → exec (.negativeReply i code) s = .next (hostRefused s r off))) ∧
    (∀ b n t, s.str? b n = some t → t.wait = .retry → Completes (.ticketRetryExpiry b n) s (fun s' => s'.str? b n = some { t with wait := .none } ∧ sameMemory s s')) ∧
    (∀ code, heldAtHome s tk = true → exec (.replayNotice tk code) s = .next (s.post [.replayNotice tk code])) ∧
    (∀ b n t, s.str? b n = some t → t.wait = .ticket tk → heldAtHome s tk = false → (∀ u ∈ s.strs, u.wait = .ticket tk → u = t) →
      (s.strs.filter (fun (u : Str) => u.wait == .ticket tk)).length = 1 →
      let told := fun (s' : State) => (∀ k ∈ s'.cores, ∀ e ∈ k.tickets, e.t ≠ tk) ∧ sameMemory s s'
      Completes (.replayNotice tk 0#8) s (fun s' => s'.str? b n = some { t with wait := .none, tkLast := 1 } ∧ told s') ∧
      (∀ code bd c, code ≠ 0#8 → t.ended = false → s.band? b = some bd → bd.place = .resident c → bd.prof ≠ .executive →
        let u := rolled s b n { t with wait := .none, tkLast := 2 }
        (tm0 t = true → Completes (.replayNotice tk code) s (fun s' => (∃ c, placeIn s' b = some (.killed c)) ∧ told s')) ∧
        (tm0 t = false → u.xtvec ≠ 0#64 → inBale s bd.bale u.xtvec = true → Completes (.replayNotice tk code) s (fun s' =>
          s'.str? b n = some (enterHandler (((s.bale? bd.bale).map (fun (x : Bale) => x.base)).getD 0#64) u
            { cause := .remoteNeg, detail := code.toNat, bad := t.tkPc, late := true } s.nseq) ∧ told s')))) ∧
    (∀ slot t p, s.tslots.find? (fun (x : TSlot) => x.slot == slot && x.used) = some t → t.ctx ≠ 0 → s.page? t.ctx t.page = some p → p.mov = false →
      let id := ticketId s.dev t.slot t.gen
      let ends := fun (s' : State) (code : BitVec 8) => (s'.tslots.find? (fun (x : TSlot) => x.slot == slot)).map (fun (x : TSlot) => (x.used, x.gen)) =
          some (false, t.gen + 1#12) ∧
        .replayNotice id code ∈ s'.agenda ∧ (∃ x ∈ s'.notes, x.ticket = id ∧ x.cores = t.cores ∧ x.bcast = t.bcast) ∧ sameMemory s s'
      Completes (.pageServiceDone slot 0#8) s (fun s' => (s'.page? t.ctx t.page).map (fun (x : Page) => x.v) = some true ∧ ends s' 0#8 ∧
        ∀ x ∈ s.reqs, x.held = some id → x.home = s.dev → x.pdie = none → s.waitsAtHome x = true → homeRefusal s x = none → x.event ∈ s'.agenda) ∧
      (∀ code, code = 0x81#8 ∨ code = 0x83#8 ∨ code = 0x84#8 → p.v = false → Completes (.pageServiceDone slot code) s (fun s' =>
        (s'.page? t.ctx t.page).map (fun (x : Page) => x.v) = some false ∧ ends s' code))) ∧
    (∀ ctx page dom p, ctx ≠ 0 → s.page? ctx page = some p → dom < 8 → dom ≠ p.prim → p.rmask.getLsbD dom = true →
      Completes (.replicaDrop ctx page dom) s (fun s' => (s'.page? ctx page).map (fun (x : Page) => (x.rmask.getLsbD dom, x.dropped.getLsbD dom, x.frame)) = some (false, true, p.frame) ∧
        sameMemory s s'))

/-- R328 to R330, R339: a trained link is enumerated; the third failed attempt isolates the site; a table that passes admits its die with its
class and its cores, one that fails, or is not read in time, refuses it with a record in the error log. Module reset enters start-up
mode with time at 0 and stands at STAGE 1, or at STAGE 15 with a reason. That every memory on the module is empty then, and the host's memory
as it was, is the model's choice (log 45), and so is that the firmware may be found good or bad (log 46), that the next polling slot then
trains every site, and that STAGE 4 starts the OS or fails (log 35). -/
def Obligations.DiesTrainAndAdmit : Prop :=
  (∀ (d : Nat) (s : State) (x : Site), s.site? d = some x →
    (x.st = .training →
      Completes (.linkTrained d) s (fun s' => s'.site? d = some { x with st := .enumerating, trainFail := 0, gts := 16 } ∧ sameMemory s s') ∧
      Completes (.trainingTimeout d) s (fun s' => s'.site? d = some (if x.trainFail < 2 then { x with trainFail := x.trainFail + 1 } else
        { x with st := .isolated, trainFail := 0 }) ∧ sameMemory s s')) ∧
    (x.st = .enumerating →
      Completes (.enumerationTimeout d) s (fun s' => s'.site? d = some { x with st := .isolated } ∧ s.errlog.length < s'.errlog.length ∧ sameMemory s s') ∧
      (∀ t, capOk d t = false → Completes (.capabilityCheck d t) s (fun s' => s'.site? d = some { x with st := .isolated } ∧
        s.errlog.length < s'.errlog.length ∧ sameMemory s s')) ∧
      (∀ t, capOk d t = true → mayAdmit s d = true → Completes (.capabilityCheck d t) s (fun s' =>
        (s'.site? d).map (fun (y : Site) => (y.st, y.cls, y.cap, y.gts)) = some (.admitted, some (grantClass (siteKind d)).1, some t, grantStep t) ∧
        (s'.cores.filter (fun (c : Core) => c.die == d)).map (fun (c : Core) => c.num) = List.range (capCores t) ∧ .bandDispatch d ∈ s'.agenda ∧ sameMemory s s')))) ∧
  (∀ s : State, Completes .moduleReset s (fun s' => s'.smode = 1 ∧ s'.alarm = 0#4 ∧ s'.strs = [] ∧ s'.bands = [] ∧ s'.gran = [] ∧ s'.host = s.host ∧
    s'.clk = 0#64 ∧ (∀ x ∈ s'.sites, x.pantry = []) ∧ ((s'.stage = 1 ∧ s'.fail = 0 ∧ .pollingSlot 0 0 ∈ s'.agenda ∧ (s'.core? 15 0).isSome = true) ∨
      (s'.stage = 15 ∧ s'.fail ≠ 0)))) ∧
  (∀ (core q : Nat) (s : State), (s.core? 15 core).isSome = true →
    (s.stage = 1 → Completes (.pollingSlot core q) s (fun s' => s'.stage = 2 ∧ (∀ x ∈ s'.sites, x.st = .training) ∧ sameMemory s s')) ∧
    (s.stage = 4 → Completes (.pollingSlot core q) s (fun s' => ((s'.stage = 5 ∧ s'.fail = s.fail) ∨ (s'.stage = 15 ∧ s'.fail ≠ 0)) ∧ sameMemory s s')))

/-- R331, R333, R335, R336: a heartbeat opens a count, an answered one ends a run of misses, and the third miss in a row is a hang: the die is
lost, a line that it held modified is logged as forfeit and reverts to memory, and normal mode gives way to recovery. A link steps up above
70 per cent and down below 20; a failed retraining is retried at the previous step. That the failure at the new step does not count and the third
at the previous one loses the die is the model's reading (log 33). R329, R332, R335, R363: DIE_QUIESCE of an admitted die ends its grants and pre-empts its resident bands, and the waybills of its store are no
longer valid; once no band, line or transaction of it is left it is isolated and the record ends. DIE_RESET puts an isolated die into
RESETTING, and an admitted or quiescing one too, which loses what it held as a hung die does; it trains an absent site. When resetting is
complete the pantry is zero and the site trains. -/
def Obligations.DiesHangQuiesceReset : Prop :=
  (
    ∀ (d : Nat) (s : State) (x : Site), s.site? d = some x → d < 12 →
      Completes .heartbeat s (fun s' => s'.site? d = some (if x.beats then { x with hbMiss := if x.hbOut then 0 else x.hbMiss, hbOut := true } else x) ∧ sameMemory s s') ∧
      (x.beats = true → x.hbOut = true →
        (x.hbMiss < 2 → Completes (.heartbeatMiss d) s (fun s' => s'.site? d = some { x with hbMiss := x.hbMiss + 1, hbOut := false } ∧ sameMemory s s')) ∧
        (2 ≤ x.hbMiss → noneAwaits s d → Completes (.heartbeatMiss d) s (fun s' => DieLost s' d ∧ s'.smode = (if s.smode = 0 then 3 else s.smode) ∧
          s'.gran = s.gran ∧ s'.host = s.host ∧
          (∀ e c, s.dir.filter (fun (y : DirEnt) => y.st.owns && y.owner == d) = [e] → (∀ y ∈ s.txns, y.fwd = none) → (∀ q ∈ s.reqs, q.src = d → q.die = d) →
            s.lineAt d e.ctx e.line = some c → c.st = .M → s.forfeit.length < 65536 →
            s'.forfeit = s.forfeit ++ [{ addr := BitVec.ofNat 64 (e.ctx * 2 ^ 52 + e.line * 128 % 2 ^ 48), die := d, st := 1, time := s.clk, seq := s.forfeitSeq }])))) ∧
      (x.st = .admitted → x.retraining = none → ∀ t, x.cap = some t →
        (∀ u g, 70 < u → ((stepsOf (capUsteps t)).filter (fun g => decide (x.gts < g))).head? = some g →
          Completes (.linkStepInterval d u) s (fun s' => s'.site? d = some { x with retraining := some x.gts, gts := g, retrainFail := 0 } ∧
            (∃ ok, .retrainDone d ok ∈ s'.agenda) ∧ sameMemory s s')) ∧
        (∀ u g, u < 20 → ((stepsOf (capUsteps t)).filter (fun g => decide (g < x.gts))).getLast? = some g →
          Completes (.linkStepInterval d u) s (fun s' => s'.site? d = some { x with retraining := some x.gts, gts := g, retrainFail := 0 } ∧
            (∃ ok, .retrainDone d ok ∈ s'.agenda) ∧ sameMemory s s')) ∧
        (∀ u, 20 ≤ u → u ≤ 70 → exec (.linkStepInterval d u) s = .next s)) ∧
      (∀ old, x.retraining = some old →
        Completes (.retrainDone d true) s (fun s' => s'.site? d = some { x with retraining := none, retrainFail := 0 } ∧ sameMemory s s') ∧
        (x.gts ≠ old → Completes (.retrainDone d false) s (fun s' => s'.site? d = some { x with gts := old } ∧ (∃ ok, .retrainDone d ok ∈ s'.agenda) ∧ sameMemory s s')) ∧
        (x.gts = old → x.retrainFail < 2 → Completes (.retrainDone d false) s (fun s' => s'.site? d = some { x with retrainFail := x.retrainFail + 1 } ∧
          (∃ ok, .retrainDone d ok ∈ s'.agenda) ∧ sameMemory s s')) ∧
        (x.gts = old → 2 ≤ x.retrainFail → x.st = .admitted → noneAwaits s d → Completes (.retrainDone d false) s (fun s' => DieLost s' d)))) ∧
  (
    ∀ (d code : Nat) (s : State) (x : Site) (r : MgmtRec), s.site? d = some x → s.mgmtBusy = some (code, r) → r.target = d → d < 12 →
      (code = 0x0B →
        (x.st = .admitted → Completes .dieQuiesce s (fun s' => s'.site? d = some { x.lapse with st := .quiescing } ∧ .dieQuiesceDone ∈ s'.agenda ∧
          (∀ b ∈ s.bands, b.die = d → (∃ c, b.place = .resident c) → .preemptionRequest b.id ∈ s'.agenda) ∧
          (∀ b ∈ s'.bands, b.die = d → ∀ c, b.place ≠ .queued c) ∧ (∀ w ∈ s'.waybills, w.die = d → w.spilled = false → w.valid = false) ∧ sameMemory s s')) ∧
        (x.st ≠ .admitted → exec .dieQuiesce s = .next (endMgmt s 1 0)) ∧
        (x.st = .quiescing → s.bands.find? (bandOnDie d) = none → x.lines = [] → dieInvolved s d = false →
          Completes .dieQuiesceDone s (fun s' => DieLost s' d ∧ RecordEnds s' r ∧ sameMemory s s'))) ∧
      (code = 0x0C →
        (x.st = .isolated → Completes .dieReset s (fun s' => s'.site? d = some { x with st := .resetting } ∧ .resettingComplete ∈ s'.agenda ∧ sameMemory s s')) ∧
        (x.st = .admitted ∨ x.st = .quiescing → noneAwaits s d → Completes .dieReset s (fun s' => (s'.site? d).map (fun (y : Site) => (y.st, y.cls, y.lines)) = some (.resetting, none, []) ∧
          (∀ c ∈ s'.cores, c.die ≠ d) ∧ (∀ e ∈ s'.dir, e.holds d = false) ∧ s'.smode = (if s.smode = 0 then 3 else s.smode) ∧
          (∀ b ∈ s.bands, s.band? b.id = some b → b.die = d → b.replayAt = none → (∃ c, b.place = .resident c) → ∃ c, placeIn s' b.id = some (.killed c)) ∧
          .resettingComplete ∈ s'.agenda ∧ s'.gran = s.gran ∧ s'.host = s.host)) ∧
        (x.st = .absent → Completes .dieReset s (fun s' => s'.site? d = some { x with st := .training, trainFail := 0 } ∧ RecordEnds s' r ∧ sameMemory s s')) ∧
        (x.st = .training ∨ x.st = .enumerating ∨ x.st = .resetting → exec .dieReset s = .next (endMgmt s 1 0)) ∧
        (x.st = .resetting → Completes .resettingComplete s (fun s' => s'.site? d = some { x with st := .training, trainFail := 0, pantry := [] } ∧ RecordEnds s' r ∧
          ∀ n a, n ≠ .pantry d → s'.byteAt n a = s.byteAt n a))))

/-- R221, R339, R359: an environmental alarm sets its bit of STATUS.ALARM and quarantines the contexts that it meets and no other; a temperature alarm
of a die forces its cores to 0.9 GHz until it clears; a write of 1 clears a bit of ALARM. That an alarm of any stack meets context 0 is the
model's reading (log 49), and so is that the cores go back to their own step as the alarm clears (log 44). -/
def Obligations.Alarms : Prop :=
  (∀ (kind : AlarmKind) (onStack : Bool) (site : Nat) (s : State), Completes (.environmentalAlarm kind onStack site) s (fun s' =>
    s'.alarm = s.alarm ||| AlarmKind.bit kind ∧
    (∀ c x, s.ctx? c = some x → alarmed s onStack site c = true → (s'.ctx? c).map (fun (y : Ctx) => y.quarantined) = some true) ∧
    (∀ c, alarmed s onStack site c = false → s'.ctx? c = s.ctx? c) ∧
    (kind = .temperature → onStack = false → ∀ k ∈ s'.cores, k.die = site → (s.site? site).isSome = true → coreMhz s' k = 900) ∧ sameMemory s s')) ∧
  (∀ (d : Nat) (s : State), Completes (.alarmClears d) s (fun s' => (∀ k ∈ s'.cores, k.die = d → coreMhz s' k = k.mhz) ∧ s'.cores = s.cores ∧
    s'.ctxs = s.ctxs ∧ s'.alarm = s.alarm ∧ sameMemory s s')) ∧
  (∀ (v : BitVec 4) (s : State), Completes (.statusAlarmClear v) s (fun s' => (∀ i, s'.alarm.getLsbD i = (s.alarm.getLsbD i && !v.getLsbD i)) ∧
    s' = { s with alarm := s'.alarm }))

/-- R346 to R348, R57: three failed retrainings in a row take a link down: what it had sent and has no acknowledgement of (how much is open) goes over
the relay in its order, before what was held, and a relay is a module whose link is up; one good attempt brings it up. The third
missed heartbeat in a row makes the peer dead: the requests that it was to answer are answered NR_PEER_DEAD, strings parked on its tickets take the
same code, and normal mode gives way to recovery; a peer granted again lives. That a heartbeat that finds the window open again finds it over
is the model's reading (log 51), and that the dead peer's own requests go is its choice (log 101). -/
def Obligations.FabricLinksAndPeers : Prop :=
  ∀ (m : Nat) (s : State) (l : Link), s.link? m = some l →
    (l.up = true → Completes (.fabricLinkRetrain m) s (fun s' => s'.link? m = some { l with retraining := true, fails := 0, skipped := false } ∧ sameMemory s s')) ∧
    (l.up = true → l.retraining = true →
      (l.fails < 2 → Completes (.fabricRetrainFail m) s (fun s' => s'.link? m = some { l with fails := l.fails + 1 } ∧ sameMemory s s')) ∧
      (2 ≤ l.fails → Completes (.fabricRetrainFail m) s (fun s' => ∃ l' k, s'.link? m = some l' ∧ l'.out = (l.out.drop k ++ l.held).map (fun (x : FabMsg) => { x with relayed := true }) ∧
        l' = { l with up := false, retraining := false, fails := 0, skipped := false, held := [], relay := l'.relay, out := l'.out } ∧
        (l.dead = false → ∀ k, l'.relay = some k → k ≠ m ∧ k ≠ s.dev ∧ ∃ y ∈ s'.links, y.m = k ∧ y.up = true) ∧ sameMemory s s'))) ∧
    (l.up = false →
      (portUp s m = true → Completes (.fabricLinkRetry m true) s (fun s' =>
        s'.link? m = some { l with up := true, retraining := false, fails := 0, relay := none } ∧ sameMemory s s')) ∧
      Completes (.fabricLinkRetry m false) s (fun s' => (∃ k, s'.link? m = some { l with relay := k }) ∧ sameMemory s s')) ∧
    (l.dead = false →
      Completes (.peerHeartbeat m true) s (fun s' => (s'.link? m).map (fun (y : Link) => (y.hbMiss, y.up, y.dead)) = some (0, l.up, false) ∧ sameMemory s s') ∧
      (l.retraining = false → Completes (.peerHeartbeat m false) s (fun s' => s'.link? m = some { l with hbMiss := l.hbMiss + 1 } ∧
        (2 ≤ l.hbMiss → .peerDead m ∈ s'.agenda) ∧ sameMemory s s')) ∧
      (l.retraining = true → l.skipped = false → Completes (.peerHeartbeat m false) s (fun s' => sameMemory s s' ∧
        (s'.link? m = some { l with skipped := true } ∨
          (s'.link? m = some { l with skipped := true, hbMiss := l.hbMiss + 1 } ∧ (2 ≤ l.hbMiss → .peerDead m ∈ s'.agenda))))) ∧
      (l.retraining = true → l.skipped = true → Completes (.peerHeartbeat m false) s (fun s' => sameMemory s s' ∧
        s'.link? m = some { l with retraining := false, fails := 0, skipped := false, hbMiss := l.hbMiss + 1 } ∧ (2 ≤ l.hbMiss → .peerDead m ∈ s'.agenda))) ∧
      (noneAwaits s (16 + m) → m ≠ s.dev → Completes (.peerDead m) s (fun s' => (s'.link? m).map (fun (y : Link) => y.dead) = some true ∧
        s'.smode = (if s.smode = 0 then 3 else s.smode) ∧
        (∀ r ∈ s.reqs, r.home = m → r.pdie = none → .negativeReply r.id 5#8 ∈ s'.agenda) ∧
        (∀ t ∈ s.strs, ∀ k, t.wait = .ticket k → ticketDev k = m → .replayNotice k 5#8 ∈ s'.agenda) ∧ (∀ r ∈ s'.reqs, r.who ≠ .peer m) ∧ sameMemory s s'))) ∧
    Completes (.peerGrantedAgain m) s (fun s' => s'.link? m = some { l with dead := false, hbMiss := 0 } ∧ sameMemory s s')

/-- R213, R343, R344, R352 to R354, R366: CTX_CREATE reads the key block, makes the context and writes zeros to the block, and a command ends once its writes are performed;
CTX_DESTROY freezes the context, and at its last step nothing of the context is left, its pages' granary zero; LOAD makes a verified bale executable and retires the
one of the same code, and an object that fails makes nothing executable; PREEMPT asks for a resident band; SPAN_INV empties the span caches. That PREEMPT's record ends as the request is made is the model's reading
(log 41), and so is that a bale keeps the words that LOAD opened (log 39). -/
def Obligations.ContextCommands : Prop :=
  ∀ (code : Nat) (s : State) (r : MgmtRec), s.mgmtBusy = some (code, r) →
    (∀ s1 bs, code = 0x01 → s.ctx? r.target = none → peekVa s 0 (r.arg 16 8) (r.arg 24 4) = .bytes s1 bs → Completes .ctxCreate s (fun s' =>
      (∃ c, s'.ctx? r.target = some c ∧ c.conf = (r.arg 8 1 % 2 == 1) ∧ c.pinned = (r.arg 8 1 / 2 % 2 == 1) ∧ c.keys = bs ∧ c.nsign = r.arg 9 1 ∧
        c.pool = 65536 * r.arg 12 4 ∧ c.spanBase = 0#64 ∧ c.achain = 0#512 ∧ c.quarantined = false) ∧
      (∀ q ∈ s'.reqs, q ∈ s1.reqs ∨ ∃ ws, q.kind = .write ws ∧ ∀ w ∈ ws, w.v = 0#8) ∧ s'.mgmtBusy = some (0x101, r) ∧ .ctxCreate ∈ s'.agenda ∧ sameMemory s s')) ∧
    (code = 0x01 → (s.ctx? r.target).isSome = true → exec .ctxCreate s = .next (endMgmt s 1 0)) ∧
    (code = 0x101 → (∀ q ∈ s.reqs, q.who ≠ .serai 0 r.sq) → Completes .ctxCreate s (fun s' => RecordEnds s' r ∧ s'.ctxs = s.ctxs ∧ sameMemory s s')) ∧
    (code = 0x02 → (s.ctx? r.target).isSome = true → (s.bands.map (fun (b : Band) => b.id)).Nodup → Completes .ctxDestroy s (fun s' =>
      (s'.ctx? r.target).map (fun (c : Ctx) => c.frozen) = some true ∧ (∀ b ∈ s'.bands, b.ctx = r.target → ∀ c, b.place ≠ .resident c) ∧
      (∀ g ∈ s'.groups, g.ctx = r.target → g.broken = true) ∧ .ctxDestroy ∈ s'.agenda)) ∧
    (code = 0x202 → unfetched s r.target = none → ctxQuiet (endPackets s r.target) r.target = true → Completes .ctxDestroy s (fun s' =>
      (∀ e ∈ s'.extents, e.ctx = r.target → e.revoked = true) ∧ s'.mgmtBusy = some (0x302, r) ∧ .ctxDestroy ∈ s'.agenda ∧ sameMemory s s')) ∧
    (code = 0x302 → r.target ≠ 0 → (∀ e ∈ s.dir, e.ctx ≠ r.target) → (∀ x ∈ s.txns, x.ctx ≠ r.target) → accepted s (fun q => q.ctx == r.target) = false → Completes .ctxDestroy s (fun s' =>
      s'.ctx? r.target = none ∧ (∀ p ∈ s'.pages, p.ctx ≠ r.target) ∧ (∀ w ∈ s'.waybills, w.ctx ≠ r.target) ∧ (∀ b ∈ s'.bales, b.ctx ≠ r.target) ∧
      (∀ g ∈ s'.groups, g.ctx ≠ r.target) ∧ (∀ b ∈ s'.bands, b.ctx ≠ r.target) ∧ (∀ x ∈ s'.launches, x.ctx ≠ r.target) ∧ RecordEnds s' r ∧
      (∀ p ∈ s.pages, p.ctx = r.target → p.hostres = false → ∀ d k, d < 8 → p.rmask.getLsbD d = true → k < 65536 → memGet s'.gran (d * 2 ^ 38 + p.frame * 65536 + k) = 0#8))) ∧
    (∀ c s1 obj, code = 0x03 → s.ctx? r.target = some c → peekVa s 0 (r.arg 8 8) (r.arg 16 8) = .bytes s1 obj →
      let hs := (Config.objBales obj).filter (fun h => r.arg 24 1 == 0 || h.code == r.arg 24 1)
      (hs = [] → Completes .loadObj s (fun s' => s'.bales = s.bales ∧ RecordEnds s' r ∧ sameMemory s s')) ∧
      (∀ h, hs = [h] →
        let v := verifySegs c (objSegs obj h) c.achain
        let s2 := s1.modCtx r.target (fun c => { c with achain := v.1 })
        let fit := v.2 = true ∧ 1 ≤ h.code ∧ h.code ≤ 3 ∧ 1 ≤ h.nseg ∧ h.nseg ≤ 64
        (fit → placeBale s2 r.target h (objSegs obj h) = none → Completes .loadObj s (fun s' =>
          s'.bales = s.bales ∧ (s'.ctx? r.target).map (fun (x : Ctx) => x.achain) = some v.1 ∧ RecordEnds s' r ∧ sameMemory s s')) ∧
        (fit → (placeBale s2 r.target h (objSegs obj h)).isSome = true → Completes .loadObj s (fun s' =>
          (s'.ctx? r.target).map (fun (x : Ctx) => x.achain) = some v.1 ∧ RecordEnds s' r ∧ (∀ n a, n ≠ .granary → s'.byteAt n a = s.byteAt n a) ∧
          (∀ p ∈ s.pages, p.hostres = false → p.frame < frameCount → ∀ d k, d < 8 → p.rmask.getLsbD d = true → k < 65536 →
            memGet s'.gran (d * 2 ^ 38 + p.frame * 65536 + k) = memGet s.gran (d * 2 ^ 38 + p.frame * 65536 + k)) ∧
          (∃ b ∈ s'.bales, b.ctx = r.target ∧ b.code = h.code ∧ b.old = false ∧ b.words = baleWords (objSegs obj h) ∧ b.segs = (objSegs obj h).map (fun g => g.seg) ∧
            ∀ y ∈ s'.bales, y.ctx = r.target → y.code = h.code → y = b ∨ y.old = true))) ∧
        (v.2 = false → Completes .loadObj s (fun s' => s'.bales = s.bales ∧ (s'.ctx? r.target).map (fun (x : Ctx) => x.achain) = some v.1 ∧ RecordEnds s' r ∧ sameMemory s s')))) ∧
    (∀ l b, code = 0x04 → s.launches.find? (fun (l : Launch) => l.q == r.target && l.sq == r.arg 8 8 && !l.complete) = some l →
      s.bands.find? (fun (b : Band) => b.launch == l.id && b.index == r.arg 16 4 && (b.place matches .resident _)) = some b →
      Completes .preemptCmd s (fun s' => .preemptionRequest b.id ∈ s'.agenda ∧ RecordEnds s' r ∧ sameMemory s s')) ∧
    (code = 0x06 → (s.ctx? r.target).isSome = true → Completes .spanInv s (fun s' => (∀ k ∈ s'.cores, ∀ x ∈ k.spans, x.1 ≠ r.target) ∧ RecordEnds s' r ∧ sameMemory s s'))

/-- R20, R169, R305, R307, R343, R344: PAGE map gives a page a frame, zeroed in every stack of its mask, or a zeroed host page; move and
restore-replicas, which a pinned page refuses, set MOV and start a copy; none of them takes a page out of its allocation's mask; pin and
unpin set the bit; once nothing of the page is outside its home the move completes: its bytes stand at the new place and in every replica,
and MOV is clear. Which frame is taken is the model's choice (log 34); the status of a refused command (log 42), the allocation of a page
that page service has not met (log 80) and the copy in one act (log 10) are its reading. -/
def Obligations.PageCommands : Prop :=
  ∀ (code : Nat) (s : State) (r : MgmtRec), s.mgmtBusy = some (code, r) → code = 0x05 → r.target ≠ 0 →
    let mask := BitVec.ofNat 8 (r.arg 25 1)
    let kept := fun (m : BitVec 8) => (s.inAlloc r.target r.page m).isSome = true
    ((s.ctx? r.target).isSome = true → s.page? r.target r.page = none →
      (¬kept mask → exec .pageMap s = .next (endMgmt s 1 0)) ∧
      (kept mask → r.arg 26 1 = 1 → Completes .pageMap s (fun s' => RecordEnds s' r ∧
        (s'.page? r.target r.page).map (fun (p : Page) => (p.v, p.hostres, p.prim, p.frame)) = some (true, true, r.arg 24 1, hostFrame r) ∧
        (∀ k, k < 65536 → memGet s'.host (hostFrame r * 65536 + k) = 0#8) ∧
        (∀ a, a < hostFrame r * 65536 ∨ hostFrame r * 65536 + 65536 ≤ a → memGet s'.host a = memGet s.host a) ∧
        ∀ n a, n ≠ .host → s'.byteAt n a = s.byteAt n a)) ∧
      (∀ f, kept mask → r.arg 26 1 ≠ 1 → freeFrame s mask = some f → Completes .pageMap s (fun s' => RecordEnds s' r ∧
        (s'.page? r.target r.page).map (fun (p : Page) => (p.v, p.hostres, p.prim, p.rmask, p.frame)) = some (true, false, r.arg 24 1, mask, f) ∧
        let inFrame := fun (d x : Nat) => d * 2 ^ 38 + f * 65536 ≤ x ∧ x < d * 2 ^ 38 + f * 65536 + 65536
        (∀ x, memGet s'.gran x = if ∃ d, d < 8 ∧ (mask).getLsbD d = true ∧ inFrame d x then 0#8 else memGet s.gran x) ∧
        ∀ n x, n ≠ .granary → s'.byteAt n x = s.byteAt n x))) ∧
    (∀ p, s.page? r.target r.page = some p →
      (p.pin = true → exec .pageMove s = .next (endMgmt s 1 0)) ∧
      (p.pin = false → p.mov = false → p.v = true → ¬kept mask → exec .pageMove s = .next (endMgmt s 1 0)) ∧
      (∀ f, p.pin = false → p.mov = false → p.v = true → kept mask → r.arg 26 1 ≠ 1 → freeFrame s mask = some f → Completes .pageMove s (fun s' =>
        (s'.page? r.target r.page).map (fun (q : Page) => (q.mov, q.move)) = some (true, some (r.arg 24 1, mask, false, f)) ∧
        .pageMoveComplete ∈ s'.agenda ∧ sameMemory s s')) ∧
      (p.pin = false → p.mov = false → p.v = true → kept mask → r.arg 26 1 = 1 → Completes .pageMove s (fun s' =>
        (s'.page? r.target r.page).map (fun (q : Page) => (q.mov, q.move)) = some (true, some (r.arg 24 1, mask, true, hostFrame r)) ∧
        .pageMoveComplete ∈ s'.agenda ∧ sameMemory s s')) ∧
      (p.pin = true → exec .pageRestoreReplicas s = .next (endMgmt s 1 0)) ∧
      (p.pin = false → p.mov = false → p.v = true → p.hostres = false → kept (p.rmask ||| (p.dropped &&& mask)) → Completes .pageRestoreReplicas s (fun s' =>
        (s'.page? r.target r.page).map (fun (q : Page) => (q.mov, q.move)) = some (true, some (p.prim, p.rmask ||| (p.dropped &&& mask), false, p.frame)) ∧
        .pageMoveComplete ∈ s'.agenda ∧ sameMemory s s')) ∧
      Completes .pagePin s (fun s' => s'.page? r.target r.page = some { p with pin := true } ∧ RecordEnds s' r ∧ sameMemory s s') ∧
      Completes .pageUnpin s (fun s' => s'.page? r.target r.page = some { p with pin := false } ∧ RecordEnds s' r ∧ sameMemory s s') ∧
      (∀ pr m h f, p.move = some (pr, m, h, f) → pageBusy s r.target r.page = false → Completes .pageMoveComplete s (fun s' => RecordEnds s' r ∧
        ∃ q, s'.page? r.target r.page = some q ∧ q.mov = false ∧ q.move = none ∧ q.prim = pr ∧ q.rmask = m ∧ q.hostres = h ∧ q.frame = f ∧
          s'.readLoc (locOf q 0) 65536 = s.readLoc (locOf p 0) 65536 ∧ ∀ l ∈ replicasOf q 0, s'.readLoc l 65536 = s.readLoc (locOf p 0) 65536)))

/-- R349, R350, R275, R334, R344, R356, R358, R340, R338, R57: EXTENT_GRANT, EXTENT_REVOKE, COL_SETUP and COL_DESTROY make and end their objects; LOG_READ of the forfeit log clears the records that it copies, QUOTE and EXPORT
write their data, and these three end once their writes are performed; QUEUE_CFG sets a window up with its indices at 0, off for a size that R340 does not give; APERTURE maps and unmaps a unit; SERVICE_MODE sets the mode, and leaves
start-up only once STAGE reads 5. That a queue with such a size leaves every polling table is the model's choice (log 82), and that reserved
bits of QUEUE_CFG's word are ignored is its reading (log 84). -/
def Obligations.WindowAndLogCommands : Prop :=
  ∀ (code : Nat) (s : State) (r : MgmtRec), s.mgmtBusy = some (code, r) →
    let known := (s.ctx? r.target).isSome = true
    let written := fun (i : Instr) => code / 256 % 256 = 1 ∧ (∀ q ∈ s.reqs, q.who ≠ .serai 0 r.sq) → exec i s = .next (endMgmt s 0 (code / 65536))
    (code = 0x07 → (∀ e ∈ s.extents, e.n = r.target → e.revoked = true) → (s.ctx? (r.arg 8 2)).isSome = true → Completes .extentGrant s (fun s' => RecordEnds s' r ∧ sameMemory s s' ∧
      ∃ e ∈ s'.extents, e.n = r.target ∧ e.ctx = r.arg 8 2 ∧ e.coherent = (r.arg 10 1 == 1) ∧ e.base = r.arg 16 8 ∧ e.len = r.arg 24 8 ∧ e.revoked = false ∧
        (∀ o, s.extents.find? (fun (x : Extent) => x.n == r.target) = some o → e.log = o.log ∧ e.logSeq = o.logSeq) ∧
        e.peers.map (fun p => p.1) = (r.bytesAt 32 (r.arg 11 1)).map (fun b => (b.extractLsb' 0 4).toNat))) ∧
    (∀ e, s.extents.find? (fun (e : Extent) => e.n == r.target) = some e →
      (code = 0x08 → e.revoked = false → Completes .extentRevoke s (fun s' => (∀ y ∈ s'.extents, y.n = r.target → y.revoked = true) ∧ .extentRevoke ∈ s'.agenda ∧ sameMemory s s')) ∧
      (code = 0x208 → s.dir = [] → s.txns = [] → s.reqs = [] → Completes .extentRevoke s (fun s' => RecordEnds s' r ∧ sameMemory s s'))) ∧
    (code = 0x09 → known → s.group? r.target (r.arg 8 1) = none → Completes .colSetup s (fun s' => RecordEnds s' r ∧ sameMemory s s' ∧
      ∃ g, s'.group? r.target (r.arg 8 1) = some g ∧ g.members.map (fun (x : Member) => (x.m, x.die)) =
        (r.bytesAt 16 (r.arg 9 1)).map (fun b => ((b.extractLsb' 4 4).toNat, (b.extractLsb' 0 3).toNat)))) ∧
    (code = 0x0A → (s.group? r.target (r.arg 8 1)).isSome = true → Completes .colDestroy s (fun s' => s'.group? r.target (r.arg 8 1) = none ∧ RecordEnds s' r ∧ sameMemory s s')) ∧
    (code = 0x0D → r.target = 1 → Completes .logRead s (fun s' => s'.forfeit = s.forfeit.drop (r.arg 16 4 / 32) ∧ .logRead ∈ s'.agenda ∧
      s'.mgmtBusy = some (0x10D + 65536 * min (r.arg 16 4 / 32) s.forfeit.length, r) ∧ sameMemory s s')) ∧
    (∀ c, code = 0x0E → s.ctx? r.target = some c → exec .quote s = .next (writeOut s r 0x0E 0 .quote (r.arg 40 8) (quoteBytes c (r.bytesAt 8 32)))) ∧
    (∀ c s1 e, code = 0x0F → s.ctx? r.target = some c → seraiSpan s 0 (r.arg 8 8) = (s1, some e) → entHome e = 16 → (exportImage s1 c).length ≤ r.arg 16 8 →
      exec .exportCmd s = .next (writeOut s1 r 0x0F 0 .exportCmd (r.arg 8 8) (exportImage s1 c))) ∧
    (code % 256 = 0x0D → written .logRead) ∧ (code % 256 = 0x0E → written .quote) ∧ (code % 256 = 0x0F → written .exportCmd) ∧
    (code = 0x10 → r.target ≠ 0 → Completes .queueCfg s (fun s' => RecordEnds s' r ∧ sameMemory s s' ∧
      (¬(4 ≤ r.arg 16 8 % 32 ∧ r.arg 16 8 % 32 ≤ 16) → ∀ x ∈ s'.polls, x.2.2 ≠ r.target) ∧
      (s'.queue? r.target).map (fun (q : Queue) => (q.qbase.toNat, q.widx, q.ridx, q.errcnt, q.st)) =
        some (r.arg 8 8 % 2 ^ 64, 0#32, 0#32, 0#32, if 4 ≤ r.arg 16 8 % 32 ∧ r.arg 16 8 % 32 ≤ 16 then .on else .off))) ∧
    (code = 0x11 → (s.ctx? (r.arg 8 2)).isSome = true → Completes .apertureMap s (fun s' => RecordEnds s' r ∧ sameMemory s s' ∧
      ∀ u, smGet (0, 0#64) s'.aperture u = if u = r.target then (r.arg 8 2 + 1, BitVec.ofNat 64 (r.arg 16 8)) else smGet (0, 0#64) s.aperture u)) ∧
    (code = 0x11 → Completes .apertureUnmap s (fun s' => RecordEnds s' r ∧ sameMemory s s' ∧
      ∀ u, smGet (0, 0#64) s'.aperture u = if u = r.target then (0, 0#64) else smGet (0, 0#64) s.aperture u)) ∧
    (code = 0x12 → (s.smode ≠ 1 ∨ s.stage = 5) →
      Completes .serviceModeNormal s (fun s' => s'.smode = 0 ∧ RecordEnds s' r ∧ sameMemory s s') ∧
      Completes .serviceModeTest s (fun s' => s'.smode = 2 ∧ RecordEnds s' r ∧ sameMemory s s') ∧
      Completes .serviceModeRecovery s (fun s' => s'.smode = 3 ∧ RecordEnds s' r ∧ sameMemory s s')) ∧
    (code = 0x12 → s.smode = 1 → s.stage ≠ 5 → exec .serviceModeNormal s = .next (endMgmt s 1 0) ∧ exec .serviceModeTest s = .next (endMgmt s 1 0) ∧
      exec .serviceModeRecovery s = .next (endMgmt s 1 0))

/-- R338 to R342, R367: a write of WIDX moves the index, and an overrun puts the queue in error; before STAGE 5 it is discarded, and the
host's to queue 0's window changes nothing (R343 keeps others from that window; that the access is discarded is the model's reading, log 48). A polling slot of a core whose table names the queue fetches one packet and passes
RIDX over it; a management record with good arguments starts its command. A host write of any other register is ignored. A host access that meets no mapped unit
is Unsupported; one without a valid span, or whose span lacks the right that it needs, is aborted, a posted write with a record in the error
log; one that its span allows goes to the homes of its lines: a read and a write line by line, FetchAdd, Swap and CAS as the atomics 0, 8 and 9. -/
def Obligations.HostAndQueues : Prop :=
  ∀ (s : State),
    (∀ v, exec (.widxWrite 0 v) s = .next s) ∧
    (∀ q v, q ≠ 0 → q < 4096 → s.stage = 5 → Completes (.widxWrite q v) s (fun s' => sameMemory s s' ∧ ∃ x, s'.queue? q = some x ∧ x.widx = v ∧
      ∀ y, s.queue? q = some y → x.ridx = y.ridx ∧ (y.st = .on → x.st = if 2 ^ y.log2 < (v - y.ridx).toNat then .error else .on))) ∧
    (∀ q v, s.stage ≠ 5 → exec (.widxWrite q v) s = .next s) ∧
    (∀ core q c x s1 bs, s.core? 15 core = some c → c.halted = false → s.stage ≠ 1 → s.stage ≠ 4 → polls s core q = true → (polled s core q).queue? q = some x → x.due →
      (q ≠ 0 → (∀ k, s.ctx? x.ctx = some k → k.frozen = false) → peekVa (polled s core q) x.ctx (nextPkt x) 64 = .bytes s1 bs →
        Completes (.pollingSlot core q) s (fun s' => (s'.queue? q).map (fun (y : Queue) => (y.ridx, y.lastSq, y.pkts)) =
            some (x.ridx + 1#32, x.lastSq + 1, x.pkts ++ [{ sq := x.lastSq + 1, bytes := bs }]) ∧ packetEvent q (x.lastSq + 1) bs ∈ s'.agenda ∧ sameMemory s s')) ∧
      (q = 0 → s.mgmtBusy = none → x.pkts = [] → peekVa (polled s core q) 0 (nextPkt x) 64 = .bytes s1 bs →
        let r : MgmtRec := { target := field bs 4 4, args := (bs.drop 8).take 48, done := BitVec.ofNat 64 (field bs 56 8), sq := x.lastSq + 1 }
        (field bs 2 2 = 0 → argsOk (field bs 0 2) r = true → Completes (.pollingSlot core q) s (fun s' => s'.mgmtBusy = some (field bs 0 2 % 256, r) ∧
          mgmtEvent (field bs 0 2) r ∈ s'.agenda ∧ (s'.queue? 0).map (fun (y : Queue) => y.ridx) = some (x.ridx + 1#32) ∧ sameMemory s s')) ∧
        (field bs 2 2 ≠ 0 ∨ argsOk (field bs 0 2) r = false → Completes (.pollingSlot core q) s (fun s' => RecordEnds s' r ∧
          (s'.queue? 0).map (fun (y : Queue) => y.ridx) = some (x.ridx + 1#32) ∧ sameMemory s s')))) ∧
    (∀ bar off v, exec (.hostRegisterWrite bar off v) s = .next s) ∧
    (∀ off acc,
      let sent := fun (e : Word64) (s' : State) (q : Req) (a : Nat) => let h := homeOf e (a / 128 * 128)
        q.home = h.1 ∧ q.ctx = h.2.1 ∧ q.line = h.2.2 / 128 ∧ (q.home = s.dev ∨ q.home = 16 → .homeRequest q.id ∈ s'.agenda)
      let m := smGet (0, 0#64) s.aperture (off / 2 ^ 21)
      let va := m.2.toNat + off % 2 ^ 21
      (s.stage ≠ 5 ∨ m.1 = 0 → hostPosted acc = false → exec (.hostApertureAccess off acc) s = .next (s.reply off .unsupported)) ∧
      (s.stage ≠ 5 ∨ m.1 = 0 → hostPosted acc = true → exec (.hostApertureAccess off acc) s = .next s) ∧
      (s.stage = 5 → off < 2 ^ 36 → m.1 ≠ 0 → off % 2 ^ 21 + hostLen acc ≤ 2 ^ 21 → (off % hostLen acc = 0 ∨ (∃ n, acc = .read n) ∨ ∃ bs, acc = .write bs) →
        let refused := fun (s1 : State) => (hostPosted acc = false → exec (.hostApertureAccess off acc) s = .next (s1.reply off .abort)) ∧
          (hostPosted acc = true → exec (.hostApertureAccess off acc) s = .next (s1.logErr 0x367 (m.1 - 1) va))
        (∀ s1, seraiSpan s (m.1 - 1) va = (s1, none) → refused s1) ∧
        (∀ s1 e, seraiSpan s (m.1 - 1) va = (s1, some e) → (hostNeed acc e).isSome = true → refused s1) ∧
        (∀ s1 e, seraiSpan s (m.1 - 1) va = (s1, some e) → hostNeed acc e = none →
          let atom := fun (op : Nat) (z : Bool) (x y : Word64) => Completes (.hostApertureAccess off acc) s (fun s' => sameMemory s s' ∧ ∃ q ∈ s'.reqs,
            q.id = s1.nextId ∧ q.who = .host off ∧ sent e s' q va ∧ q.kind = .rmw op z [{ lane := 0, a := va, x := hostOperand z x, y := hostOperand z y }])
          (∀ z x, acc = .fetchAdd z x → atom 0 z x 0#64) ∧
          (∀ z x, acc = .swap z x → atom 8 z x 0#64) ∧
          (∀ z x y, acc = .cas z x y → atom 9 z x y) ∧
          (∀ n, acc = .read n → Completes (.hostApertureAccess off acc) s (fun s' => sameMemory s s' ∧ ∀ k, k < n → ∃ q ∈ s'.reqs, sent e s' q (va + k) ∧
            ∃ k0 ps, q.who = .host (off + k0) ∧ q.kind = .read ps ∧ (k, va + k) ∈ ps ∧ (ps.head?).map (fun p => p.1) = some k0 ∧
              ∀ p ∈ ps, p.2 = va + p.1 ∧ p.2 / 128 = (va + k) / 128)) ∧
          (∀ bs, acc = .write bs → Completes (.hostApertureAccess off acc) s (fun s' => sameMemory s s' ∧ ∀ k b, bs[k]? = some b → ∃ q ∈ s'.reqs,
            sent e s' q (va + k) ∧ q.who = .host off ∧ ∃ ws, q.kind = .write ws ∧ (∃ w ∈ ws, w.a = va + k ∧ w.v = b) ∧ ∀ w ∈ ws, w.a / 128 = (va + k) / 128)))))

/-- R69 to R91: every well-formed slot instruction decodes from its encoding to itself, with every operand at every value that the encoding and
the launch admit; the header's extension bytes are part of it. -/
def Obligations.EncodedInstructionsDecode : Prop :=
  ∀ (c : DecCtx) (i : Instr), wellFormed c i = true → decodeSlot c (encode i) = .ok i

/-- R73 to R82, R86 to R88, R91: whatever the decoder accepts is a well-formed instruction with the slot's guard; it accepts no slot of a reserved major, and
the one error that is not OPCODE, ILLEGAL_ORDER, comes only of an instruction that passes every other check. -/
def Obligations.DecodedInstructionsAreWellFormed : Prop :=
  ∀ (c : DecCtx) (sl : Slot),
    (∀ i, decodeSlot c sl = .ok i → wellFormed c i = true ∧ i.guard = sl.g) ∧
    (decodeSlot c sl = .error .illegalOrder → ∃ i, decodeSlotForm c sl = .ok i ∧ i.orderIllegal = true) ∧
    (sl.w ≠ 0#32 → sl.maj.toNat ∉ [1, 2, 3, 4, 5, 6, 7, 8, 9, 10, 11, 12, 13, 16, 17, 18, 19, 24, 25, 26, 27, 28, 29, 30, 31, 32, 33, 34, 35, 36, 40, 41, 42, 44] →
      decodeSlot c sl = .error .badMajor) ∧
    (sl.w = 0#32 → sl.e ≠ 0#8 → decodeSlot c sl = .error .unusedField)

/-- R68, R91, R135, R196, R211: words written out from the encodings decode to their instructions, and words with a reserved or forbidden field are refused. -/
def Obligations.DecodedWords : Prop :=
  let bare := fun (w : BitVec 32) => decodeSlot DecCtx.full { w := w, e := 0#8, hdr := false }
  bare 0x00000000#32 = .ok .nop ∧ bare 0x040C1880#32 = .ok (.iadd 0#3 6#7 3#7 4#7) ∧ bare 0x60124402#32 = .ok (.ldG 0#3 9#7 4#6 false 4#3 0#4 2#4 0#5) ∧
  decodeSlot DecCtx.full { w := 0x1C145988#32, e := 3#8, hdr := true } = .ok (.fdiv 0#3 10#7 11#7 12#7 3#4) ∧
  bare 0x4800000A#32 = .ok .tret ∧ bare 0x40800009#32 = .ok (.bra 1#3 9#23) ∧ bare 0x8C080000#32 = .ok (.waitcImm 4#3 0#8) ∧
  bare 0xFC000000#32 = .error .badMajor ∧ bare 0x0410001F#32 = .error .badMinor

/-- R178: a store of width code 1 or 3 raises OPCODE at decode, whatever its other fields are; one of width code 0, 2, 4, 5 or 6, its register aligned, is accepted. -/
def Obligations.StoreWidths : Prop :=
  (∀ (c : DecCtx) (sl : Slot), sl.maj = 0x19#6 ∨ sl.maj = 0x1B#6 ∨ sl.maj = 0x1D#6 → sl.mw = 1#3 ∨ sl.mw = 3#3 →
    ∃ e, decodeSlot c sl = .error e ∧ e ≠ .illegalOrder) ∧
  (∀ (g : PReg) (d : VReg) (base : BitVec 6) (vb : Bool) (w : BitVec 3) (col : BitVec 3) (off : BitVec 5), w = 0#3 ∨ w = 2#3 ∨ w = 4#3 ∨ w = 5#3 ∨ w = 6#3 →
    d.toNat % widthRegs w = 0 →
    decodeSlot DecCtx.full (encode (.stG g d base vb w 0#4 col off)) = .ok (.stG g d base vb w 0#4 col off) ∧
    decodeSlot DecCtx.full (encode (.stP g d base vb w 0#4 col off)) = .ok (.stP g d base vb w 0#4 col off) ∧
    decodeSlot DecCtx.full (encode (.stB g d base vb w 0#4 col off)) = .ok (.stB g d base vb w 0#4 col off))

/-- R339, R340, R57: at the end of reset STATUS reads start-up mode and zero elsewhere, every queue window reads zero, no site is admitted and no string exists; the
one event that stands is MODULE_RESET, which the first step takes: bring-up stands at STAGE 1 then, or has failed at STAGE 15. That every byte of memory reads zero at reset is the
model's choice (log 3), and so is that the firmware may be found good or bad (log 46). -/
def Obligations.ResetState : Prop :=
  statusWord State.reset = 0x10#64 ∧ State.reset.queues = [] ∧ State.reset.strs = [] ∧ State.reset.stage = 0 ∧ State.reset.smode = 1 ∧
  (∀ d, d < 12 → (State.reset.site? d).map (fun (x : Site) => x.st) = some .absent) ∧ (∀ m a, State.reset.byteAt m a = 0#8) ∧
  ∃ s', step State.reset = .next s' ∧ s'.smode = 1 ∧ (s'.stage = 1 ∨ s'.stage = 15)

/-- R82, R240: at reset every memory of the model stands in its canonical form, and no string holds a value for s0 or p0. -/
def Obligations.ResetSafe : Prop :=
  State.reset.safe = true

/-- R6, R7: every step keeps every memory of the module (the granary, the host's memory, every pantry and every bench) in its canonical form, so that equal memories
are equal data. -/
def Obligations.StepKeepsMemories : Prop :=
  ∀ (s s' : State), s.memoriesWf = true → step s = .next s' → s'.memoriesWf = true

/-- R39, R45, R84, R86: a primary is the first ready string at or after the pointer; its clock moves the pointer past its slot. Where no secondary issues
beside it and the bundle at its program counter decodes to a bundle with one instruction, the clock is `exec` of that instruction at the state in which
the bundle issues, and then what follows a bundle: it is finished, or, where the instruction stopped it, nothing more of it acts. A string whose bundle
cannot issue yet is no primary: it waits, and the clock goes on with the next one. An event is `exec` of the event, once an acknowledgement that
travels behind it stands behind one message fewer (R319). That a step is one act, one of those
that are possible, and with none changes nothing, is the model's choice (log 7); that a clock of a partition is one act, and its secondary is chosen
before the primary issues, is its reading (log 57). -/
def Obligations.StepRunsDecoded : Prop :=
  (∀ (s : State) (d c part : Nat) (t : Str) (b : Bool) (p : Path) (bu : Bundle) (k : Nat) (i : Instr), acts s = [.merge d c part] →
    primary s d c part = some (t, .slot b) → heldBack s t (.slot b) = false → secondary s d c part (t, .slot b) = none → slotOf t b = some p →
    let sm := s.modCore d c (fun y => { y with mptr := smPut 0 y.mptr part ((t.rslot + 1) % 8) })
    fetchAt sm t b p = .bundle bu → loneSlot bu k i →
    let s0 := atIssue sm t b p bu
    (∀ s1, exec i (s0.modBun (fun x => { x with islot := k })) = .next s1 → s1.stoppedBy = none → overflowed s1 = false →
      ∃ j, step s = settled (.next { finishBundle bu s0 (s1.modBun (fun x => { x with islot := j })) with bun := none })) ∧
    (∀ s1, exec i (s0.modBun (fun x => { x with islot := k })) = .next s1 → s1.stoppedBy = some k → isProofBundle bu = false →
      step s = settled (.next { s1 with bun := none }))) ∧
  (∀ (s s1 : State) (d c part : Nat) (t : Str) (b : Bool), acts s = [.merge d c part] → primary s d c part = some (t, .slot b) →
    heldBack s t (.slot b) = true → issueTurn s t (.slot b) = .next s1 → step s = settled (mergeIn 15 s1 d c part)) ∧
  (∀ (s : State) (d c part : Nat) (k : Core) (x : Str × Turn), s.core? d c = some k → primary s d c part = some x →
    ∃ n, n < 8 ∧ x.1.rslot = (smGet 0 k.mptr part + n) % 8 ∧ x ∈ readyOn s d c part ∧
      ∀ m, m < n → ∀ y ∈ readyOn s d c part, y.1.rslot ≠ (smGet 0 k.mptr part + m) % 8) ∧
  (∀ (s : State) (i : Instr) (k : Nat), acts s = [.event k i] →
    step s = settled (exec i (s.strs.foldl (passAck (chansOf s i)) { s with agenda := s.agenda.eraseIdx k })) ∧
    ((∀ t ∈ s.strs, t.waitX = none) → step s = settled (exec i { s with agenda := s.agenda.eraseIdx k }))) ∧
  (∀ (s : State), acts s = [] → step s = .next s) ∧
  (∀ (s : State), 2 ≤ (acts s).length → ∃ a ∈ acts s, step s = settled (perform { s with nchoice := s.nchoice + 1 } a))
end

