-- ==== Sys2Proof/Laws/Cells.lean ====
section
/-! SUPPORT. The laws of sparse maps and of memories: a read after a write, and the canonical form that every write keeps. -/

namespace Sys2Proof.Machine
open Sys2Proof

/-! ### Reading what was written -/

theorem smGet_erase {α : Type} (d : α) (m : SMap α) (i j : Nat) :
    smGet d (smErase m i) j = if j = i then d else smGet d m j := by
  induction m with
  | nil => simp [smErase, smGet]
  | cons h m ih =>
    obtain ⟨k, x⟩ := h
    simp only [smErase, List.filter_cons] at ih ⊢
    by_cases hk : k = i
    · subst hk
      simp only [bne_self_eq_false, Bool.false_eq_true, if_false, ih, smGet]
      by_cases hj : j = k
      · simp [hj]
      · simp [hj, Ne.symm hj]
    · simp only [bne_iff_ne, ne_eq, hk, not_false_eq_true, if_true, smGet, ih]
      by_cases hj : k = j
      · subst hj; simp [hk]
      · simp [hj]

theorem smGet_insert {α : Type} (d : α) (i : Nat) (x : α) (m : SMap α) (h : ∀ y ∈ m, y.1 ≠ i) (j : Nat) :
    smGet d (smInsert i x m) j = if j = i then x else smGet d m j := by
  induction m with
  | nil => simp [smInsert, smGet, eq_comm]
  | cons p m ih =>
    obtain ⟨k, y⟩ := p
    have hk : k ≠ i := h (k, y) (by simp)
    have ih := ih (fun z hz => h z (by simp [hz]))
    by_cases hlt : i < k
    · simp [smInsert, hlt, smGet, eq_comm]
    · simp only [smInsert, hlt, if_false, smGet, ih]
      by_cases hj : k = j
      · subst hj; simp [hk]
      · simp [hj]

theorem smErase_ne {α : Type} (m : SMap α) (i : Nat) : ∀ y ∈ smErase m i, y.1 ≠ i := by
  simp [smErase]

/-- A read after a write. -/
@[simp] theorem smGet_put {α : Type} [DecidableEq α] (d : α) (m : SMap α) (i : Nat) (x : α) (j : Nat) :
    smGet d (smPut d m i x) j = if j = i then x else smGet d m j := by
  unfold smPut
  split
  · rename_i h; rw [smGet_erase, h]
  · rw [smGet_insert d i x _ (smErase_ne m i), smGet_erase]
    split <;> rfl

/-- A read after writes of many keys, each with the value that its key gives. -/
theorem smGet_foldl_put {α : Type} [DecidableEq α] (d : α) (k : Nat → Nat) (f : Nat → α) (hk : ∀ a b, k a = k b → a = b)
    (ls : List Nat) (m : SMap α) (l : Nat) :
    smGet d (ls.foldl (fun m l => smPut d m (k l) (f l)) m) (k l) = if l ∈ ls then f l else smGet d m (k l) := by
  induction ls generalizing m with
  | nil => simp
  | cons a ls ih =>
    simp only [List.foldl_cons, ih, List.mem_cons]
    by_cases h : l = a
    · subst h; simp
    · have : k l ≠ k a := fun e => h (hk _ _ e)
      simp [h, this]

/-- A read of a key that is none of those written. -/
theorem smGet_foldl_put_ne {α : Type} [DecidableEq α] (d : α) (k : Nat → Nat) (f : Nat → α) (ls : List Nat) (m : SMap α) (j : Nat)
    (h : ∀ l ∈ ls, j ≠ k l) : smGet d (ls.foldl (fun m l => smPut d m (k l) (f l)) m) j = smGet d m j := by
  induction ls generalizing m with
  | nil => rfl
  | cons a ls ih =>
    rw [List.foldl_cons, ih _ (fun l hl => h l (by simp [hl])), smGet_put, if_neg (h a (by simp))]

/-! ### The canonical form -/

theorem smWfFrom_mono {α : Type} [DecidableEq α] (d : α) (a b : Nat) (hab : a ≤ b) (m : SMap α) (h : smWfFrom d b m = true) :
    smWfFrom d a m = true := by
  cases m with
  | nil => rfl
  | cons p m =>
    obtain ⟨k, x⟩ := p
    simp only [smWfFrom, Bool.and_eq_true, decide_eq_true_eq] at h ⊢
    exact ⟨⟨by omega, h.1.2⟩, h.2⟩

theorem smErase_wf {α : Type} [DecidableEq α] (d : α) (i : Nat) (m : SMap α) :
    ∀ lo, smWfFrom d lo m = true → smWfFrom d lo (smErase m i) = true := by
  induction m with
  | nil => intro lo _; rfl
  | cons p m ih =>
    obtain ⟨k, x⟩ := p
    intro lo h
    simp only [smWfFrom, Bool.and_eq_true, decide_eq_true_eq] at h
    simp only [smErase, List.filter_cons]
    split
    · simp only [smWfFrom, Bool.and_eq_true, decide_eq_true_eq]
      exact ⟨h.1, ih _ h.2⟩
    · exact smWfFrom_mono d lo (k + 1) (by omega) _ (ih _ h.2)

theorem smInsert_wf {α : Type} [DecidableEq α] (d : α) (i : Nat) (x : α) (hx : x ≠ d) (m : SMap α) :
    ∀ lo, lo ≤ i → (∀ y ∈ m, y.1 ≠ i) → smWfFrom d lo m = true → smWfFrom d lo (smInsert i x m) = true := by
  induction m with
  | nil => intro lo hl _ _; simp [smInsert, smWfFrom, hl, hx]
  | cons p m ih =>
    obtain ⟨k, y⟩ := p
    intro lo hl hne h
    have hk : k ≠ i := hne (k, y) (by simp)
    simp only [smWfFrom, Bool.and_eq_true, decide_eq_true_eq] at h
    unfold smInsert
    split
    · simp only [smWfFrom, Bool.and_eq_true, decide_eq_true_eq]
      exact ⟨⟨hl, hx⟩, ⟨by omega, h.1.2⟩, h.2⟩
    · simp only [smWfFrom, Bool.and_eq_true, decide_eq_true_eq]
      exact ⟨h.1, ih (k + 1) (by omega) (fun z hz => hne z (by simp [hz])) h.2⟩

/-- A write keeps the canonical form. -/
theorem smPut_wf {α : Type} [DecidableEq α] (d : α) (m : SMap α) (i : Nat) (x : α) (h : smWf d m = true) :
    smWf d (smPut d m i x) = true := by
  unfold smPut
  split
  · exact smErase_wf d i m 0 h
  · rename_i hx
    exact smInsert_wf d i x hx _ 0 (Nat.zero_le i) (smErase_ne m i) (smErase_wf d i m 0 h)

/-- Writes of many keys keep it. -/
theorem smPut_foldl_wf {α β : Type} [DecidableEq α] (d : α) (k : β → Nat) (f : β → α) (ls : List β) (m : SMap α)
    (h : smWf d m = true) : smWf d (ls.foldl (fun m l => smPut d m (k l) (f l)) m) = true := by
  induction ls generalizing m with
  | nil => exact h
  | cons a ls ih => exact ih _ (smPut_wf d m _ _ h)

/-! ### Memories -/

/-- A byte after bytes are written. -/
theorem memGet_memWrite (bs : List Byte) : ∀ (m : Memory) (a x : Nat),
    memGet (memWrite m a bs) x = if a ≤ x ∧ x < a + bs.length then bs.getD (x - a) 0#8 else memGet m x := by
  induction bs with
  | nil =>
    intro m a x
    have : ¬(a ≤ x ∧ x < a + ([] : List Byte).length) := by simp
    rw [if_neg this]; rfl
  | cons b bs ih =>
    intro m a x
    rw [memWrite, ih, memGet, memPut, smGet_put]
    rcases Nat.lt_trichotomy x a with h | h | h
    · rw [if_neg (by omega), if_neg (by omega), if_neg (by simp; omega)]
    · subst h; rw [if_neg (by omega), if_pos rfl, if_pos (by simp)]; simp
    · have e : x - a = (x - (a + 1)) + 1 := by omega
      by_cases hx : x < a + 1 + bs.length
      · rw [if_pos ⟨by omega, hx⟩, if_pos (by simp; omega), e]; simp
      · rw [if_neg (by omega), if_neg (by omega), if_neg (by simp; omega)]

/-- Bytes outside those written stand. -/
theorem memGet_memWrite_out (m : Memory) (a x : Nat) (bs : List Byte) (h : x < a ∨ a + bs.length ≤ x) :
    memGet (memWrite m a bs) x = memGet m x := by
  rw [memGet_memWrite, if_neg (by omega)]

/-- Writing bytes keeps the canonical form. -/
theorem memWrite_wf (bs : List Byte) : ∀ (m : Memory) (a : Nat), m.wf = true → (memWrite m a bs).wf = true := by
  induction bs with
  | nil => intro m a h; exact h
  | cons b bs ih => intro m a h; exact ih _ _ (smPut_wf _ m a b h)

/-- The low bytes of a number. -/
@[simp] theorem length_leBytes (n x : Nat) : (leBytes n x).length = n := by
  induction n generalizing x with
  | zero => rfl
  | succ n ih => simp [leBytes, ih]

end Sys2Proof.Machine
end

