-- ==== Sys2Proof/Laws/Exec.lean ====
section
/-! SUPPORT. The arms of `exec`, one equation for each constructor. -/

namespace Sys2Proof.Machine
open Sys2Proof

@[simp] theorem exec_iadd (g : PReg) (d a b : VReg) (s : State) : exec (.iadd g d a b) s = execIadd g d a b s := rfl
@[simp] theorem exec_isub (g : PReg) (d a b : VReg) (s : State) : exec (.isub g d a b) s = execIsub g d a b s := rfl
@[simp] theorem exec_imul (g : PReg) (d a b : VReg) (s : State) : exec (.imul g d a b) s = execImul g d a b s := rfl
@[simp] theorem exec_imulhI (g : PReg) (d a b : VReg) (s : State) : exec (.imulhI g d a b) s = execImulhI g d a b s := rfl
@[simp] theorem exec_imulhN (g : PReg) (d a b : VReg) (s : State) : exec (.imulhN g d a b) s = execImulhN g d a b s := rfl
@[simp] theorem exec_iminI (g : PReg) (d a b : VReg) (s : State) : exec (.iminI g d a b) s = execIminI g d a b s := rfl
@[simp] theorem exec_imaxI (g : PReg) (d a b : VReg) (s : State) : exec (.imaxI g d a b) s = execImaxI g d a b s := rfl
@[simp] theorem exec_iminN (g : PReg) (d a b : VReg) (s : State) : exec (.iminN g d a b) s = execIminN g d a b s := rfl
@[simp] theorem exec_imaxN (g : PReg) (d a b : VReg) (s : State) : exec (.imaxN g d a b) s = execImaxN g d a b s := rfl
@[simp] theorem exec_iand (g : PReg) (d a b : VReg) (s : State) : exec (.iand g d a b) s = execIand g d a b s := rfl
@[simp] theorem exec_ior (g : PReg) (d a b : VReg) (s : State) : exec (.ior g d a b) s = execIor g d a b s := rfl
@[simp] theorem exec_ixor (g : PReg) (d a b : VReg) (s : State) : exec (.ixor g d a b) s = execIxor g d a b s := rfl
@[simp] theorem exec_ishl (g : PReg) (d a b : VReg) (s : State) : exec (.ishl g d a b) s = execIshl g d a b s := rfl
@[simp] theorem exec_ishr (g : PReg) (d a b : VReg) (s : State) : exec (.ishr g d a b) s = execIshr g d a b s := rfl
@[simp] theorem exec_isra (g : PReg) (d a b : VReg) (s : State) : exec (.isra g d a b) s = execIsra g d a b s := rfl
@[simp] theorem exec_irot (g : PReg) (d a b : VReg) (s : State) : exec (.irot g d a b) s = execIrot g d a b s := rfl
@[simp] theorem exec_iabs (g : PReg) (d a : VReg) (s : State) : exec (.iabs g d a) s = execIabs g d a s := rfl
@[simp] theorem exec_ineg (g : PReg) (d a : VReg) (s : State) : exec (.ineg g d a) s = execIneg g d a s := rfl
@[simp] theorem exec_popc (g : PReg) (d a : VReg) (s : State) : exec (.popc g d a) s = execPopc g d a s := rfl
@[simp] theorem exec_clz (g : PReg) (d a : VReg) (s : State) : exec (.clz g d a) s = execClz g d a s := rfl
@[simp] theorem exec_ctz (g : PReg) (d a : VReg) (s : State) : exec (.ctz g d a) s = execCtz g d a s := rfl
@[simp] theorem exec_brev (g : PReg) (d a : VReg) (s : State) : exec (.brev g d a) s = execBrev g d a s := rfl
@[simp] theorem exec_bfe (g : PReg) (d a b : VReg) (s : State) : exec (.bfe g d a b) s = execBfe g d a b s := rfl
@[simp] theorem exec_bfi (g : PReg) (d a b : VReg) (s : State) : exec (.bfi g d a b) s = execBfi g d a b s := rfl
@[simp] theorem exec_iaddsI (g : PReg) (d a b : VReg) (s : State) : exec (.iaddsI g d a b) s = execIaddsI g d a b s := rfl
@[simp] theorem exec_isubsI (g : PReg) (d a b : VReg) (s : State) : exec (.isubsI g d a b) s = execIsubsI g d a b s := rfl
@[simp] theorem exec_iaddsN (g : PReg) (d a b : VReg) (s : State) : exec (.iaddsN g d a b) s = execIaddsN g d a b s := rfl
@[simp] theorem exec_isubsN (g : PReg) (d a b : VReg) (s : State) : exec (.isubsN g d a b) s = execIsubsN g d a b s := rfl
@[simp] theorem exec_imad (g : PReg) (d a b : VReg) (s : State) : exec (.imad g d a b) s = execImad g d a b s := rfl
@[simp] theorem exec_mov (g : PReg) (d a : VReg) (s : State) : exec (.mov g d a) s = execMov g d a s := rfl
@[simp] theorem exec_iaddi (g : PReg) (d a : VReg) (imm : BitVec 13) (s : State) : exec (.iaddi g d a imm) s = execIaddi g d a imm s := rfl
@[simp] theorem exec_iandi (g : PReg) (d a : VReg) (imm : BitVec 13) (s : State) : exec (.iandi g d a imm) s = execIandi g d a imm s := rfl
@[simp] theorem exec_iori (g : PReg) (d a : VReg) (imm : BitVec 13) (s : State) : exec (.iori g d a imm) s = execIori g d a imm s := rfl
@[simp] theorem exec_ixori (g : PReg) (d a : VReg) (imm : BitVec 13) (s : State) : exec (.ixori g d a imm) s = execIxori g d a imm s := rfl
@[simp] theorem exec_ishli (g : PReg) (d a : VReg) (imm : BitVec 13) (s : State) : exec (.ishli g d a imm) s = execIshli g d a imm s := rfl
@[simp] theorem exec_ishri (g : PReg) (d a : VReg) (imm : BitVec 13) (s : State) : exec (.ishri g d a imm) s = execIshri g d a imm s := rfl
@[simp] theorem exec_israi (g : PReg) (d a : VReg) (imm : BitVec 13) (s : State) : exec (.israi g d a imm) s = execIsrai g d a imm s := rfl
@[simp] theorem exec_imuli (g : PReg) (d a : VReg) (imm : BitVec 13) (s : State) : exec (.imuli g d a imm) s = execImuli g d a imm s := rfl
@[simp] theorem exec_movk (g : PReg) (d : VReg) (imm : BitVec 20) (s : State) : exec (.movk g d imm) s = execMovk g d imm s := rfl
@[simp] theorem exec_movh (g : PReg) (d : VReg) (imm : BitVec 20) (s : State) : exec (.movh g d imm) s = execMovh g d imm s := rfl
@[simp] theorem exec_movkS (d : SReg) (imm : BitVec 20) (s : State) : exec (.movkS d imm) s = execMovkS d imm s := rfl
@[simp] theorem exec_movhS (d : SReg) (imm : BitVec 20) (s : State) : exec (.movhS d imm) s = execMovhS d imm s := rfl
@[simp] theorem exec_ceq (g p : PReg) (a b : VReg) (s : State) : exec (.ceq g p a b) s = execCeq g p a b s := rfl
@[simp] theorem exec_cne (g p : PReg) (a b : VReg) (s : State) : exec (.cne g p a b) s = execCne g p a b s := rfl
@[simp] theorem exec_cltI (g p : PReg) (a b : VReg) (s : State) : exec (.cltI g p a b) s = execCltI g p a b s := rfl
@[simp] theorem exec_cleI (g p : PReg) (a b : VReg) (s : State) : exec (.cleI g p a b) s = execCleI g p a b s := rfl
@[simp] theorem exec_cltN (g p : PReg) (a b : VReg) (s : State) : exec (.cltN g p a b) s = execCltN g p a b s := rfl
@[simp] theorem exec_cleN (g p : PReg) (a b : VReg) (s : State) : exec (.cleN g p a b) s = execCleN g p a b s := rfl
@[simp] theorem exec_fceq (g p : PReg) (a b : VReg) (s : State) : exec (.fceq g p a b) s = execFceq g p a b s := rfl
@[simp] theorem exec_fcne (g p : PReg) (a b : VReg) (s : State) : exec (.fcne g p a b) s = execFcne g p a b s := rfl
@[simp] theorem exec_fclt (g p : PReg) (a b : VReg) (s : State) : exec (.fclt g p a b) s = execFclt g p a b s := rfl
@[simp] theorem exec_fcle (g p : PReg) (a b : VReg) (s : State) : exec (.fcle g p a b) s = execFcle g p a b s := rfl
@[simp] theorem exec_fcun (g p : PReg) (a b : VReg) (s : State) : exec (.fcun g p a b) s = execFcun g p a b s := rfl
@[simp] theorem exec_pand (g d a b : PReg) (s : State) : exec (.pand g d a b) s = execPand g d a b s := rfl
@[simp] theorem exec_por (g d a b : PReg) (s : State) : exec (.por g d a b) s = execPor g d a b s := rfl
@[simp] theorem exec_pxor (g d a b : PReg) (s : State) : exec (.pxor g d a b) s = execPxor g d a b s := rfl
@[simp] theorem exec_pnot (g d a : PReg) (s : State) : exec (.pnot g d a) s = execPnot g d a s := rfl
@[simp] theorem exec_pmov (g d a : PReg) (s : State) : exec (.pmov g d a) s = execPmov g d a s := rfl
@[simp] theorem exec_fadd (g : PReg) (d a b : VReg) (s : State) : exec (.fadd g d a b) s = execFadd g d a b s := rfl
@[simp] theorem exec_fsub (g : PReg) (d a b : VReg) (s : State) : exec (.fsub g d a b) s = execFsub g d a b s := rfl
@[simp] theorem exec_fmul (g : PReg) (d a b : VReg) (s : State) : exec (.fmul g d a b) s = execFmul g d a b s := rfl
@[simp] theorem exec_ffma (g : PReg) (d a b : VReg) (s : State) : exec (.ffma g d a b) s = execFfma g d a b s := rfl
@[simp] theorem exec_fmin (g : PReg) (d a b : VReg) (s : State) : exec (.fmin g d a b) s = execFmin g d a b s := rfl
@[simp] theorem exec_fmax (g : PReg) (d a b : VReg) (s : State) : exec (.fmax g d a b) s = execFmax g d a b s := rfl
@[simp] theorem exec_fabs (g : PReg) (d a : VReg) (s : State) : exec (.fabs g d a) s = execFabs g d a s := rfl
@[simp] theorem exec_fneg (g : PReg) (d a : VReg) (s : State) : exec (.fneg g d a) s = execFneg g d a s := rfl
@[simp] theorem exec_fdiv (g : PReg) (d a b : VReg) (la : BitVec 4) (s : State) : exec (.fdiv g d a b la) s = execFdiv g d a b la s := rfl
@[simp] theorem exec_fsqrt (g : PReg) (d a : VReg) (la : BitVec 4) (s : State) : exec (.fsqrt g d a la) s = execFsqrt g d a la s := rfl
@[simp] theorem exec_ffloor (g : PReg) (d a : VReg) (s : State) : exec (.ffloor g d a) s = execFfloor g d a s := rfl
@[simp] theorem exec_fceil (g : PReg) (d a : VReg) (s : State) : exec (.fceil g d a) s = execFceil g d a s := rfl
@[simp] theorem exec_ftrunc (g : PReg) (d a : VReg) (s : State) : exec (.ftrunc g d a) s = execFtrunc g d a s := rfl
@[simp] theorem exec_fround (g : PReg) (d a : VReg) (s : State) : exec (.fround g d a) s = execFround g d a s := rfl
@[simp] theorem exec_fcopysign (g : PReg) (d a b : VReg) (s : State) : exec (.fcopysign g d a b) s = execFcopysign g d a b s := rfl
@[simp] theorem exec_hadd2 (g : PReg) (d a b : VReg) (hf : Bool) (s : State) : exec (.hadd2 g d a b hf) s = execHadd2 g d a b hf s := rfl
@[simp] theorem exec_hsub2 (g : PReg) (d a b : VReg) (hf : Bool) (s : State) : exec (.hsub2 g d a b hf) s = execHsub2 g d a b hf s := rfl
@[simp] theorem exec_hmul2 (g : PReg) (d a b : VReg) (hf : Bool) (s : State) : exec (.hmul2 g d a b hf) s = execHmul2 g d a b hf s := rfl
@[simp] theorem exec_hfma2 (g : PReg) (d a b : VReg) (hf : Bool) (s : State) : exec (.hfma2 g d a b hf) s = execHfma2 g d a b hf s := rfl
@[simp] theorem exec_hmin2 (g : PReg) (d a b : VReg) (hf : Bool) (s : State) : exec (.hmin2 g d a b hf) s = execHmin2 g d a b hf s := rfl
@[simp] theorem exec_hmax2 (g : PReg) (d a b : VReg) (hf : Bool) (s : State) : exec (.hmax2 g d a b hf) s = execHmax2 g d a b hf s := rfl
@[simp] theorem exec_hcvt2 (g : PReg) (d a b : VReg) (hf : Bool) (s : State) : exec (.hcvt2 g d a b hf) s = execHcvt2 g d a b hf s := rfl
@[simp] theorem exec_cvt (g : PReg) (d a : VReg) (sel : BitVec 6) (s : State) : exec (.cvt g d a sel) s = execCvt g d a sel s := rfl
@[simp] theorem exec_cvtSat (g : PReg) (d a : VReg) (sel : BitVec 6) (s : State) : exec (.cvtSat g d a sel) s = execCvtSat g d a sel s := rfl
@[simp] theorem exec_cvtEf (g : PReg) (d a : VReg) (sel : BitVec 6) (s : State) : exec (.cvtEf g d a sel) s = execCvtEf g d a sel s := rfl
@[simp] theorem exec_cvtPack (g : PReg) (d a : VReg) (sel : BitVec 6) (s : State) : exec (.cvtPack g d a sel) s = execCvtPack g d a sel s := rfl
@[simp] theorem exec_dp4I8 (g : PReg) (d a b : VReg) (s : State) : exec (.dp4I8 g d a b) s = execDp4I8 g d a b s := rfl
@[simp] theorem exec_dp4N8 (g : PReg) (d a b : VReg) (s : State) : exec (.dp4N8 g d a b) s = execDp4N8 g d a b s := rfl
@[simp] theorem exec_dp8I4 (g : PReg) (d a b : VReg) (s : State) : exec (.dp8I4 g d a b) s = execDp8I4 g d a b s := rfl
@[simp] theorem exec_dp4E4m3 (g : PReg) (d a b : VReg) (s : State) : exec (.dp4E4m3 g d a b) s = execDp4E4m3 g d a b s := rfl
@[simp] theorem exec_dp4E5m2 (g : PReg) (d a b : VReg) (s : State) : exec (.dp4E5m2 g d a b) s = execDp4E5m2 g d a b s := rfl
@[simp] theorem exec_dp8E2m1 (g : PReg) (d a b : VReg) (s : State) : exec (.dp8E2m1 g d a b) s = execDp8E2m1 g d a b s := rfl
@[simp] theorem exec_fscl (g : PReg) (d a b : VReg) (s : State) : exec (.fscl g d a b) s = execFscl g d a b s := rfl
@[simp] theorem exec_shfl (g : PReg) (d a b : VReg) (s : State) : exec (.shfl g d a b) s = execShfl g d a b s := rfl
@[simp] theorem exec_shup (g : PReg) (d a : VReg) (k : BitVec 5) (s : State) : exec (.shup g d a k) s = execShup g d a k s := rfl
@[simp] theorem exec_shdn (g : PReg) (d a : VReg) (k : BitVec 5) (s : State) : exec (.shdn g d a k) s = execShdn g d a k s := rfl
@[simp] theorem exec_shx (g : PReg) (d a : VReg) (k : BitVec 5) (s : State) : exec (.shx g d a k) s = execShx g d a k s := rfl
@[simp] theorem exec_bcast (g : PReg) (d a : VReg) (k : BitVec 5) (s : State) : exec (.bcast g d a k) s = execBcast g d a k s := rfl
@[simp] theorem exec_ballot (g : PReg) (d : VReg) (p : PReg) (s : State) : exec (.ballot g d p) s = execBallot g d p s := rfl
@[simp] theorem exec_vany (g q p : PReg) (s : State) : exec (.vany g q p) s = execVany g q p s := rfl
@[simp] theorem exec_vall (g q p : PReg) (s : State) : exec (.vall g q p) s = execVall g q p s := rfl
@[simp] theorem exec_mpfx (g : PReg) (d : VReg) (p : PReg) (s : State) : exec (.mpfx g d p) s = execMpfx g d p s := rfl
@[simp] theorem exec_redaddI (g : PReg) (d a : VReg) (la : BitVec 4) (s : State) : exec (.redaddI g d a la) s = execRedaddI g d a la s := rfl
@[simp] theorem exec_redmaxI (g : PReg) (d a : VReg) (la : BitVec 4) (s : State) : exec (.redmaxI g d a la) s = execRedmaxI g d a la s := rfl
@[simp] theorem exec_redaddF (g : PReg) (d a : VReg) (la : BitVec 4) (s : State) : exec (.redaddF g d a la) s = execRedaddF g d a la s := rfl
@[simp] theorem exec_redmaxF (g : PReg) (d a : VReg) (la : BitVec 4) (s : State) : exec (.redmaxF g d a la) s = execRedmaxF g d a la s := rfl
@[simp] theorem exec_sadd (d a b : SReg) (s : State) : exec (.sadd d a b) s = execSadd d a b s := rfl
@[simp] theorem exec_ssub (d a b : SReg) (s : State) : exec (.ssub d a b) s = execSsub d a b s := rfl
@[simp] theorem exec_smul (d a b : SReg) (s : State) : exec (.smul d a b) s = execSmul d a b s := rfl
@[simp] theorem exec_sand (d a b : SReg) (s : State) : exec (.sand d a b) s = execSand d a b s := rfl
@[simp] theorem exec_sor (d a b : SReg) (s : State) : exec (.sor d a b) s = execSor d a b s := rfl
@[simp] theorem exec_sxor (d a b : SReg) (s : State) : exec (.sxor d a b) s = execSxor d a b s := rfl
@[simp] theorem exec_sshl (d a b : SReg) (s : State) : exec (.sshl d a b) s = execSshl d a b s := rfl
@[simp] theorem exec_sshr (d a b : SReg) (s : State) : exec (.sshr d a b) s = execSshr d a b s := rfl
@[simp] theorem exec_ssra (d a b : SReg) (s : State) : exec (.ssra d a b) s = execSsra d a b s := rfl
@[simp] theorem exec_smin (d a b : SReg) (s : State) : exec (.smin d a b) s = execSmin d a b s := rfl
@[simp] theorem exec_smax (d a b : SReg) (s : State) : exec (.smax d a b) s = execSmax d a b s := rfl
@[simp] theorem exec_rdl (d : SReg) (a : VReg) (b : SReg) (s : State) : exec (.rdl d a b) s = execRdl d a b s := rfl
@[simp] theorem exec_wrl (d : VReg) (a b : SReg) (s : State) : exec (.wrl d a b) s = execWrl d a b s := rfl
@[simp] theorem exec_bcs (g : PReg) (d : VReg) (a : SReg) (s : State) : exec (.bcs g d a) s = execBcs g d a s := rfl
@[simp] theorem exec_spopc (d a : SReg) (s : State) : exec (.spopc d a) s = execSpopc d a s := rfl
@[simp] theorem exec_sclz (d a : SReg) (s : State) : exec (.sclz d a) s = execSclz d a s := rfl
@[simp] theorem exec_saddi (d a : SReg) (imm : BitVec 13) (s : State) : exec (.saddi d a imm) s = execSaddi d a imm s := rfl
@[simp] theorem exec_sandi (d a : SReg) (imm : BitVec 13) (s : State) : exec (.sandi d a imm) s = execSandi d a imm s := rfl
@[simp] theorem exec_sori (d a : SReg) (imm : BitVec 13) (s : State) : exec (.sori d a imm) s = execSori d a imm s := rfl
@[simp] theorem exec_sshli (d a : SReg) (imm : BitVec 13) (s : State) : exec (.sshli d a imm) s = execSshli d a imm s := rfl
@[simp] theorem exec_sshri (d a : SReg) (imm : BitVec 13) (s : State) : exec (.sshri d a imm) s = execSshri d a imm s := rfl
@[simp] theorem exec_bra (g : PReg) (disp : BitVec 23) (s : State) : exec (.bra g disp) s = execBra g disp s := rfl
@[simp] theorem exec_call (disp : BitVec 23) (s : State) : exec (.call disp) s = execCall disp s := rfl
@[simp] theorem exec_ret (a : SReg) (s : State) : exec (.ret a) s = execRet a s := rfl
@[simp] theorem exec_brx (a : SReg) (s : State) : exec (.brx a) s = execBrx a s := rfl
@[simp] theorem exec_jtab (a : VReg) (b c : SReg) (s : State) : exec (.jtab a b c) s = execJtab a b c s := rfl
@[simp] theorem exec_exit (g : PReg) (s : State) : exec (.exit g) s = execExit g s := rfl
@[simp] theorem exec_loop (a : SReg) (n1 : BitVec 6) (k1 q : BitVec 3) (s : State) : exec (.loop a n1 k1 q) s = execLoop a n1 k1 q s := rfl
@[simp] theorem exec_lquit (g : PReg) (s : State) : exec (.lquit g) s = execLquit g s := rfl
@[simp] theorem exec_trap (code : BitVec 12) (s : State) : exec (.trap code) s = execTrap code s := rfl
@[simp] theorem exec_rdx (d : BitVec 7) (idx : BitVec 10) (la : BitVec 4) (s : State) : exec (.rdx d idx la) s = execRdx d idx la s := rfl
@[simp] theorem exec_wrx (d : SReg) (idx : BitVec 10) (s : State) : exec (.wrx d idx) s = execWrx d idx s := rfl
@[simp] theorem exec_spinv (a b : SReg) (s : State) : exec (.spinv a b) s = execSpinv a b s := rfl
@[simp] theorem exec_flush (a b : SReg) (s : State) : exec (.flush a b) s = execFlush a b s := rfl
@[simp] theorem exec_inv (a b : SReg) (s : State) : exec (.inv a b) s = execInv a b s := rfl
@[simp] theorem exec_hsamp (a b : SReg) (s : State) : exec (.hsamp a b) s = execHsamp a b s := rfl
@[simp] theorem exec_xmask (d a : SReg) (s : State) : exec (.xmask d a) s = execXmask d a s := rfl
@[simp] theorem exec_ldG (g : PReg) (d : VReg) (base : BitVec 6) (vb : Bool) (w : BitVec 3) (ord : BitVec 4) (la : BitVec 4) (off : BitVec 5) (s : State) : exec (.ldG g d base vb w ord la off) s = execLdG g d base vb w ord la off s := rfl
@[simp] theorem exec_stG (g : PReg) (d : VReg) (base : BitVec 6) (vb : Bool) (w : BitVec 3) (ord : BitVec 4) (colour : BitVec 3) (off : BitVec 5) (s : State) : exec (.stG g d base vb w ord colour off) s = execStG g d base vb w ord colour off s := rfl
@[simp] theorem exec_ldP (g : PReg) (d : VReg) (base : BitVec 6) (vb : Bool) (w : BitVec 3) (ord : BitVec 4) (la : BitVec 4) (off : BitVec 5) (s : State) : exec (.ldP g d base vb w ord la off) s = execLdP g d base vb w ord la off s := rfl
@[simp] theorem exec_stP (g : PReg) (d : VReg) (base : BitVec 6) (vb : Bool) (w : BitVec 3) (ord : BitVec 4) (colour : BitVec 3) (off : BitVec 5) (s : State) : exec (.stP g d base vb w ord colour off) s = execStP g d base vb w ord colour off s := rfl
@[simp] theorem exec_ldB (g : PReg) (d : VReg) (base : BitVec 6) (vb : Bool) (w : BitVec 3) (ord : BitVec 4) (la : BitVec 4) (off : BitVec 5) (s : State) : exec (.ldB g d base vb w ord la off) s = execLdB g d base vb w ord la off s := rfl
@[simp] theorem exec_stB (g : PReg) (d : VReg) (base : BitVec 6) (vb : Bool) (w : BitVec 3) (ord : BitVec 4) (colour : BitVec 3) (off : BitVec 5) (s : State) : exec (.stB g d base vb w ord colour off) s = execStB g d base vb w ord colour off s := rfl
@[simp] theorem exec_atomG (g : PReg) (d : VReg) (base : BitVec 6) (vb : Bool) (op ord : BitVec 4) (sz ret : Bool) (off : BitVec 5) (s : State) : exec (.atomG g d base vb op ord sz ret off) s = execAtomG g d base vb op ord sz ret off s := rfl
@[simp] theorem exec_atomP (g : PReg) (d : VReg) (base : BitVec 6) (vb : Bool) (op ord : BitVec 4) (sz ret : Bool) (off : BitVec 5) (s : State) : exec (.atomP g d base vb op ord sz ret off) s = execAtomP g d base vb op ord sz ret off s := rfl
@[simp] theorem exec_atomB (g : PReg) (d : VReg) (base : BitVec 6) (vb : Bool) (op ord : BitVec 4) (sz ret : Bool) (off : BitVec 5) (s : State) : exec (.atomB g d base vb op ord sz ret off) s = execAtomB g d base vb op ord sz ret off s := rfl
@[simp] theorem exec_fenceRel (scope : BitVec 6) (mask : BitVec 8) (s : State) : exec (.fenceRel scope mask) s = execFenceRel scope mask s := rfl
@[simp] theorem exec_fenceAcq (scope : BitVec 6) (s : State) : exec (.fenceAcq scope) s = execFenceAcq scope s := rfl
@[simp] theorem exec_fenceFull (scope : BitVec 6) (s : State) : exec (.fenceFull scope) s = execFenceFull scope s := rfl
@[simp] theorem exec_barArr (k : BitVec 4) (s : State) : exec (.barArr k) s = execBarArr k s := rfl
@[simp] theorem exec_barWait (k : BitVec 4) (s : State) : exec (.barWait k) s = execBarWait k s := rfl
@[simp] theorem exec_barSync (k : BitVec 4) (s : State) : exec (.barSync k) s = execBarSync k s := rfl
@[simp] theorem exec_barCnt (k : BitVec 4) (b : SReg) (s : State) : exec (.barCnt k b) s = execBarCnt k b s := rfl
@[simp] theorem exec_waitcImm (p : BitVec 3) (n : BitVec 8) (s : State) : exec (.waitcImm p n) s = execWaitcImm p n s := rfl
@[simp] theorem exec_waitcReg (p : BitVec 3) (a : SReg) (s : State) : exec (.waitcReg p a) s = execWaitcReg p a s := rfl
@[simp] theorem exec_put (d a b : SReg) (s : State) : exec (.put d a b) s = execPut d a b s := rfl
@[simp] theorem exec_get (d a b : SReg) (s : State) : exec (.get d a b) s = execGet d a b s := rfl
@[simp] theorem exec_sig (d a : SReg) (s : State) : exec (.sig d a) s = execSig d a s := rfl
@[simp] theorem exec_mload (a b : SReg) (s : State) : exec (.mload a b) s = execMload a b s := rfl
@[simp] theorem exec_mmul (t : BitVec 7) (a b : SReg) (s : State) : exec (.mmul t a b) s = execMmul t a b s := rfl
@[simp] theorem exec_mmulz (t : BitVec 7) (a b : SReg) (s : State) : exec (.mmulz t a b) s = execMmulz t a b s := rfl
@[simp] theorem exec_mst (t : BitVec 7) (a b : SReg) (s : State) : exec (.mst t a b) s = execMst t a b s := rfl
@[simp] theorem exec_mclr (t : BitVec 7) (s : State) : exec (.mclr t) s = execMclr t s := rfl
@[simp] theorem exec_setrcp (r : BitVec 10) (s : State) : exec (.setrcp r) s = execSetrcp r s := rfl
@[simp] theorem exec_jobCpy (a : SReg) (s : State) : exec (.jobCpy a) s = execJobCpy a s := rfl
@[simp] theorem exec_jobGth (a : SReg) (s : State) : exec (.jobGth a) s = execJobGth a s := rfl
@[simp] theorem exec_jobCol (a : SReg) (s : State) : exec (.jobCol a) s = execJobCol a s := rfl
@[simp] theorem exec_jobMc (a : SReg) (s : State) : exec (.jobMc a) s = execJobMc a s := rfl
@[simp] theorem exec_jobq (d : SReg) (s : State) : exec (.jobq d) s = execJobq d s := rfl
@[simp] theorem exec_wbseal (d a b : SReg) (s : State) : exec (.wbseal d a b) s = execWbseal d a b s := rfl
@[simp] theorem exec_wbdrop (a : SReg) (s : State) : exec (.wbdrop a) s = execWbdrop a s := rfl
@[simp] theorem exec_ldarg (d : SReg) (k : BitVec 8) (s : State) : exec (.ldarg d k) s = execLdarg d k s := rfl
@[simp] theorem exec_pollingSlot (core q : Nat) (s : State) : exec (.pollingSlot core q) s = execPollingSlot core q s := rfl
@[simp] theorem exec_widxWrite (q : Nat) (v : BitVec 32) (s : State) : exec (.widxWrite q v) s = execWidxWrite q v s := rfl
@[simp] theorem exec_hostRegisterWrite (bar off : Nat) (v : BitVec 64) (s : State) : exec (.hostRegisterWrite bar off v) s = execHostRegisterWrite bar off v s := rfl
@[simp] theorem exec_statusAlarmClear (v : BitVec 4) (s : State) : exec (.statusAlarmClear v) s = execStatusAlarmClear v s := rfl
@[simp] theorem exec_hostApertureAccess (off : Nat) (acc : HostAcc) (s : State) : exec (.hostApertureAccess off acc) s = execHostApertureAccess off acc s := rfl
@[simp] theorem exec_launchPacket (q sq : Nat) (s : State) : exec (.launchPacket q sq) s = execLaunchPacket q sq s := rfl
@[simp] theorem exec_signalPacket (q sq : Nat) (s : State) : exec (.signalPacket q sq) s = execSignalPacket q sq s := rfl
@[simp] theorem exec_signalPacketComplete (q sq : Nat) (s : State) : exec (.signalPacketComplete q sq) s = execSignalPacketComplete q sq s := rfl
@[simp] theorem exec_waybillDropPacket (q sq : Nat) (s : State) : exec (.waybillDropPacket q sq) s = execWaybillDropPacket q sq s := rfl
@[simp] theorem exec_bandDispatch (die : Nat) (s : State) : exec (.bandDispatch die) s = execBandDispatch die s := rfl
@[simp] theorem exec_preemptionRequest (b : Nat) (s : State) : exec (.preemptionRequest b) s = execPreemptionRequest b s := rfl
@[simp] theorem exec_queuedBandResident (die core : Nat) (s : State) : exec (.queuedBandResident die core) s = execQueuedBandResident die core s := rfl
@[simp] theorem exec_stealRequest (die core : Nat) (s : State) : exec (.stealRequest die core) s = execStealRequest die core s := rfl
@[simp] theorem exec_stealBackoffExpiry (die core : Nat) (s : State) : exec (.stealBackoffExpiry die core) s = execStealBackoffExpiry die core s := rfl
@[simp] theorem exec_longLatencyResult (b n o : Nat) (s : State) : exec (.longLatencyResult b n o) s = execLongLatencyResult b n o s := rfl
@[simp] theorem exec_operationReturn (o : Nat) (s : State) : exec (.operationReturn o) s = execOperationReturn o s := rfl
@[simp] theorem exec_proofPointRelease (b n : Nat) (s : State) : exec (.proofPointRelease b n) s = execProofPointRelease b n s := rfl
@[simp] theorem exec_recipeDelayExpiry (b n : Nat) (s : State) : exec (.recipeDelayExpiry b n) s = execRecipeDelayExpiry b n s := rfl
@[simp] theorem exec_yieldExpiry (b n : Nat) (s : State) : exec (.yieldExpiry b n) s = execYieldExpiry b n s := rfl
@[simp] theorem exec_idleTimeout (b n : Nat) (s : State) : exec (.idleTimeout b n) s = execIdleTimeout b n s := rfl
@[simp] theorem exec_segmentCopyDone (die core : Nat) (bale seg : Nat) (s : State) : exec (.segmentCopyDone die core bale seg) s = execSegmentCopyDone die core bale seg s := rfl
@[simp] theorem exec_bandSettle (b : Nat) (s : State) : exec (.bandSettle b) s = execBandSettle b s := rfl
@[simp] theorem exec_xswapExpiry (b : Nat) (s : State) : exec (.xswapExpiry b) s = execXswapExpiry b s := rfl
@[simp] theorem exec_preemptStopTimeout (b n : Nat) (s : State) : exec (.preemptStopTimeout b n) s = execPreemptStopTimeout b n s := rfl
@[simp] theorem exec_preemptDeferralExpiry (b n : Nat) (s : State) : exec (.preemptDeferralExpiry b n) s = execPreemptDeferralExpiry b n s := rfl
@[simp] theorem exec_bandSave (b : Nat) (s : State) : exec (.bandSave b) s = execBandSave b s := rfl
@[simp] theorem exec_bandRestore (b core : Nat) (macOk : Bool) (s : State) : exec (.bandRestore b core macOk) s = execBandRestore b core macOk s := rfl
@[simp] theorem exec_launchComplete (l : Nat) (s : State) : exec (.launchComplete l) s = execLaunchComplete l s := rfl
@[simp] theorem exec_replayFaultSettle (b : Nat) (s : State) : exec (.replayFaultSettle b) s = execReplayFaultSettle b s := rfl
@[simp] theorem exec_matrixOpStart (die core : Nat) (s : State) : exec (.matrixOpStart die core) s = execMatrixOpStart die core s := rfl
@[simp] theorem exec_matrixOpRetire (die core : Nat) (s : State) : exec (.matrixOpRetire die core) s = execMatrixOpRetire die core s := rfl
@[simp] theorem exec_jobStart (j : Nat) (s : State) : exec (.jobStart j) s = execJobStart j s := rfl
@[simp] theorem exec_jobReturn (j : Nat) (s : State) : exec (.jobReturn j) s = execJobReturn j s := rfl
@[simp] theorem exec_multicastFill (j target : Nat) (s : State) : exec (.multicastFill j target) s = execMulticastFill j target s := rfl
@[simp] theorem exec_collectiveInstanceComplete (ctx grp k : Nat) (s : State) : exec (.collectiveInstanceComplete ctx grp k) s = execCollectiveInstanceComplete ctx grp k s := rfl
@[simp] theorem exec_homeRequest (r : Nat) (s : State) : exec (.homeRequest r) s = execHomeRequest r s := rfl
@[simp] theorem exec_replicaDrop (ctx page dom : Nat) (s : State) : exec (.replicaDrop ctx page dom) s = execReplicaDrop ctx page dom s := rfl
@[simp] theorem exec_pantryVerb (r : Nat) (s : State) : exec (.pantryVerb r) s = execPantryVerb r s := rfl
@[simp] theorem exec_nrNopage (r : Nat) (ticket : BitVec 32) (s : State) : exec (.nrNopage r ticket) s = execNrNopage r ticket s := rfl
@[simp] theorem exec_negativeReply (r : Nat) (code : BitVec 8) (s : State) : exec (.negativeReply r code) s = execNegativeReply r code s := rfl
@[simp] theorem exec_ticketRetryExpiry (b n : Nat) (s : State) : exec (.ticketRetryExpiry b n) s = execTicketRetryExpiry b n s := rfl
@[simp] theorem exec_pageServiceDone (slot : Nat) (code : BitVec 8) (s : State) : exec (.pageServiceDone slot code) s = execPageServiceDone slot code s := rfl
@[simp] theorem exec_replayNotice (ticket : BitVec 32) (code : BitVec 8) (s : State) : exec (.replayNotice ticket code) s = execReplayNotice ticket code s := rfl
@[simp] theorem exec_gets (r : Nat) (s : State) : exec (.gets r) s = execGets r s := rfl
@[simp] theorem exec_getm (r : Nat) (s : State) : exec (.getm r) s = execGetm r s := rfl
@[simp] theorem exec_upg (r : Nat) (s : State) : exec (.upg r) s = execUpg r s := rfl
@[simp] theorem exec_putm (die ctx line : Nat) (s : State) : exec (.putm die ctx line) s = execPutm die ctx line s := rfl
@[simp] theorem exec_puto (die ctx line : Nat) (s : State) : exec (.puto die ctx line) s = execPuto die ctx line s := rfl
@[simp] theorem exec_fwdgets (die ctx line : Nat) (s : State) : exec (.fwdgets die ctx line) s = execFwdgets die ctx line s := rfl
@[simp] theorem exec_fwdgetm (die ctx line : Nat) (s : State) : exec (.fwdgetm die ctx line) s = execFwdgetm die ctx line s := rfl
@[simp] theorem exec_backinv (die ctx line : Nat) (s : State) : exec (.backinv die ctx line) s = execBackinv die ctx line s := rfl
@[simp] theorem exec_invack (die ctx line : Nat) (dirty : Option LineData) (s : State) : exec (.invack die ctx line dirty) s = execInvack die ctx line dirty s := rfl
@[simp] theorem exec_dataMsg (r : Nat) (payload : Option LineData) (s : State) : exec (.dataMsg r payload) s = execDataMsg r payload s := rfl
@[simp] theorem exec_heartbeatMiss (die : Nat) (s : State) : exec (.heartbeatMiss die) s = execHeartbeatMiss die s := rfl
@[simp] theorem exec_linkStepInterval (die util : Nat) (s : State) : exec (.linkStepInterval die util) s = execLinkStepInterval die util s := rfl
@[simp] theorem exec_retrainDone (die : Nat) (ok : Bool) (s : State) : exec (.retrainDone die ok) s = execRetrainDone die ok s := rfl
@[simp] theorem exec_linkTrained (die : Nat) (s : State) : exec (.linkTrained die) s = execLinkTrained die s := rfl
@[simp] theorem exec_trainingTimeout (die : Nat) (s : State) : exec (.trainingTimeout die) s = execTrainingTimeout die s := rfl
@[simp] theorem exec_capabilityCheck (die : Nat) (tab : CapTable) (s : State) : exec (.capabilityCheck die tab) s = execCapabilityCheck die tab s := rfl
@[simp] theorem exec_enumerationTimeout (die : Nat) (s : State) : exec (.enumerationTimeout die) s = execEnumerationTimeout die s := rfl
@[simp] theorem exec_peerHeartbeat (m : Nat) (answered : Bool) (s : State) : exec (.peerHeartbeat m answered) s = execPeerHeartbeat m answered s := rfl
@[simp] theorem exec_peerDead (m : Nat) (s : State) : exec (.peerDead m) s = execPeerDead m s := rfl
@[simp] theorem exec_fabricLinkRetrain (m : Nat) (s : State) : exec (.fabricLinkRetrain m) s = execFabricLinkRetrain m s := rfl
@[simp] theorem exec_fabricRetrainFail (m : Nat) (s : State) : exec (.fabricRetrainFail m) s = execFabricRetrainFail m s := rfl
@[simp] theorem exec_fabricLinkRetry (m : Nat) (ok : Bool) (s : State) : exec (.fabricLinkRetry m ok) s = execFabricLinkRetry m ok s := rfl
@[simp] theorem exec_environmentalAlarm (kind : AlarmKind) (onStack : Bool) (site : Nat) (s : State) : exec (.environmentalAlarm kind onStack site) s = execEnvironmentalAlarm kind onStack site s := rfl
@[simp] theorem exec_alarmClears (die : Nat) (s : State) : exec (.alarmClears die) s = execAlarmClears die s := rfl
@[simp] theorem exec_peerGrantedAgain (m : Nat) (s : State) : exec (.peerGrantedAgain m) s = execPeerGrantedAgain m s := rfl
@[simp] theorem exec_nop (s : State) : exec (.nop) s = execNop s := rfl
@[simp] theorem exec_mark (s : State) : exec (.mark) s = execMark s := rfl
@[simp] theorem exec_join (s : State) : exec (.join) s = execJoin s := rfl
@[simp] theorem exec_yield (s : State) : exec (.yield) s = execYield s := rfl
@[simp] theorem exec_tret (s : State) : exec (.tret) s = execTret s := rfl
@[simp] theorem exec_idle (s : State) : exec (.idle) s = execIdle s := rfl
@[simp] theorem exec_gbar (s : State) : exec (.gbar) s = execGbar s := rfl
@[simp] theorem exec_mbatch (s : State) : exec (.mbatch) s = execMbatch s := rfl
@[simp] theorem exec_wbrec (s : State) : exec (.wbrec) s = execWbrec s := rfl
@[simp] theorem exec_wbend (s : State) : exec (.wbend) s = execWbend s := rfl
@[simp] theorem exec_moduleReset (s : State) : exec (.moduleReset) s = execModuleReset s := rfl
@[simp] theorem exec_replayBandRecord (s : State) : exec (.replayBandRecord) s = execReplayBandRecord s := rfl
@[simp] theorem exec_replayJobRecord (s : State) : exec (.replayJobRecord) s = execReplayJobRecord s := rfl
@[simp] theorem exec_replayMatrixRecord (s : State) : exec (.replayMatrixRecord) s = execReplayMatrixRecord s := rfl
@[simp] theorem exec_replayFillRecord (s : State) : exec (.replayFillRecord) s = execReplayFillRecord s := rfl
@[simp] theorem exec_replayWaitRecord (s : State) : exec (.replayWaitRecord) s = execReplayWaitRecord s := rfl
@[simp] theorem exec_replayGbarRecord (s : State) : exec (.replayGbarRecord) s = execReplayGbarRecord s := rfl
@[simp] theorem exec_heartbeat (s : State) : exec (.heartbeat) s = execHeartbeat s := rfl
@[simp] theorem exec_dieQuiesceDone (s : State) : exec (.dieQuiesceDone) s = execDieQuiesceDone s := rfl
@[simp] theorem exec_ctxCreate (s : State) : exec (.ctxCreate) s = execCtxCreate s := rfl
@[simp] theorem exec_ctxDestroy (s : State) : exec (.ctxDestroy) s = execCtxDestroy s := rfl
@[simp] theorem exec_loadObj (s : State) : exec (.loadObj) s = execLoadObj s := rfl
@[simp] theorem exec_preemptCmd (s : State) : exec (.preemptCmd) s = execPreemptCmd s := rfl
@[simp] theorem exec_pageMap (s : State) : exec (.pageMap) s = execPageMap s := rfl
@[simp] theorem exec_pageMove (s : State) : exec (.pageMove) s = execPageMove s := rfl
@[simp] theorem exec_pagePin (s : State) : exec (.pagePin) s = execPagePin s := rfl
@[simp] theorem exec_pageUnpin (s : State) : exec (.pageUnpin) s = execPageUnpin s := rfl
@[simp] theorem exec_pageRestoreReplicas (s : State) : exec (.pageRestoreReplicas) s = execPageRestoreReplicas s := rfl
@[simp] theorem exec_spanInv (s : State) : exec (.spanInv) s = execSpanInv s := rfl
@[simp] theorem exec_extentGrant (s : State) : exec (.extentGrant) s = execExtentGrant s := rfl
@[simp] theorem exec_extentRevoke (s : State) : exec (.extentRevoke) s = execExtentRevoke s := rfl
@[simp] theorem exec_colSetup (s : State) : exec (.colSetup) s = execColSetup s := rfl
@[simp] theorem exec_colDestroy (s : State) : exec (.colDestroy) s = execColDestroy s := rfl
@[simp] theorem exec_dieQuiesce (s : State) : exec (.dieQuiesce) s = execDieQuiesce s := rfl
@[simp] theorem exec_dieReset (s : State) : exec (.dieReset) s = execDieReset s := rfl
@[simp] theorem exec_logRead (s : State) : exec (.logRead) s = execLogRead s := rfl
@[simp] theorem exec_quote (s : State) : exec (.quote) s = execQuote s := rfl
@[simp] theorem exec_exportCmd (s : State) : exec (.exportCmd) s = execExportCmd s := rfl
@[simp] theorem exec_queueCfg (s : State) : exec (.queueCfg) s = execQueueCfg s := rfl
@[simp] theorem exec_apertureMap (s : State) : exec (.apertureMap) s = execApertureMap s := rfl
@[simp] theorem exec_apertureUnmap (s : State) : exec (.apertureUnmap) s = execApertureUnmap s := rfl
@[simp] theorem exec_serviceModeNormal (s : State) : exec (.serviceModeNormal) s = execServiceModeNormal s := rfl
@[simp] theorem exec_serviceModeTest (s : State) : exec (.serviceModeTest) s = execServiceModeTest s := rfl
@[simp] theorem exec_serviceModeRecovery (s : State) : exec (.serviceModeRecovery) s = execServiceModeRecovery s := rfl
@[simp] theorem exec_resettingComplete (s : State) : exec (.resettingComplete) s = execResettingComplete s := rfl
@[simp] theorem exec_pageMoveComplete (s : State) : exec (.pageMoveComplete) s = execPageMoveComplete s := rfl

end Sys2Proof.Machine
end

