-- ==== Sys2Proof/Laws/State.lean ====
section
/-! SUPPORT. What each named update of the state and of a string leaves alone: one lemma for each field and update. -/

namespace Sys2Proof.Machine
open Sys2Proof

@[simp] theorem State.modStr_bun (s : State) (b n : Nat) (f : Str → Str) : (s.modStr b n f).bun = s.bun := rfl
@[simp] theorem State.modStr_bands (s : State) (b n : Nat) (f : Str → Str) : (s.modStr b n f).bands = s.bands := rfl
@[simp] theorem State.modStr_cores (s : State) (b n : Nat) (f : Str → Str) : (s.modStr b n f).cores = s.cores := rfl
@[simp] theorem State.modStr_sites (s : State) (b n : Nat) (f : Str → Str) : (s.modStr b n f).sites = s.sites := rfl
@[simp] theorem State.modStr_ops (s : State) (b n : Nat) (f : Str → Str) : (s.modStr b n f).ops = s.ops := rfl
@[simp] theorem State.modStr_reqs (s : State) (b n : Nat) (f : Str → Str) : (s.modStr b n f).reqs = s.reqs := rfl
@[simp] theorem State.modStr_rels (s : State) (b n : Nat) (f : Str → Str) : (s.modStr b n f).rels = s.rels := rfl
@[simp] theorem State.modStr_mops (s : State) (b n : Nat) (f : Str → Str) : (s.modStr b n f).mops = s.mops := rfl
@[simp] theorem State.modStr_jobs (s : State) (b n : Nat) (f : Str → Str) : (s.modStr b n f).jobs = s.jobs := rfl
@[simp] theorem State.modStr_launches (s : State) (b n : Nat) (f : Str → Str) : (s.modStr b n f).launches = s.launches := rfl
@[simp] theorem State.modStr_queues (s : State) (b n : Nat) (f : Str → Str) : (s.modStr b n f).queues = s.queues := rfl
@[simp] theorem State.modStr_ctxs (s : State) (b n : Nat) (f : Str → Str) : (s.modStr b n f).ctxs = s.ctxs := rfl
@[simp] theorem State.modStr_bales (s : State) (b n : Nat) (f : Str → Str) : (s.modStr b n f).bales = s.bales := rfl
@[simp] theorem State.modStr_pages (s : State) (b n : Nat) (f : Str → Str) : (s.modStr b n f).pages = s.pages := rfl
@[simp] theorem State.modStr_pageCache (s : State) (b n : Nat) (f : Str → Str) : (s.modStr b n f).pageCache = s.pageCache := rfl
@[simp] theorem State.modStr_allocs (s : State) (b n : Nat) (f : Str → Str) : (s.modStr b n f).allocs = s.allocs := rfl
@[simp] theorem State.modStr_tslots (s : State) (b n : Nat) (f : Str → Str) : (s.modStr b n f).tslots = s.tslots := rfl
@[simp] theorem State.modStr_notes (s : State) (b n : Nat) (f : Str → Str) : (s.modStr b n f).notes = s.notes := rfl
@[simp] theorem State.modStr_dir (s : State) (b n : Nat) (f : Str → Str) : (s.modStr b n f).dir = s.dir := rfl
@[simp] theorem State.modStr_txns (s : State) (b n : Nat) (f : Str → Str) : (s.modStr b n f).txns = s.txns := rfl
@[simp] theorem State.modStr_waybills (s : State) (b n : Nat) (f : Str → Str) : (s.modStr b n f).waybills = s.waybills := rfl
@[simp] theorem State.modStr_groups (s : State) (b n : Nat) (f : Str → Str) : (s.modStr b n f).groups = s.groups := rfl
@[simp] theorem State.modStr_extents (s : State) (b n : Nat) (f : Str → Str) : (s.modStr b n f).extents = s.extents := rfl
@[simp] theorem State.modStr_links (s : State) (b n : Nat) (f : Str → Str) : (s.modStr b n f).links = s.links := rfl
@[simp] theorem State.modStr_gran (s : State) (b n : Nat) (f : Str → Str) : (s.modStr b n f).gran = s.gran := rfl
@[simp] theorem State.modStr_host (s : State) (b n : Nat) (f : Str → Str) : (s.modStr b n f).host = s.host := rfl
@[simp] theorem State.modStr_lineFault (s : State) (b n : Nat) (f : Str → Str) : (s.modStr b n f).lineFault = s.lineFault := rfl
@[simp] theorem State.modStr_forfeit (s : State) (b n : Nat) (f : Str → Str) : (s.modStr b n f).forfeit = s.forfeit := rfl
@[simp] theorem State.modStr_forfeitSeq (s : State) (b n : Nat) (f : Str → Str) : (s.modStr b n f).forfeitSeq = s.forfeitSeq := rfl
@[simp] theorem State.modStr_errlog (s : State) (b n : Nat) (f : Str → Str) : (s.modStr b n f).errlog = s.errlog := rfl
@[simp] theorem State.modStr_aperture (s : State) (b n : Nat) (f : Str → Str) : (s.modStr b n f).aperture = s.aperture := rfl
@[simp] theorem State.modStr_bar2 (s : State) (b n : Nat) (f : Str → Str) : (s.modStr b n f).bar2 = s.bar2 := rfl
@[simp] theorem State.modStr_polls (s : State) (b n : Nat) (f : Str → Str) : (s.modStr b n f).polls = s.polls := rfl
@[simp] theorem State.modStr_replies (s : State) (b n : Nat) (f : Str → Str) : (s.modStr b n f).replies = s.replies := rfl
@[simp] theorem State.modStr_mgmtBusy (s : State) (b n : Nat) (f : Str → Str) : (s.modStr b n f).mgmtBusy = s.mgmtBusy := rfl
@[simp] theorem State.modStr_stage (s : State) (b n : Nat) (f : Str → Str) : (s.modStr b n f).stage = s.stage := rfl
@[simp] theorem State.modStr_fail (s : State) (b n : Nat) (f : Str → Str) : (s.modStr b n f).fail = s.fail := rfl
@[simp] theorem State.modStr_smode (s : State) (b n : Nat) (f : Str → Str) : (s.modStr b n f).smode = s.smode := rfl
@[simp] theorem State.modStr_alarm (s : State) (b n : Nat) (f : Str → Str) : (s.modStr b n f).alarm = s.alarm := rfl
@[simp] theorem State.modStr_stepping (s : State) (b n : Nat) (f : Str → Str) : (s.modStr b n f).stepping = s.stepping := rfl
@[simp] theorem State.modStr_dev (s : State) (b n : Nat) (f : Str → Str) : (s.modStr b n f).dev = s.dev := rfl
@[simp] theorem State.modStr_podN (s : State) (b n : Nat) (f : Str → Str) : (s.modStr b n f).podN = s.podN := rfl
@[simp] theorem State.modStr_clk (s : State) (b n : Nat) (f : Str → Str) : (s.modStr b n f).clk = s.clk := rfl
@[simp] theorem State.modStr_agenda (s : State) (b n : Nat) (f : Str → Str) : (s.modStr b n f).agenda = s.agenda := rfl
@[simp] theorem State.modStr_nchoice (s : State) (b n : Nat) (f : Str → Str) : (s.modStr b n f).nchoice = s.nchoice := rfl
@[simp] theorem State.modStr_nfree (s : State) (b n : Nat) (f : Str → Str) : (s.modStr b n f).nfree = s.nfree := rfl
@[simp] theorem State.modStr_nextId (s : State) (b n : Nat) (f : Str → Str) : (s.modStr b n f).nextId = s.nextId := rfl
@[simp] theorem State.modStr_nseq (s : State) (b n : Nat) (f : Str → Str) : (s.modStr b n f).nseq = s.nseq := rfl

@[simp] theorem State.modHead_bun (s : State) (f : Str → Str) : (s.modHead f).bun = s.bun := by unfold State.modHead; split <;> rfl
@[simp] theorem State.modHead_bands (s : State) (f : Str → Str) : (s.modHead f).bands = s.bands := by unfold State.modHead; split <;> rfl
@[simp] theorem State.modHead_cores (s : State) (f : Str → Str) : (s.modHead f).cores = s.cores := by unfold State.modHead; split <;> rfl
@[simp] theorem State.modHead_sites (s : State) (f : Str → Str) : (s.modHead f).sites = s.sites := by unfold State.modHead; split <;> rfl
@[simp] theorem State.modHead_ops (s : State) (f : Str → Str) : (s.modHead f).ops = s.ops := by unfold State.modHead; split <;> rfl
@[simp] theorem State.modHead_reqs (s : State) (f : Str → Str) : (s.modHead f).reqs = s.reqs := by unfold State.modHead; split <;> rfl
@[simp] theorem State.modHead_rels (s : State) (f : Str → Str) : (s.modHead f).rels = s.rels := by unfold State.modHead; split <;> rfl
@[simp] theorem State.modHead_mops (s : State) (f : Str → Str) : (s.modHead f).mops = s.mops := by unfold State.modHead; split <;> rfl
@[simp] theorem State.modHead_jobs (s : State) (f : Str → Str) : (s.modHead f).jobs = s.jobs := by unfold State.modHead; split <;> rfl
@[simp] theorem State.modHead_launches (s : State) (f : Str → Str) : (s.modHead f).launches = s.launches := by unfold State.modHead; split <;> rfl
@[simp] theorem State.modHead_queues (s : State) (f : Str → Str) : (s.modHead f).queues = s.queues := by unfold State.modHead; split <;> rfl
@[simp] theorem State.modHead_ctxs (s : State) (f : Str → Str) : (s.modHead f).ctxs = s.ctxs := by unfold State.modHead; split <;> rfl
@[simp] theorem State.modHead_bales (s : State) (f : Str → Str) : (s.modHead f).bales = s.bales := by unfold State.modHead; split <;> rfl
@[simp] theorem State.modHead_pages (s : State) (f : Str → Str) : (s.modHead f).pages = s.pages := by unfold State.modHead; split <;> rfl
@[simp] theorem State.modHead_pageCache (s : State) (f : Str → Str) : (s.modHead f).pageCache = s.pageCache := by unfold State.modHead; split <;> rfl
@[simp] theorem State.modHead_allocs (s : State) (f : Str → Str) : (s.modHead f).allocs = s.allocs := by unfold State.modHead; split <;> rfl
@[simp] theorem State.modHead_tslots (s : State) (f : Str → Str) : (s.modHead f).tslots = s.tslots := by unfold State.modHead; split <;> rfl
@[simp] theorem State.modHead_notes (s : State) (f : Str → Str) : (s.modHead f).notes = s.notes := by unfold State.modHead; split <;> rfl
@[simp] theorem State.modHead_dir (s : State) (f : Str → Str) : (s.modHead f).dir = s.dir := by unfold State.modHead; split <;> rfl
@[simp] theorem State.modHead_txns (s : State) (f : Str → Str) : (s.modHead f).txns = s.txns := by unfold State.modHead; split <;> rfl
@[simp] theorem State.modHead_waybills (s : State) (f : Str → Str) : (s.modHead f).waybills = s.waybills := by unfold State.modHead; split <;> rfl
@[simp] theorem State.modHead_groups (s : State) (f : Str → Str) : (s.modHead f).groups = s.groups := by unfold State.modHead; split <;> rfl
@[simp] theorem State.modHead_extents (s : State) (f : Str → Str) : (s.modHead f).extents = s.extents := by unfold State.modHead; split <;> rfl
@[simp] theorem State.modHead_links (s : State) (f : Str → Str) : (s.modHead f).links = s.links := by unfold State.modHead; split <;> rfl
@[simp] theorem State.modHead_gran (s : State) (f : Str → Str) : (s.modHead f).gran = s.gran := by unfold State.modHead; split <;> rfl
@[simp] theorem State.modHead_host (s : State) (f : Str → Str) : (s.modHead f).host = s.host := by unfold State.modHead; split <;> rfl
@[simp] theorem State.modHead_lineFault (s : State) (f : Str → Str) : (s.modHead f).lineFault = s.lineFault := by unfold State.modHead; split <;> rfl
@[simp] theorem State.modHead_forfeit (s : State) (f : Str → Str) : (s.modHead f).forfeit = s.forfeit := by unfold State.modHead; split <;> rfl
@[simp] theorem State.modHead_forfeitSeq (s : State) (f : Str → Str) : (s.modHead f).forfeitSeq = s.forfeitSeq := by unfold State.modHead; split <;> rfl
@[simp] theorem State.modHead_errlog (s : State) (f : Str → Str) : (s.modHead f).errlog = s.errlog := by unfold State.modHead; split <;> rfl
@[simp] theorem State.modHead_aperture (s : State) (f : Str → Str) : (s.modHead f).aperture = s.aperture := by unfold State.modHead; split <;> rfl
@[simp] theorem State.modHead_bar2 (s : State) (f : Str → Str) : (s.modHead f).bar2 = s.bar2 := by unfold State.modHead; split <;> rfl
@[simp] theorem State.modHead_polls (s : State) (f : Str → Str) : (s.modHead f).polls = s.polls := by unfold State.modHead; split <;> rfl
@[simp] theorem State.modHead_replies (s : State) (f : Str → Str) : (s.modHead f).replies = s.replies := by unfold State.modHead; split <;> rfl
@[simp] theorem State.modHead_mgmtBusy (s : State) (f : Str → Str) : (s.modHead f).mgmtBusy = s.mgmtBusy := by unfold State.modHead; split <;> rfl
@[simp] theorem State.modHead_stage (s : State) (f : Str → Str) : (s.modHead f).stage = s.stage := by unfold State.modHead; split <;> rfl
@[simp] theorem State.modHead_fail (s : State) (f : Str → Str) : (s.modHead f).fail = s.fail := by unfold State.modHead; split <;> rfl
@[simp] theorem State.modHead_smode (s : State) (f : Str → Str) : (s.modHead f).smode = s.smode := by unfold State.modHead; split <;> rfl
@[simp] theorem State.modHead_alarm (s : State) (f : Str → Str) : (s.modHead f).alarm = s.alarm := by unfold State.modHead; split <;> rfl
@[simp] theorem State.modHead_stepping (s : State) (f : Str → Str) : (s.modHead f).stepping = s.stepping := by unfold State.modHead; split <;> rfl
@[simp] theorem State.modHead_dev (s : State) (f : Str → Str) : (s.modHead f).dev = s.dev := by unfold State.modHead; split <;> rfl
@[simp] theorem State.modHead_podN (s : State) (f : Str → Str) : (s.modHead f).podN = s.podN := by unfold State.modHead; split <;> rfl
@[simp] theorem State.modHead_clk (s : State) (f : Str → Str) : (s.modHead f).clk = s.clk := by unfold State.modHead; split <;> rfl
@[simp] theorem State.modHead_agenda (s : State) (f : Str → Str) : (s.modHead f).agenda = s.agenda := by unfold State.modHead; split <;> rfl
@[simp] theorem State.modHead_nchoice (s : State) (f : Str → Str) : (s.modHead f).nchoice = s.nchoice := by unfold State.modHead; split <;> rfl
@[simp] theorem State.modHead_nfree (s : State) (f : Str → Str) : (s.modHead f).nfree = s.nfree := by unfold State.modHead; split <;> rfl
@[simp] theorem State.modHead_nextId (s : State) (f : Str → Str) : (s.modHead f).nextId = s.nextId := by unfold State.modHead; split <;> rfl
@[simp] theorem State.modHead_nseq (s : State) (f : Str → Str) : (s.modHead f).nseq = s.nseq := by unfold State.modHead; split <;> rfl

@[simp] theorem State.modBun_strs (s : State) (f : Bun → Bun) : (s.modBun f).strs = s.strs := rfl
@[simp] theorem State.modBun_bands (s : State) (f : Bun → Bun) : (s.modBun f).bands = s.bands := rfl
@[simp] theorem State.modBun_cores (s : State) (f : Bun → Bun) : (s.modBun f).cores = s.cores := rfl
@[simp] theorem State.modBun_sites (s : State) (f : Bun → Bun) : (s.modBun f).sites = s.sites := rfl
@[simp] theorem State.modBun_ops (s : State) (f : Bun → Bun) : (s.modBun f).ops = s.ops := rfl
@[simp] theorem State.modBun_reqs (s : State) (f : Bun → Bun) : (s.modBun f).reqs = s.reqs := rfl
@[simp] theorem State.modBun_rels (s : State) (f : Bun → Bun) : (s.modBun f).rels = s.rels := rfl
@[simp] theorem State.modBun_mops (s : State) (f : Bun → Bun) : (s.modBun f).mops = s.mops := rfl
@[simp] theorem State.modBun_jobs (s : State) (f : Bun → Bun) : (s.modBun f).jobs = s.jobs := rfl
@[simp] theorem State.modBun_launches (s : State) (f : Bun → Bun) : (s.modBun f).launches = s.launches := rfl
@[simp] theorem State.modBun_queues (s : State) (f : Bun → Bun) : (s.modBun f).queues = s.queues := rfl
@[simp] theorem State.modBun_ctxs (s : State) (f : Bun → Bun) : (s.modBun f).ctxs = s.ctxs := rfl
@[simp] theorem State.modBun_bales (s : State) (f : Bun → Bun) : (s.modBun f).bales = s.bales := rfl
@[simp] theorem State.modBun_pages (s : State) (f : Bun → Bun) : (s.modBun f).pages = s.pages := rfl
@[simp] theorem State.modBun_pageCache (s : State) (f : Bun → Bun) : (s.modBun f).pageCache = s.pageCache := rfl
@[simp] theorem State.modBun_allocs (s : State) (f : Bun → Bun) : (s.modBun f).allocs = s.allocs := rfl
@[simp] theorem State.modBun_tslots (s : State) (f : Bun → Bun) : (s.modBun f).tslots = s.tslots := rfl
@[simp] theorem State.modBun_notes (s : State) (f : Bun → Bun) : (s.modBun f).notes = s.notes := rfl
@[simp] theorem State.modBun_dir (s : State) (f : Bun → Bun) : (s.modBun f).dir = s.dir := rfl
@[simp] theorem State.modBun_txns (s : State) (f : Bun → Bun) : (s.modBun f).txns = s.txns := rfl
@[simp] theorem State.modBun_waybills (s : State) (f : Bun → Bun) : (s.modBun f).waybills = s.waybills := rfl
@[simp] theorem State.modBun_groups (s : State) (f : Bun → Bun) : (s.modBun f).groups = s.groups := rfl
@[simp] theorem State.modBun_extents (s : State) (f : Bun → Bun) : (s.modBun f).extents = s.extents := rfl
@[simp] theorem State.modBun_links (s : State) (f : Bun → Bun) : (s.modBun f).links = s.links := rfl
@[simp] theorem State.modBun_gran (s : State) (f : Bun → Bun) : (s.modBun f).gran = s.gran := rfl
@[simp] theorem State.modBun_host (s : State) (f : Bun → Bun) : (s.modBun f).host = s.host := rfl
@[simp] theorem State.modBun_lineFault (s : State) (f : Bun → Bun) : (s.modBun f).lineFault = s.lineFault := rfl
@[simp] theorem State.modBun_forfeit (s : State) (f : Bun → Bun) : (s.modBun f).forfeit = s.forfeit := rfl
@[simp] theorem State.modBun_forfeitSeq (s : State) (f : Bun → Bun) : (s.modBun f).forfeitSeq = s.forfeitSeq := rfl
@[simp] theorem State.modBun_errlog (s : State) (f : Bun → Bun) : (s.modBun f).errlog = s.errlog := rfl
@[simp] theorem State.modBun_aperture (s : State) (f : Bun → Bun) : (s.modBun f).aperture = s.aperture := rfl
@[simp] theorem State.modBun_bar2 (s : State) (f : Bun → Bun) : (s.modBun f).bar2 = s.bar2 := rfl
@[simp] theorem State.modBun_polls (s : State) (f : Bun → Bun) : (s.modBun f).polls = s.polls := rfl
@[simp] theorem State.modBun_replies (s : State) (f : Bun → Bun) : (s.modBun f).replies = s.replies := rfl
@[simp] theorem State.modBun_mgmtBusy (s : State) (f : Bun → Bun) : (s.modBun f).mgmtBusy = s.mgmtBusy := rfl
@[simp] theorem State.modBun_stage (s : State) (f : Bun → Bun) : (s.modBun f).stage = s.stage := rfl
@[simp] theorem State.modBun_fail (s : State) (f : Bun → Bun) : (s.modBun f).fail = s.fail := rfl
@[simp] theorem State.modBun_smode (s : State) (f : Bun → Bun) : (s.modBun f).smode = s.smode := rfl
@[simp] theorem State.modBun_alarm (s : State) (f : Bun → Bun) : (s.modBun f).alarm = s.alarm := rfl
@[simp] theorem State.modBun_stepping (s : State) (f : Bun → Bun) : (s.modBun f).stepping = s.stepping := rfl
@[simp] theorem State.modBun_dev (s : State) (f : Bun → Bun) : (s.modBun f).dev = s.dev := rfl
@[simp] theorem State.modBun_podN (s : State) (f : Bun → Bun) : (s.modBun f).podN = s.podN := rfl
@[simp] theorem State.modBun_clk (s : State) (f : Bun → Bun) : (s.modBun f).clk = s.clk := rfl
@[simp] theorem State.modBun_agenda (s : State) (f : Bun → Bun) : (s.modBun f).agenda = s.agenda := rfl
@[simp] theorem State.modBun_nchoice (s : State) (f : Bun → Bun) : (s.modBun f).nchoice = s.nchoice := rfl
@[simp] theorem State.modBun_nfree (s : State) (f : Bun → Bun) : (s.modBun f).nfree = s.nfree := rfl
@[simp] theorem State.modBun_nextId (s : State) (f : Bun → Bun) : (s.modBun f).nextId = s.nextId := rfl
@[simp] theorem State.modBun_nseq (s : State) (f : Bun → Bun) : (s.modBun f).nseq = s.nseq := rfl

@[simp] theorem State.modBand_strs (s : State) (b : Nat) (f : Band → Band) : (s.modBand b f).strs = s.strs := rfl
@[simp] theorem State.modBand_bun (s : State) (b : Nat) (f : Band → Band) : (s.modBand b f).bun = s.bun := rfl
@[simp] theorem State.modBand_cores (s : State) (b : Nat) (f : Band → Band) : (s.modBand b f).cores = s.cores := rfl
@[simp] theorem State.modBand_sites (s : State) (b : Nat) (f : Band → Band) : (s.modBand b f).sites = s.sites := rfl
@[simp] theorem State.modBand_ops (s : State) (b : Nat) (f : Band → Band) : (s.modBand b f).ops = s.ops := rfl
@[simp] theorem State.modBand_reqs (s : State) (b : Nat) (f : Band → Band) : (s.modBand b f).reqs = s.reqs := rfl
@[simp] theorem State.modBand_rels (s : State) (b : Nat) (f : Band → Band) : (s.modBand b f).rels = s.rels := rfl
@[simp] theorem State.modBand_mops (s : State) (b : Nat) (f : Band → Band) : (s.modBand b f).mops = s.mops := rfl
@[simp] theorem State.modBand_jobs (s : State) (b : Nat) (f : Band → Band) : (s.modBand b f).jobs = s.jobs := rfl
@[simp] theorem State.modBand_launches (s : State) (b : Nat) (f : Band → Band) : (s.modBand b f).launches = s.launches := rfl
@[simp] theorem State.modBand_queues (s : State) (b : Nat) (f : Band → Band) : (s.modBand b f).queues = s.queues := rfl
@[simp] theorem State.modBand_ctxs (s : State) (b : Nat) (f : Band → Band) : (s.modBand b f).ctxs = s.ctxs := rfl
@[simp] theorem State.modBand_bales (s : State) (b : Nat) (f : Band → Band) : (s.modBand b f).bales = s.bales := rfl
@[simp] theorem State.modBand_pages (s : State) (b : Nat) (f : Band → Band) : (s.modBand b f).pages = s.pages := rfl
@[simp] theorem State.modBand_pageCache (s : State) (b : Nat) (f : Band → Band) : (s.modBand b f).pageCache = s.pageCache := rfl
@[simp] theorem State.modBand_allocs (s : State) (b : Nat) (f : Band → Band) : (s.modBand b f).allocs = s.allocs := rfl
@[simp] theorem State.modBand_tslots (s : State) (b : Nat) (f : Band → Band) : (s.modBand b f).tslots = s.tslots := rfl
@[simp] theorem State.modBand_notes (s : State) (b : Nat) (f : Band → Band) : (s.modBand b f).notes = s.notes := rfl
@[simp] theorem State.modBand_dir (s : State) (b : Nat) (f : Band → Band) : (s.modBand b f).dir = s.dir := rfl
@[simp] theorem State.modBand_txns (s : State) (b : Nat) (f : Band → Band) : (s.modBand b f).txns = s.txns := rfl
@[simp] theorem State.modBand_waybills (s : State) (b : Nat) (f : Band → Band) : (s.modBand b f).waybills = s.waybills := rfl
@[simp] theorem State.modBand_groups (s : State) (b : Nat) (f : Band → Band) : (s.modBand b f).groups = s.groups := rfl
@[simp] theorem State.modBand_extents (s : State) (b : Nat) (f : Band → Band) : (s.modBand b f).extents = s.extents := rfl
@[simp] theorem State.modBand_links (s : State) (b : Nat) (f : Band → Band) : (s.modBand b f).links = s.links := rfl
@[simp] theorem State.modBand_gran (s : State) (b : Nat) (f : Band → Band) : (s.modBand b f).gran = s.gran := rfl
@[simp] theorem State.modBand_host (s : State) (b : Nat) (f : Band → Band) : (s.modBand b f).host = s.host := rfl
@[simp] theorem State.modBand_lineFault (s : State) (b : Nat) (f : Band → Band) : (s.modBand b f).lineFault = s.lineFault := rfl
@[simp] theorem State.modBand_forfeit (s : State) (b : Nat) (f : Band → Band) : (s.modBand b f).forfeit = s.forfeit := rfl
@[simp] theorem State.modBand_forfeitSeq (s : State) (b : Nat) (f : Band → Band) : (s.modBand b f).forfeitSeq = s.forfeitSeq := rfl
@[simp] theorem State.modBand_errlog (s : State) (b : Nat) (f : Band → Band) : (s.modBand b f).errlog = s.errlog := rfl
@[simp] theorem State.modBand_aperture (s : State) (b : Nat) (f : Band → Band) : (s.modBand b f).aperture = s.aperture := rfl
@[simp] theorem State.modBand_bar2 (s : State) (b : Nat) (f : Band → Band) : (s.modBand b f).bar2 = s.bar2 := rfl
@[simp] theorem State.modBand_polls (s : State) (b : Nat) (f : Band → Band) : (s.modBand b f).polls = s.polls := rfl
@[simp] theorem State.modBand_replies (s : State) (b : Nat) (f : Band → Band) : (s.modBand b f).replies = s.replies := rfl
@[simp] theorem State.modBand_mgmtBusy (s : State) (b : Nat) (f : Band → Band) : (s.modBand b f).mgmtBusy = s.mgmtBusy := rfl
@[simp] theorem State.modBand_stage (s : State) (b : Nat) (f : Band → Band) : (s.modBand b f).stage = s.stage := rfl
@[simp] theorem State.modBand_fail (s : State) (b : Nat) (f : Band → Band) : (s.modBand b f).fail = s.fail := rfl
@[simp] theorem State.modBand_smode (s : State) (b : Nat) (f : Band → Band) : (s.modBand b f).smode = s.smode := rfl
@[simp] theorem State.modBand_alarm (s : State) (b : Nat) (f : Band → Band) : (s.modBand b f).alarm = s.alarm := rfl
@[simp] theorem State.modBand_stepping (s : State) (b : Nat) (f : Band → Band) : (s.modBand b f).stepping = s.stepping := rfl
@[simp] theorem State.modBand_dev (s : State) (b : Nat) (f : Band → Band) : (s.modBand b f).dev = s.dev := rfl
@[simp] theorem State.modBand_podN (s : State) (b : Nat) (f : Band → Band) : (s.modBand b f).podN = s.podN := rfl
@[simp] theorem State.modBand_clk (s : State) (b : Nat) (f : Band → Band) : (s.modBand b f).clk = s.clk := rfl
@[simp] theorem State.modBand_agenda (s : State) (b : Nat) (f : Band → Band) : (s.modBand b f).agenda = s.agenda := rfl
@[simp] theorem State.modBand_nchoice (s : State) (b : Nat) (f : Band → Band) : (s.modBand b f).nchoice = s.nchoice := rfl
@[simp] theorem State.modBand_nfree (s : State) (b : Nat) (f : Band → Band) : (s.modBand b f).nfree = s.nfree := rfl
@[simp] theorem State.modBand_nextId (s : State) (b : Nat) (f : Band → Band) : (s.modBand b f).nextId = s.nextId := rfl
@[simp] theorem State.modBand_nseq (s : State) (b : Nat) (f : Band → Band) : (s.modBand b f).nseq = s.nseq := rfl

@[simp] theorem State.modCore_strs (s : State) (d c : Nat) (f : Core → Core) : (s.modCore d c f).strs = s.strs := rfl
@[simp] theorem State.modCore_bun (s : State) (d c : Nat) (f : Core → Core) : (s.modCore d c f).bun = s.bun := rfl
@[simp] theorem State.modCore_bands (s : State) (d c : Nat) (f : Core → Core) : (s.modCore d c f).bands = s.bands := rfl
@[simp] theorem State.modCore_sites (s : State) (d c : Nat) (f : Core → Core) : (s.modCore d c f).sites = s.sites := rfl
@[simp] theorem State.modCore_ops (s : State) (d c : Nat) (f : Core → Core) : (s.modCore d c f).ops = s.ops := rfl
@[simp] theorem State.modCore_reqs (s : State) (d c : Nat) (f : Core → Core) : (s.modCore d c f).reqs = s.reqs := rfl
@[simp] theorem State.modCore_rels (s : State) (d c : Nat) (f : Core → Core) : (s.modCore d c f).rels = s.rels := rfl
@[simp] theorem State.modCore_mops (s : State) (d c : Nat) (f : Core → Core) : (s.modCore d c f).mops = s.mops := rfl
@[simp] theorem State.modCore_jobs (s : State) (d c : Nat) (f : Core → Core) : (s.modCore d c f).jobs = s.jobs := rfl
@[simp] theorem State.modCore_launches (s : State) (d c : Nat) (f : Core → Core) : (s.modCore d c f).launches = s.launches := rfl
@[simp] theorem State.modCore_queues (s : State) (d c : Nat) (f : Core → Core) : (s.modCore d c f).queues = s.queues := rfl
@[simp] theorem State.modCore_ctxs (s : State) (d c : Nat) (f : Core → Core) : (s.modCore d c f).ctxs = s.ctxs := rfl
@[simp] theorem State.modCore_bales (s : State) (d c : Nat) (f : Core → Core) : (s.modCore d c f).bales = s.bales := rfl
@[simp] theorem State.modCore_pages (s : State) (d c : Nat) (f : Core → Core) : (s.modCore d c f).pages = s.pages := rfl
@[simp] theorem State.modCore_pageCache (s : State) (d c : Nat) (f : Core → Core) : (s.modCore d c f).pageCache = s.pageCache := rfl
@[simp] theorem State.modCore_allocs (s : State) (d c : Nat) (f : Core → Core) : (s.modCore d c f).allocs = s.allocs := rfl
@[simp] theorem State.modCore_tslots (s : State) (d c : Nat) (f : Core → Core) : (s.modCore d c f).tslots = s.tslots := rfl
@[simp] theorem State.modCore_notes (s : State) (d c : Nat) (f : Core → Core) : (s.modCore d c f).notes = s.notes := rfl
@[simp] theorem State.modCore_dir (s : State) (d c : Nat) (f : Core → Core) : (s.modCore d c f).dir = s.dir := rfl
@[simp] theorem State.modCore_txns (s : State) (d c : Nat) (f : Core → Core) : (s.modCore d c f).txns = s.txns := rfl
@[simp] theorem State.modCore_waybills (s : State) (d c : Nat) (f : Core → Core) : (s.modCore d c f).waybills = s.waybills := rfl
@[simp] theorem State.modCore_groups (s : State) (d c : Nat) (f : Core → Core) : (s.modCore d c f).groups = s.groups := rfl
@[simp] theorem State.modCore_extents (s : State) (d c : Nat) (f : Core → Core) : (s.modCore d c f).extents = s.extents := rfl
@[simp] theorem State.modCore_links (s : State) (d c : Nat) (f : Core → Core) : (s.modCore d c f).links = s.links := rfl
@[simp] theorem State.modCore_gran (s : State) (d c : Nat) (f : Core → Core) : (s.modCore d c f).gran = s.gran := rfl
@[simp] theorem State.modCore_host (s : State) (d c : Nat) (f : Core → Core) : (s.modCore d c f).host = s.host := rfl
@[simp] theorem State.modCore_lineFault (s : State) (d c : Nat) (f : Core → Core) : (s.modCore d c f).lineFault = s.lineFault := rfl
@[simp] theorem State.modCore_forfeit (s : State) (d c : Nat) (f : Core → Core) : (s.modCore d c f).forfeit = s.forfeit := rfl
@[simp] theorem State.modCore_forfeitSeq (s : State) (d c : Nat) (f : Core → Core) : (s.modCore d c f).forfeitSeq = s.forfeitSeq := rfl
@[simp] theorem State.modCore_errlog (s : State) (d c : Nat) (f : Core → Core) : (s.modCore d c f).errlog = s.errlog := rfl
@[simp] theorem State.modCore_aperture (s : State) (d c : Nat) (f : Core → Core) : (s.modCore d c f).aperture = s.aperture := rfl
@[simp] theorem State.modCore_bar2 (s : State) (d c : Nat) (f : Core → Core) : (s.modCore d c f).bar2 = s.bar2 := rfl
@[simp] theorem State.modCore_polls (s : State) (d c : Nat) (f : Core → Core) : (s.modCore d c f).polls = s.polls := rfl
@[simp] theorem State.modCore_replies (s : State) (d c : Nat) (f : Core → Core) : (s.modCore d c f).replies = s.replies := rfl
@[simp] theorem State.modCore_mgmtBusy (s : State) (d c : Nat) (f : Core → Core) : (s.modCore d c f).mgmtBusy = s.mgmtBusy := rfl
@[simp] theorem State.modCore_stage (s : State) (d c : Nat) (f : Core → Core) : (s.modCore d c f).stage = s.stage := rfl
@[simp] theorem State.modCore_fail (s : State) (d c : Nat) (f : Core → Core) : (s.modCore d c f).fail = s.fail := rfl
@[simp] theorem State.modCore_smode (s : State) (d c : Nat) (f : Core → Core) : (s.modCore d c f).smode = s.smode := rfl
@[simp] theorem State.modCore_alarm (s : State) (d c : Nat) (f : Core → Core) : (s.modCore d c f).alarm = s.alarm := rfl
@[simp] theorem State.modCore_stepping (s : State) (d c : Nat) (f : Core → Core) : (s.modCore d c f).stepping = s.stepping := rfl
@[simp] theorem State.modCore_dev (s : State) (d c : Nat) (f : Core → Core) : (s.modCore d c f).dev = s.dev := rfl
@[simp] theorem State.modCore_podN (s : State) (d c : Nat) (f : Core → Core) : (s.modCore d c f).podN = s.podN := rfl
@[simp] theorem State.modCore_clk (s : State) (d c : Nat) (f : Core → Core) : (s.modCore d c f).clk = s.clk := rfl
@[simp] theorem State.modCore_agenda (s : State) (d c : Nat) (f : Core → Core) : (s.modCore d c f).agenda = s.agenda := rfl
@[simp] theorem State.modCore_nchoice (s : State) (d c : Nat) (f : Core → Core) : (s.modCore d c f).nchoice = s.nchoice := rfl
@[simp] theorem State.modCore_nfree (s : State) (d c : Nat) (f : Core → Core) : (s.modCore d c f).nfree = s.nfree := rfl
@[simp] theorem State.modCore_nextId (s : State) (d c : Nat) (f : Core → Core) : (s.modCore d c f).nextId = s.nextId := rfl
@[simp] theorem State.modCore_nseq (s : State) (d c : Nat) (f : Core → Core) : (s.modCore d c f).nseq = s.nseq := rfl

@[simp] theorem State.modSite_strs (s : State) (d : Nat) (f : Site → Site) : (s.modSite d f).strs = s.strs := rfl
@[simp] theorem State.modSite_bun (s : State) (d : Nat) (f : Site → Site) : (s.modSite d f).bun = s.bun := rfl
@[simp] theorem State.modSite_bands (s : State) (d : Nat) (f : Site → Site) : (s.modSite d f).bands = s.bands := rfl
@[simp] theorem State.modSite_cores (s : State) (d : Nat) (f : Site → Site) : (s.modSite d f).cores = s.cores := rfl
@[simp] theorem State.modSite_ops (s : State) (d : Nat) (f : Site → Site) : (s.modSite d f).ops = s.ops := rfl
@[simp] theorem State.modSite_reqs (s : State) (d : Nat) (f : Site → Site) : (s.modSite d f).reqs = s.reqs := rfl
@[simp] theorem State.modSite_rels (s : State) (d : Nat) (f : Site → Site) : (s.modSite d f).rels = s.rels := rfl
@[simp] theorem State.modSite_mops (s : State) (d : Nat) (f : Site → Site) : (s.modSite d f).mops = s.mops := rfl
@[simp] theorem State.modSite_jobs (s : State) (d : Nat) (f : Site → Site) : (s.modSite d f).jobs = s.jobs := rfl
@[simp] theorem State.modSite_launches (s : State) (d : Nat) (f : Site → Site) : (s.modSite d f).launches = s.launches := rfl
@[simp] theorem State.modSite_queues (s : State) (d : Nat) (f : Site → Site) : (s.modSite d f).queues = s.queues := rfl
@[simp] theorem State.modSite_ctxs (s : State) (d : Nat) (f : Site → Site) : (s.modSite d f).ctxs = s.ctxs := rfl
@[simp] theorem State.modSite_bales (s : State) (d : Nat) (f : Site → Site) : (s.modSite d f).bales = s.bales := rfl
@[simp] theorem State.modSite_pages (s : State) (d : Nat) (f : Site → Site) : (s.modSite d f).pages = s.pages := rfl
@[simp] theorem State.modSite_pageCache (s : State) (d : Nat) (f : Site → Site) : (s.modSite d f).pageCache = s.pageCache := rfl
@[simp] theorem State.modSite_allocs (s : State) (d : Nat) (f : Site → Site) : (s.modSite d f).allocs = s.allocs := rfl
@[simp] theorem State.modSite_tslots (s : State) (d : Nat) (f : Site → Site) : (s.modSite d f).tslots = s.tslots := rfl
@[simp] theorem State.modSite_notes (s : State) (d : Nat) (f : Site → Site) : (s.modSite d f).notes = s.notes := rfl
@[simp] theorem State.modSite_dir (s : State) (d : Nat) (f : Site → Site) : (s.modSite d f).dir = s.dir := rfl
@[simp] theorem State.modSite_txns (s : State) (d : Nat) (f : Site → Site) : (s.modSite d f).txns = s.txns := rfl
@[simp] theorem State.modSite_waybills (s : State) (d : Nat) (f : Site → Site) : (s.modSite d f).waybills = s.waybills := rfl
@[simp] theorem State.modSite_groups (s : State) (d : Nat) (f : Site → Site) : (s.modSite d f).groups = s.groups := rfl
@[simp] theorem State.modSite_extents (s : State) (d : Nat) (f : Site → Site) : (s.modSite d f).extents = s.extents := rfl
@[simp] theorem State.modSite_links (s : State) (d : Nat) (f : Site → Site) : (s.modSite d f).links = s.links := rfl
@[simp] theorem State.modSite_gran (s : State) (d : Nat) (f : Site → Site) : (s.modSite d f).gran = s.gran := rfl
@[simp] theorem State.modSite_host (s : State) (d : Nat) (f : Site → Site) : (s.modSite d f).host = s.host := rfl
@[simp] theorem State.modSite_lineFault (s : State) (d : Nat) (f : Site → Site) : (s.modSite d f).lineFault = s.lineFault := rfl
@[simp] theorem State.modSite_forfeit (s : State) (d : Nat) (f : Site → Site) : (s.modSite d f).forfeit = s.forfeit := rfl
@[simp] theorem State.modSite_forfeitSeq (s : State) (d : Nat) (f : Site → Site) : (s.modSite d f).forfeitSeq = s.forfeitSeq := rfl
@[simp] theorem State.modSite_errlog (s : State) (d : Nat) (f : Site → Site) : (s.modSite d f).errlog = s.errlog := rfl
@[simp] theorem State.modSite_aperture (s : State) (d : Nat) (f : Site → Site) : (s.modSite d f).aperture = s.aperture := rfl
@[simp] theorem State.modSite_bar2 (s : State) (d : Nat) (f : Site → Site) : (s.modSite d f).bar2 = s.bar2 := rfl
@[simp] theorem State.modSite_polls (s : State) (d : Nat) (f : Site → Site) : (s.modSite d f).polls = s.polls := rfl
@[simp] theorem State.modSite_replies (s : State) (d : Nat) (f : Site → Site) : (s.modSite d f).replies = s.replies := rfl
@[simp] theorem State.modSite_mgmtBusy (s : State) (d : Nat) (f : Site → Site) : (s.modSite d f).mgmtBusy = s.mgmtBusy := rfl
@[simp] theorem State.modSite_stage (s : State) (d : Nat) (f : Site → Site) : (s.modSite d f).stage = s.stage := rfl
@[simp] theorem State.modSite_fail (s : State) (d : Nat) (f : Site → Site) : (s.modSite d f).fail = s.fail := rfl
@[simp] theorem State.modSite_smode (s : State) (d : Nat) (f : Site → Site) : (s.modSite d f).smode = s.smode := rfl
@[simp] theorem State.modSite_alarm (s : State) (d : Nat) (f : Site → Site) : (s.modSite d f).alarm = s.alarm := rfl
@[simp] theorem State.modSite_stepping (s : State) (d : Nat) (f : Site → Site) : (s.modSite d f).stepping = s.stepping := rfl
@[simp] theorem State.modSite_dev (s : State) (d : Nat) (f : Site → Site) : (s.modSite d f).dev = s.dev := rfl
@[simp] theorem State.modSite_podN (s : State) (d : Nat) (f : Site → Site) : (s.modSite d f).podN = s.podN := rfl
@[simp] theorem State.modSite_clk (s : State) (d : Nat) (f : Site → Site) : (s.modSite d f).clk = s.clk := rfl
@[simp] theorem State.modSite_agenda (s : State) (d : Nat) (f : Site → Site) : (s.modSite d f).agenda = s.agenda := rfl
@[simp] theorem State.modSite_nchoice (s : State) (d : Nat) (f : Site → Site) : (s.modSite d f).nchoice = s.nchoice := rfl
@[simp] theorem State.modSite_nfree (s : State) (d : Nat) (f : Site → Site) : (s.modSite d f).nfree = s.nfree := rfl
@[simp] theorem State.modSite_nextId (s : State) (d : Nat) (f : Site → Site) : (s.modSite d f).nextId = s.nextId := rfl
@[simp] theorem State.modSite_nseq (s : State) (d : Nat) (f : Site → Site) : (s.modSite d f).nseq = s.nseq := rfl

@[simp] theorem State.modCtx_strs (s : State) (c : Nat) (f : Ctx → Ctx) : (s.modCtx c f).strs = s.strs := rfl
@[simp] theorem State.modCtx_bun (s : State) (c : Nat) (f : Ctx → Ctx) : (s.modCtx c f).bun = s.bun := rfl
@[simp] theorem State.modCtx_bands (s : State) (c : Nat) (f : Ctx → Ctx) : (s.modCtx c f).bands = s.bands := rfl
@[simp] theorem State.modCtx_cores (s : State) (c : Nat) (f : Ctx → Ctx) : (s.modCtx c f).cores = s.cores := rfl
@[simp] theorem State.modCtx_sites (s : State) (c : Nat) (f : Ctx → Ctx) : (s.modCtx c f).sites = s.sites := rfl
@[simp] theorem State.modCtx_ops (s : State) (c : Nat) (f : Ctx → Ctx) : (s.modCtx c f).ops = s.ops := rfl
@[simp] theorem State.modCtx_reqs (s : State) (c : Nat) (f : Ctx → Ctx) : (s.modCtx c f).reqs = s.reqs := rfl
@[simp] theorem State.modCtx_rels (s : State) (c : Nat) (f : Ctx → Ctx) : (s.modCtx c f).rels = s.rels := rfl
@[simp] theorem State.modCtx_mops (s : State) (c : Nat) (f : Ctx → Ctx) : (s.modCtx c f).mops = s.mops := rfl
@[simp] theorem State.modCtx_jobs (s : State) (c : Nat) (f : Ctx → Ctx) : (s.modCtx c f).jobs = s.jobs := rfl
@[simp] theorem State.modCtx_launches (s : State) (c : Nat) (f : Ctx → Ctx) : (s.modCtx c f).launches = s.launches := rfl
@[simp] theorem State.modCtx_queues (s : State) (c : Nat) (f : Ctx → Ctx) : (s.modCtx c f).queues = s.queues := rfl
@[simp] theorem State.modCtx_bales (s : State) (c : Nat) (f : Ctx → Ctx) : (s.modCtx c f).bales = s.bales := rfl
@[simp] theorem State.modCtx_pages (s : State) (c : Nat) (f : Ctx → Ctx) : (s.modCtx c f).pages = s.pages := rfl
@[simp] theorem State.modCtx_pageCache (s : State) (c : Nat) (f : Ctx → Ctx) : (s.modCtx c f).pageCache = s.pageCache := rfl
@[simp] theorem State.modCtx_allocs (s : State) (c : Nat) (f : Ctx → Ctx) : (s.modCtx c f).allocs = s.allocs := rfl
@[simp] theorem State.modCtx_tslots (s : State) (c : Nat) (f : Ctx → Ctx) : (s.modCtx c f).tslots = s.tslots := rfl
@[simp] theorem State.modCtx_notes (s : State) (c : Nat) (f : Ctx → Ctx) : (s.modCtx c f).notes = s.notes := rfl
@[simp] theorem State.modCtx_dir (s : State) (c : Nat) (f : Ctx → Ctx) : (s.modCtx c f).dir = s.dir := rfl
@[simp] theorem State.modCtx_txns (s : State) (c : Nat) (f : Ctx → Ctx) : (s.modCtx c f).txns = s.txns := rfl
@[simp] theorem State.modCtx_waybills (s : State) (c : Nat) (f : Ctx → Ctx) : (s.modCtx c f).waybills = s.waybills := rfl
@[simp] theorem State.modCtx_groups (s : State) (c : Nat) (f : Ctx → Ctx) : (s.modCtx c f).groups = s.groups := rfl
@[simp] theorem State.modCtx_extents (s : State) (c : Nat) (f : Ctx → Ctx) : (s.modCtx c f).extents = s.extents := rfl
@[simp] theorem State.modCtx_links (s : State) (c : Nat) (f : Ctx → Ctx) : (s.modCtx c f).links = s.links := rfl
@[simp] theorem State.modCtx_gran (s : State) (c : Nat) (f : Ctx → Ctx) : (s.modCtx c f).gran = s.gran := rfl
@[simp] theorem State.modCtx_host (s : State) (c : Nat) (f : Ctx → Ctx) : (s.modCtx c f).host = s.host := rfl
@[simp] theorem State.modCtx_lineFault (s : State) (c : Nat) (f : Ctx → Ctx) : (s.modCtx c f).lineFault = s.lineFault := rfl
@[simp] theorem State.modCtx_forfeit (s : State) (c : Nat) (f : Ctx → Ctx) : (s.modCtx c f).forfeit = s.forfeit := rfl
@[simp] theorem State.modCtx_forfeitSeq (s : State) (c : Nat) (f : Ctx → Ctx) : (s.modCtx c f).forfeitSeq = s.forfeitSeq := rfl
@[simp] theorem State.modCtx_errlog (s : State) (c : Nat) (f : Ctx → Ctx) : (s.modCtx c f).errlog = s.errlog := rfl
@[simp] theorem State.modCtx_aperture (s : State) (c : Nat) (f : Ctx → Ctx) : (s.modCtx c f).aperture = s.aperture := rfl
@[simp] theorem State.modCtx_bar2 (s : State) (c : Nat) (f : Ctx → Ctx) : (s.modCtx c f).bar2 = s.bar2 := rfl
@[simp] theorem State.modCtx_polls (s : State) (c : Nat) (f : Ctx → Ctx) : (s.modCtx c f).polls = s.polls := rfl
@[simp] theorem State.modCtx_replies (s : State) (c : Nat) (f : Ctx → Ctx) : (s.modCtx c f).replies = s.replies := rfl
@[simp] theorem State.modCtx_mgmtBusy (s : State) (c : Nat) (f : Ctx → Ctx) : (s.modCtx c f).mgmtBusy = s.mgmtBusy := rfl
@[simp] theorem State.modCtx_stage (s : State) (c : Nat) (f : Ctx → Ctx) : (s.modCtx c f).stage = s.stage := rfl
@[simp] theorem State.modCtx_fail (s : State) (c : Nat) (f : Ctx → Ctx) : (s.modCtx c f).fail = s.fail := rfl
@[simp] theorem State.modCtx_smode (s : State) (c : Nat) (f : Ctx → Ctx) : (s.modCtx c f).smode = s.smode := rfl
@[simp] theorem State.modCtx_alarm (s : State) (c : Nat) (f : Ctx → Ctx) : (s.modCtx c f).alarm = s.alarm := rfl
@[simp] theorem State.modCtx_stepping (s : State) (c : Nat) (f : Ctx → Ctx) : (s.modCtx c f).stepping = s.stepping := rfl
@[simp] theorem State.modCtx_dev (s : State) (c : Nat) (f : Ctx → Ctx) : (s.modCtx c f).dev = s.dev := rfl
@[simp] theorem State.modCtx_podN (s : State) (c : Nat) (f : Ctx → Ctx) : (s.modCtx c f).podN = s.podN := rfl
@[simp] theorem State.modCtx_clk (s : State) (c : Nat) (f : Ctx → Ctx) : (s.modCtx c f).clk = s.clk := rfl
@[simp] theorem State.modCtx_agenda (s : State) (c : Nat) (f : Ctx → Ctx) : (s.modCtx c f).agenda = s.agenda := rfl
@[simp] theorem State.modCtx_nchoice (s : State) (c : Nat) (f : Ctx → Ctx) : (s.modCtx c f).nchoice = s.nchoice := rfl
@[simp] theorem State.modCtx_nfree (s : State) (c : Nat) (f : Ctx → Ctx) : (s.modCtx c f).nfree = s.nfree := rfl
@[simp] theorem State.modCtx_nextId (s : State) (c : Nat) (f : Ctx → Ctx) : (s.modCtx c f).nextId = s.nextId := rfl
@[simp] theorem State.modCtx_nseq (s : State) (c : Nat) (f : Ctx → Ctx) : (s.modCtx c f).nseq = s.nseq := rfl

@[simp] theorem State.modLaunch_strs (s : State) (l : Nat) (f : Launch → Launch) : (s.modLaunch l f).strs = s.strs := rfl
@[simp] theorem State.modLaunch_bun (s : State) (l : Nat) (f : Launch → Launch) : (s.modLaunch l f).bun = s.bun := rfl
@[simp] theorem State.modLaunch_bands (s : State) (l : Nat) (f : Launch → Launch) : (s.modLaunch l f).bands = s.bands := rfl
@[simp] theorem State.modLaunch_cores (s : State) (l : Nat) (f : Launch → Launch) : (s.modLaunch l f).cores = s.cores := rfl
@[simp] theorem State.modLaunch_sites (s : State) (l : Nat) (f : Launch → Launch) : (s.modLaunch l f).sites = s.sites := rfl
@[simp] theorem State.modLaunch_ops (s : State) (l : Nat) (f : Launch → Launch) : (s.modLaunch l f).ops = s.ops := rfl
@[simp] theorem State.modLaunch_reqs (s : State) (l : Nat) (f : Launch → Launch) : (s.modLaunch l f).reqs = s.reqs := rfl
@[simp] theorem State.modLaunch_rels (s : State) (l : Nat) (f : Launch → Launch) : (s.modLaunch l f).rels = s.rels := rfl
@[simp] theorem State.modLaunch_mops (s : State) (l : Nat) (f : Launch → Launch) : (s.modLaunch l f).mops = s.mops := rfl
@[simp] theorem State.modLaunch_jobs (s : State) (l : Nat) (f : Launch → Launch) : (s.modLaunch l f).jobs = s.jobs := rfl
@[simp] theorem State.modLaunch_queues (s : State) (l : Nat) (f : Launch → Launch) : (s.modLaunch l f).queues = s.queues := rfl
@[simp] theorem State.modLaunch_ctxs (s : State) (l : Nat) (f : Launch → Launch) : (s.modLaunch l f).ctxs = s.ctxs := rfl
@[simp] theorem State.modLaunch_bales (s : State) (l : Nat) (f : Launch → Launch) : (s.modLaunch l f).bales = s.bales := rfl
@[simp] theorem State.modLaunch_pages (s : State) (l : Nat) (f : Launch → Launch) : (s.modLaunch l f).pages = s.pages := rfl
@[simp] theorem State.modLaunch_pageCache (s : State) (l : Nat) (f : Launch → Launch) : (s.modLaunch l f).pageCache = s.pageCache := rfl
@[simp] theorem State.modLaunch_allocs (s : State) (l : Nat) (f : Launch → Launch) : (s.modLaunch l f).allocs = s.allocs := rfl
@[simp] theorem State.modLaunch_tslots (s : State) (l : Nat) (f : Launch → Launch) : (s.modLaunch l f).tslots = s.tslots := rfl
@[simp] theorem State.modLaunch_notes (s : State) (l : Nat) (f : Launch → Launch) : (s.modLaunch l f).notes = s.notes := rfl
@[simp] theorem State.modLaunch_dir (s : State) (l : Nat) (f : Launch → Launch) : (s.modLaunch l f).dir = s.dir := rfl
@[simp] theorem State.modLaunch_txns (s : State) (l : Nat) (f : Launch → Launch) : (s.modLaunch l f).txns = s.txns := rfl
@[simp] theorem State.modLaunch_waybills (s : State) (l : Nat) (f : Launch → Launch) : (s.modLaunch l f).waybills = s.waybills := rfl
@[simp] theorem State.modLaunch_groups (s : State) (l : Nat) (f : Launch → Launch) : (s.modLaunch l f).groups = s.groups := rfl
@[simp] theorem State.modLaunch_extents (s : State) (l : Nat) (f : Launch → Launch) : (s.modLaunch l f).extents = s.extents := rfl
@[simp] theorem State.modLaunch_links (s : State) (l : Nat) (f : Launch → Launch) : (s.modLaunch l f).links = s.links := rfl
@[simp] theorem State.modLaunch_gran (s : State) (l : Nat) (f : Launch → Launch) : (s.modLaunch l f).gran = s.gran := rfl
@[simp] theorem State.modLaunch_host (s : State) (l : Nat) (f : Launch → Launch) : (s.modLaunch l f).host = s.host := rfl
@[simp] theorem State.modLaunch_lineFault (s : State) (l : Nat) (f : Launch → Launch) : (s.modLaunch l f).lineFault = s.lineFault := rfl
@[simp] theorem State.modLaunch_forfeit (s : State) (l : Nat) (f : Launch → Launch) : (s.modLaunch l f).forfeit = s.forfeit := rfl
@[simp] theorem State.modLaunch_forfeitSeq (s : State) (l : Nat) (f : Launch → Launch) : (s.modLaunch l f).forfeitSeq = s.forfeitSeq := rfl
@[simp] theorem State.modLaunch_errlog (s : State) (l : Nat) (f : Launch → Launch) : (s.modLaunch l f).errlog = s.errlog := rfl
@[simp] theorem State.modLaunch_aperture (s : State) (l : Nat) (f : Launch → Launch) : (s.modLaunch l f).aperture = s.aperture := rfl
@[simp] theorem State.modLaunch_bar2 (s : State) (l : Nat) (f : Launch → Launch) : (s.modLaunch l f).bar2 = s.bar2 := rfl
@[simp] theorem State.modLaunch_polls (s : State) (l : Nat) (f : Launch → Launch) : (s.modLaunch l f).polls = s.polls := rfl
@[simp] theorem State.modLaunch_replies (s : State) (l : Nat) (f : Launch → Launch) : (s.modLaunch l f).replies = s.replies := rfl
@[simp] theorem State.modLaunch_mgmtBusy (s : State) (l : Nat) (f : Launch → Launch) : (s.modLaunch l f).mgmtBusy = s.mgmtBusy := rfl
@[simp] theorem State.modLaunch_stage (s : State) (l : Nat) (f : Launch → Launch) : (s.modLaunch l f).stage = s.stage := rfl
@[simp] theorem State.modLaunch_fail (s : State) (l : Nat) (f : Launch → Launch) : (s.modLaunch l f).fail = s.fail := rfl
@[simp] theorem State.modLaunch_smode (s : State) (l : Nat) (f : Launch → Launch) : (s.modLaunch l f).smode = s.smode := rfl
@[simp] theorem State.modLaunch_alarm (s : State) (l : Nat) (f : Launch → Launch) : (s.modLaunch l f).alarm = s.alarm := rfl
@[simp] theorem State.modLaunch_stepping (s : State) (l : Nat) (f : Launch → Launch) : (s.modLaunch l f).stepping = s.stepping := rfl
@[simp] theorem State.modLaunch_dev (s : State) (l : Nat) (f : Launch → Launch) : (s.modLaunch l f).dev = s.dev := rfl
@[simp] theorem State.modLaunch_podN (s : State) (l : Nat) (f : Launch → Launch) : (s.modLaunch l f).podN = s.podN := rfl
@[simp] theorem State.modLaunch_clk (s : State) (l : Nat) (f : Launch → Launch) : (s.modLaunch l f).clk = s.clk := rfl
@[simp] theorem State.modLaunch_agenda (s : State) (l : Nat) (f : Launch → Launch) : (s.modLaunch l f).agenda = s.agenda := rfl
@[simp] theorem State.modLaunch_nchoice (s : State) (l : Nat) (f : Launch → Launch) : (s.modLaunch l f).nchoice = s.nchoice := rfl
@[simp] theorem State.modLaunch_nfree (s : State) (l : Nat) (f : Launch → Launch) : (s.modLaunch l f).nfree = s.nfree := rfl
@[simp] theorem State.modLaunch_nextId (s : State) (l : Nat) (f : Launch → Launch) : (s.modLaunch l f).nextId = s.nextId := rfl
@[simp] theorem State.modLaunch_nseq (s : State) (l : Nat) (f : Launch → Launch) : (s.modLaunch l f).nseq = s.nseq := rfl

@[simp] theorem State.modQueue_strs (s : State) (q : Nat) (f : Queue → Queue) : (s.modQueue q f).strs = s.strs := by unfold State.modQueue; split <;> rfl
@[simp] theorem State.modQueue_bun (s : State) (q : Nat) (f : Queue → Queue) : (s.modQueue q f).bun = s.bun := by unfold State.modQueue; split <;> rfl
@[simp] theorem State.modQueue_bands (s : State) (q : Nat) (f : Queue → Queue) : (s.modQueue q f).bands = s.bands := by unfold State.modQueue; split <;> rfl
@[simp] theorem State.modQueue_cores (s : State) (q : Nat) (f : Queue → Queue) : (s.modQueue q f).cores = s.cores := by unfold State.modQueue; split <;> rfl
@[simp] theorem State.modQueue_sites (s : State) (q : Nat) (f : Queue → Queue) : (s.modQueue q f).sites = s.sites := by unfold State.modQueue; split <;> rfl
@[simp] theorem State.modQueue_ops (s : State) (q : Nat) (f : Queue → Queue) : (s.modQueue q f).ops = s.ops := by unfold State.modQueue; split <;> rfl
@[simp] theorem State.modQueue_reqs (s : State) (q : Nat) (f : Queue → Queue) : (s.modQueue q f).reqs = s.reqs := by unfold State.modQueue; split <;> rfl
@[simp] theorem State.modQueue_rels (s : State) (q : Nat) (f : Queue → Queue) : (s.modQueue q f).rels = s.rels := by unfold State.modQueue; split <;> rfl
@[simp] theorem State.modQueue_mops (s : State) (q : Nat) (f : Queue → Queue) : (s.modQueue q f).mops = s.mops := by unfold State.modQueue; split <;> rfl
@[simp] theorem State.modQueue_jobs (s : State) (q : Nat) (f : Queue → Queue) : (s.modQueue q f).jobs = s.jobs := by unfold State.modQueue; split <;> rfl
@[simp] theorem State.modQueue_launches (s : State) (q : Nat) (f : Queue → Queue) : (s.modQueue q f).launches = s.launches := by unfold State.modQueue; split <;> rfl
@[simp] theorem State.modQueue_ctxs (s : State) (q : Nat) (f : Queue → Queue) : (s.modQueue q f).ctxs = s.ctxs := by unfold State.modQueue; split <;> rfl
@[simp] theorem State.modQueue_bales (s : State) (q : Nat) (f : Queue → Queue) : (s.modQueue q f).bales = s.bales := by unfold State.modQueue; split <;> rfl
@[simp] theorem State.modQueue_pages (s : State) (q : Nat) (f : Queue → Queue) : (s.modQueue q f).pages = s.pages := by unfold State.modQueue; split <;> rfl
@[simp] theorem State.modQueue_pageCache (s : State) (q : Nat) (f : Queue → Queue) : (s.modQueue q f).pageCache = s.pageCache := by unfold State.modQueue; split <;> rfl
@[simp] theorem State.modQueue_allocs (s : State) (q : Nat) (f : Queue → Queue) : (s.modQueue q f).allocs = s.allocs := by unfold State.modQueue; split <;> rfl
@[simp] theorem State.modQueue_tslots (s : State) (q : Nat) (f : Queue → Queue) : (s.modQueue q f).tslots = s.tslots := by unfold State.modQueue; split <;> rfl
@[simp] theorem State.modQueue_notes (s : State) (q : Nat) (f : Queue → Queue) : (s.modQueue q f).notes = s.notes := by unfold State.modQueue; split <;> rfl
@[simp] theorem State.modQueue_dir (s : State) (q : Nat) (f : Queue → Queue) : (s.modQueue q f).dir = s.dir := by unfold State.modQueue; split <;> rfl
@[simp] theorem State.modQueue_txns (s : State) (q : Nat) (f : Queue → Queue) : (s.modQueue q f).txns = s.txns := by unfold State.modQueue; split <;> rfl
@[simp] theorem State.modQueue_waybills (s : State) (q : Nat) (f : Queue → Queue) : (s.modQueue q f).waybills = s.waybills := by unfold State.modQueue; split <;> rfl
@[simp] theorem State.modQueue_groups (s : State) (q : Nat) (f : Queue → Queue) : (s.modQueue q f).groups = s.groups := by unfold State.modQueue; split <;> rfl
@[simp] theorem State.modQueue_extents (s : State) (q : Nat) (f : Queue → Queue) : (s.modQueue q f).extents = s.extents := by unfold State.modQueue; split <;> rfl
@[simp] theorem State.modQueue_links (s : State) (q : Nat) (f : Queue → Queue) : (s.modQueue q f).links = s.links := by unfold State.modQueue; split <;> rfl
@[simp] theorem State.modQueue_gran (s : State) (q : Nat) (f : Queue → Queue) : (s.modQueue q f).gran = s.gran := by unfold State.modQueue; split <;> rfl
@[simp] theorem State.modQueue_host (s : State) (q : Nat) (f : Queue → Queue) : (s.modQueue q f).host = s.host := by unfold State.modQueue; split <;> rfl
@[simp] theorem State.modQueue_lineFault (s : State) (q : Nat) (f : Queue → Queue) : (s.modQueue q f).lineFault = s.lineFault := by unfold State.modQueue; split <;> rfl
@[simp] theorem State.modQueue_forfeit (s : State) (q : Nat) (f : Queue → Queue) : (s.modQueue q f).forfeit = s.forfeit := by unfold State.modQueue; split <;> rfl
@[simp] theorem State.modQueue_forfeitSeq (s : State) (q : Nat) (f : Queue → Queue) : (s.modQueue q f).forfeitSeq = s.forfeitSeq := by unfold State.modQueue; split <;> rfl
@[simp] theorem State.modQueue_errlog (s : State) (q : Nat) (f : Queue → Queue) : (s.modQueue q f).errlog = s.errlog := by unfold State.modQueue; split <;> rfl
@[simp] theorem State.modQueue_aperture (s : State) (q : Nat) (f : Queue → Queue) : (s.modQueue q f).aperture = s.aperture := by unfold State.modQueue; split <;> rfl
@[simp] theorem State.modQueue_bar2 (s : State) (q : Nat) (f : Queue → Queue) : (s.modQueue q f).bar2 = s.bar2 := by unfold State.modQueue; split <;> rfl
@[simp] theorem State.modQueue_polls (s : State) (q : Nat) (f : Queue → Queue) : (s.modQueue q f).polls = s.polls := by unfold State.modQueue; split <;> rfl
@[simp] theorem State.modQueue_replies (s : State) (q : Nat) (f : Queue → Queue) : (s.modQueue q f).replies = s.replies := by unfold State.modQueue; split <;> rfl
@[simp] theorem State.modQueue_mgmtBusy (s : State) (q : Nat) (f : Queue → Queue) : (s.modQueue q f).mgmtBusy = s.mgmtBusy := by unfold State.modQueue; split <;> rfl
@[simp] theorem State.modQueue_stage (s : State) (q : Nat) (f : Queue → Queue) : (s.modQueue q f).stage = s.stage := by unfold State.modQueue; split <;> rfl
@[simp] theorem State.modQueue_fail (s : State) (q : Nat) (f : Queue → Queue) : (s.modQueue q f).fail = s.fail := by unfold State.modQueue; split <;> rfl
@[simp] theorem State.modQueue_smode (s : State) (q : Nat) (f : Queue → Queue) : (s.modQueue q f).smode = s.smode := by unfold State.modQueue; split <;> rfl
@[simp] theorem State.modQueue_alarm (s : State) (q : Nat) (f : Queue → Queue) : (s.modQueue q f).alarm = s.alarm := by unfold State.modQueue; split <;> rfl
@[simp] theorem State.modQueue_stepping (s : State) (q : Nat) (f : Queue → Queue) : (s.modQueue q f).stepping = s.stepping := by unfold State.modQueue; split <;> rfl
@[simp] theorem State.modQueue_dev (s : State) (q : Nat) (f : Queue → Queue) : (s.modQueue q f).dev = s.dev := by unfold State.modQueue; split <;> rfl
@[simp] theorem State.modQueue_podN (s : State) (q : Nat) (f : Queue → Queue) : (s.modQueue q f).podN = s.podN := by unfold State.modQueue; split <;> rfl
@[simp] theorem State.modQueue_clk (s : State) (q : Nat) (f : Queue → Queue) : (s.modQueue q f).clk = s.clk := by unfold State.modQueue; split <;> rfl
@[simp] theorem State.modQueue_agenda (s : State) (q : Nat) (f : Queue → Queue) : (s.modQueue q f).agenda = s.agenda := by unfold State.modQueue; split <;> rfl
@[simp] theorem State.modQueue_nchoice (s : State) (q : Nat) (f : Queue → Queue) : (s.modQueue q f).nchoice = s.nchoice := by unfold State.modQueue; split <;> rfl
@[simp] theorem State.modQueue_nfree (s : State) (q : Nat) (f : Queue → Queue) : (s.modQueue q f).nfree = s.nfree := by unfold State.modQueue; split <;> rfl
@[simp] theorem State.modQueue_nextId (s : State) (q : Nat) (f : Queue → Queue) : (s.modQueue q f).nextId = s.nextId := by unfold State.modQueue; split <;> rfl
@[simp] theorem State.modQueue_nseq (s : State) (q : Nat) (f : Queue → Queue) : (s.modQueue q f).nseq = s.nseq := by unfold State.modQueue; split <;> rfl

@[simp] theorem State.modOp_strs (s : State) (o : Nat) (f : Op → Op) : (s.modOp o f).strs = s.strs := rfl
@[simp] theorem State.modOp_bun (s : State) (o : Nat) (f : Op → Op) : (s.modOp o f).bun = s.bun := rfl
@[simp] theorem State.modOp_bands (s : State) (o : Nat) (f : Op → Op) : (s.modOp o f).bands = s.bands := rfl
@[simp] theorem State.modOp_cores (s : State) (o : Nat) (f : Op → Op) : (s.modOp o f).cores = s.cores := rfl
@[simp] theorem State.modOp_sites (s : State) (o : Nat) (f : Op → Op) : (s.modOp o f).sites = s.sites := rfl
@[simp] theorem State.modOp_reqs (s : State) (o : Nat) (f : Op → Op) : (s.modOp o f).reqs = s.reqs := rfl
@[simp] theorem State.modOp_rels (s : State) (o : Nat) (f : Op → Op) : (s.modOp o f).rels = s.rels := rfl
@[simp] theorem State.modOp_mops (s : State) (o : Nat) (f : Op → Op) : (s.modOp o f).mops = s.mops := rfl
@[simp] theorem State.modOp_jobs (s : State) (o : Nat) (f : Op → Op) : (s.modOp o f).jobs = s.jobs := rfl
@[simp] theorem State.modOp_launches (s : State) (o : Nat) (f : Op → Op) : (s.modOp o f).launches = s.launches := rfl
@[simp] theorem State.modOp_queues (s : State) (o : Nat) (f : Op → Op) : (s.modOp o f).queues = s.queues := rfl
@[simp] theorem State.modOp_ctxs (s : State) (o : Nat) (f : Op → Op) : (s.modOp o f).ctxs = s.ctxs := rfl
@[simp] theorem State.modOp_bales (s : State) (o : Nat) (f : Op → Op) : (s.modOp o f).bales = s.bales := rfl
@[simp] theorem State.modOp_pages (s : State) (o : Nat) (f : Op → Op) : (s.modOp o f).pages = s.pages := rfl
@[simp] theorem State.modOp_pageCache (s : State) (o : Nat) (f : Op → Op) : (s.modOp o f).pageCache = s.pageCache := rfl
@[simp] theorem State.modOp_allocs (s : State) (o : Nat) (f : Op → Op) : (s.modOp o f).allocs = s.allocs := rfl
@[simp] theorem State.modOp_tslots (s : State) (o : Nat) (f : Op → Op) : (s.modOp o f).tslots = s.tslots := rfl
@[simp] theorem State.modOp_notes (s : State) (o : Nat) (f : Op → Op) : (s.modOp o f).notes = s.notes := rfl
@[simp] theorem State.modOp_dir (s : State) (o : Nat) (f : Op → Op) : (s.modOp o f).dir = s.dir := rfl
@[simp] theorem State.modOp_txns (s : State) (o : Nat) (f : Op → Op) : (s.modOp o f).txns = s.txns := rfl
@[simp] theorem State.modOp_waybills (s : State) (o : Nat) (f : Op → Op) : (s.modOp o f).waybills = s.waybills := rfl
@[simp] theorem State.modOp_groups (s : State) (o : Nat) (f : Op → Op) : (s.modOp o f).groups = s.groups := rfl
@[simp] theorem State.modOp_extents (s : State) (o : Nat) (f : Op → Op) : (s.modOp o f).extents = s.extents := rfl
@[simp] theorem State.modOp_links (s : State) (o : Nat) (f : Op → Op) : (s.modOp o f).links = s.links := rfl
@[simp] theorem State.modOp_gran (s : State) (o : Nat) (f : Op → Op) : (s.modOp o f).gran = s.gran := rfl
@[simp] theorem State.modOp_host (s : State) (o : Nat) (f : Op → Op) : (s.modOp o f).host = s.host := rfl
@[simp] theorem State.modOp_lineFault (s : State) (o : Nat) (f : Op → Op) : (s.modOp o f).lineFault = s.lineFault := rfl
@[simp] theorem State.modOp_forfeit (s : State) (o : Nat) (f : Op → Op) : (s.modOp o f).forfeit = s.forfeit := rfl
@[simp] theorem State.modOp_forfeitSeq (s : State) (o : Nat) (f : Op → Op) : (s.modOp o f).forfeitSeq = s.forfeitSeq := rfl
@[simp] theorem State.modOp_errlog (s : State) (o : Nat) (f : Op → Op) : (s.modOp o f).errlog = s.errlog := rfl
@[simp] theorem State.modOp_aperture (s : State) (o : Nat) (f : Op → Op) : (s.modOp o f).aperture = s.aperture := rfl
@[simp] theorem State.modOp_bar2 (s : State) (o : Nat) (f : Op → Op) : (s.modOp o f).bar2 = s.bar2 := rfl
@[simp] theorem State.modOp_polls (s : State) (o : Nat) (f : Op → Op) : (s.modOp o f).polls = s.polls := rfl
@[simp] theorem State.modOp_replies (s : State) (o : Nat) (f : Op → Op) : (s.modOp o f).replies = s.replies := rfl
@[simp] theorem State.modOp_mgmtBusy (s : State) (o : Nat) (f : Op → Op) : (s.modOp o f).mgmtBusy = s.mgmtBusy := rfl
@[simp] theorem State.modOp_stage (s : State) (o : Nat) (f : Op → Op) : (s.modOp o f).stage = s.stage := rfl
@[simp] theorem State.modOp_fail (s : State) (o : Nat) (f : Op → Op) : (s.modOp o f).fail = s.fail := rfl
@[simp] theorem State.modOp_smode (s : State) (o : Nat) (f : Op → Op) : (s.modOp o f).smode = s.smode := rfl
@[simp] theorem State.modOp_alarm (s : State) (o : Nat) (f : Op → Op) : (s.modOp o f).alarm = s.alarm := rfl
@[simp] theorem State.modOp_stepping (s : State) (o : Nat) (f : Op → Op) : (s.modOp o f).stepping = s.stepping := rfl
@[simp] theorem State.modOp_dev (s : State) (o : Nat) (f : Op → Op) : (s.modOp o f).dev = s.dev := rfl
@[simp] theorem State.modOp_podN (s : State) (o : Nat) (f : Op → Op) : (s.modOp o f).podN = s.podN := rfl
@[simp] theorem State.modOp_clk (s : State) (o : Nat) (f : Op → Op) : (s.modOp o f).clk = s.clk := rfl
@[simp] theorem State.modOp_agenda (s : State) (o : Nat) (f : Op → Op) : (s.modOp o f).agenda = s.agenda := rfl
@[simp] theorem State.modOp_nchoice (s : State) (o : Nat) (f : Op → Op) : (s.modOp o f).nchoice = s.nchoice := rfl
@[simp] theorem State.modOp_nfree (s : State) (o : Nat) (f : Op → Op) : (s.modOp o f).nfree = s.nfree := rfl
@[simp] theorem State.modOp_nextId (s : State) (o : Nat) (f : Op → Op) : (s.modOp o f).nextId = s.nextId := rfl
@[simp] theorem State.modOp_nseq (s : State) (o : Nat) (f : Op → Op) : (s.modOp o f).nseq = s.nseq := rfl

@[simp] theorem State.dropOp_strs (s : State) (o : Nat) : (s.dropOp o).strs = s.strs := rfl
@[simp] theorem State.dropOp_bun (s : State) (o : Nat) : (s.dropOp o).bun = s.bun := rfl
@[simp] theorem State.dropOp_bands (s : State) (o : Nat) : (s.dropOp o).bands = s.bands := rfl
@[simp] theorem State.dropOp_cores (s : State) (o : Nat) : (s.dropOp o).cores = s.cores := rfl
@[simp] theorem State.dropOp_sites (s : State) (o : Nat) : (s.dropOp o).sites = s.sites := rfl
@[simp] theorem State.dropOp_reqs (s : State) (o : Nat) : (s.dropOp o).reqs = s.reqs := rfl
@[simp] theorem State.dropOp_rels (s : State) (o : Nat) : (s.dropOp o).rels = s.rels := rfl
@[simp] theorem State.dropOp_mops (s : State) (o : Nat) : (s.dropOp o).mops = s.mops := rfl
@[simp] theorem State.dropOp_jobs (s : State) (o : Nat) : (s.dropOp o).jobs = s.jobs := rfl
@[simp] theorem State.dropOp_launches (s : State) (o : Nat) : (s.dropOp o).launches = s.launches := rfl
@[simp] theorem State.dropOp_queues (s : State) (o : Nat) : (s.dropOp o).queues = s.queues := rfl
@[simp] theorem State.dropOp_ctxs (s : State) (o : Nat) : (s.dropOp o).ctxs = s.ctxs := rfl
@[simp] theorem State.dropOp_bales (s : State) (o : Nat) : (s.dropOp o).bales = s.bales := rfl
@[simp] theorem State.dropOp_pages (s : State) (o : Nat) : (s.dropOp o).pages = s.pages := rfl
@[simp] theorem State.dropOp_pageCache (s : State) (o : Nat) : (s.dropOp o).pageCache = s.pageCache := rfl
@[simp] theorem State.dropOp_allocs (s : State) (o : Nat) : (s.dropOp o).allocs = s.allocs := rfl
@[simp] theorem State.dropOp_tslots (s : State) (o : Nat) : (s.dropOp o).tslots = s.tslots := rfl
@[simp] theorem State.dropOp_notes (s : State) (o : Nat) : (s.dropOp o).notes = s.notes := rfl
@[simp] theorem State.dropOp_dir (s : State) (o : Nat) : (s.dropOp o).dir = s.dir := rfl
@[simp] theorem State.dropOp_txns (s : State) (o : Nat) : (s.dropOp o).txns = s.txns := rfl
@[simp] theorem State.dropOp_waybills (s : State) (o : Nat) : (s.dropOp o).waybills = s.waybills := rfl
@[simp] theorem State.dropOp_groups (s : State) (o : Nat) : (s.dropOp o).groups = s.groups := rfl
@[simp] theorem State.dropOp_extents (s : State) (o : Nat) : (s.dropOp o).extents = s.extents := rfl
@[simp] theorem State.dropOp_links (s : State) (o : Nat) : (s.dropOp o).links = s.links := rfl
@[simp] theorem State.dropOp_gran (s : State) (o : Nat) : (s.dropOp o).gran = s.gran := rfl
@[simp] theorem State.dropOp_host (s : State) (o : Nat) : (s.dropOp o).host = s.host := rfl
@[simp] theorem State.dropOp_lineFault (s : State) (o : Nat) : (s.dropOp o).lineFault = s.lineFault := rfl
@[simp] theorem State.dropOp_forfeit (s : State) (o : Nat) : (s.dropOp o).forfeit = s.forfeit := rfl
@[simp] theorem State.dropOp_forfeitSeq (s : State) (o : Nat) : (s.dropOp o).forfeitSeq = s.forfeitSeq := rfl
@[simp] theorem State.dropOp_errlog (s : State) (o : Nat) : (s.dropOp o).errlog = s.errlog := rfl
@[simp] theorem State.dropOp_aperture (s : State) (o : Nat) : (s.dropOp o).aperture = s.aperture := rfl
@[simp] theorem State.dropOp_bar2 (s : State) (o : Nat) : (s.dropOp o).bar2 = s.bar2 := rfl
@[simp] theorem State.dropOp_polls (s : State) (o : Nat) : (s.dropOp o).polls = s.polls := rfl
@[simp] theorem State.dropOp_replies (s : State) (o : Nat) : (s.dropOp o).replies = s.replies := rfl
@[simp] theorem State.dropOp_mgmtBusy (s : State) (o : Nat) : (s.dropOp o).mgmtBusy = s.mgmtBusy := rfl
@[simp] theorem State.dropOp_stage (s : State) (o : Nat) : (s.dropOp o).stage = s.stage := rfl
@[simp] theorem State.dropOp_fail (s : State) (o : Nat) : (s.dropOp o).fail = s.fail := rfl
@[simp] theorem State.dropOp_smode (s : State) (o : Nat) : (s.dropOp o).smode = s.smode := rfl
@[simp] theorem State.dropOp_alarm (s : State) (o : Nat) : (s.dropOp o).alarm = s.alarm := rfl
@[simp] theorem State.dropOp_stepping (s : State) (o : Nat) : (s.dropOp o).stepping = s.stepping := rfl
@[simp] theorem State.dropOp_dev (s : State) (o : Nat) : (s.dropOp o).dev = s.dev := rfl
@[simp] theorem State.dropOp_podN (s : State) (o : Nat) : (s.dropOp o).podN = s.podN := rfl
@[simp] theorem State.dropOp_clk (s : State) (o : Nat) : (s.dropOp o).clk = s.clk := rfl
@[simp] theorem State.dropOp_agenda (s : State) (o : Nat) : (s.dropOp o).agenda = s.agenda := rfl
@[simp] theorem State.dropOp_nchoice (s : State) (o : Nat) : (s.dropOp o).nchoice = s.nchoice := rfl
@[simp] theorem State.dropOp_nfree (s : State) (o : Nat) : (s.dropOp o).nfree = s.nfree := rfl
@[simp] theorem State.dropOp_nextId (s : State) (o : Nat) : (s.dropOp o).nextId = s.nextId := rfl
@[simp] theorem State.dropOp_nseq (s : State) (o : Nat) : (s.dropOp o).nseq = s.nseq := rfl

@[simp] theorem State.modReq_strs (s : State) (r : Nat) (f : Req → Req) : (s.modReq r f).strs = s.strs := rfl
@[simp] theorem State.modReq_bun (s : State) (r : Nat) (f : Req → Req) : (s.modReq r f).bun = s.bun := rfl
@[simp] theorem State.modReq_bands (s : State) (r : Nat) (f : Req → Req) : (s.modReq r f).bands = s.bands := rfl
@[simp] theorem State.modReq_cores (s : State) (r : Nat) (f : Req → Req) : (s.modReq r f).cores = s.cores := rfl
@[simp] theorem State.modReq_sites (s : State) (r : Nat) (f : Req → Req) : (s.modReq r f).sites = s.sites := rfl
@[simp] theorem State.modReq_ops (s : State) (r : Nat) (f : Req → Req) : (s.modReq r f).ops = s.ops := rfl
@[simp] theorem State.modReq_rels (s : State) (r : Nat) (f : Req → Req) : (s.modReq r f).rels = s.rels := rfl
@[simp] theorem State.modReq_mops (s : State) (r : Nat) (f : Req → Req) : (s.modReq r f).mops = s.mops := rfl
@[simp] theorem State.modReq_jobs (s : State) (r : Nat) (f : Req → Req) : (s.modReq r f).jobs = s.jobs := rfl
@[simp] theorem State.modReq_launches (s : State) (r : Nat) (f : Req → Req) : (s.modReq r f).launches = s.launches := rfl
@[simp] theorem State.modReq_queues (s : State) (r : Nat) (f : Req → Req) : (s.modReq r f).queues = s.queues := rfl
@[simp] theorem State.modReq_ctxs (s : State) (r : Nat) (f : Req → Req) : (s.modReq r f).ctxs = s.ctxs := rfl
@[simp] theorem State.modReq_bales (s : State) (r : Nat) (f : Req → Req) : (s.modReq r f).bales = s.bales := rfl
@[simp] theorem State.modReq_pages (s : State) (r : Nat) (f : Req → Req) : (s.modReq r f).pages = s.pages := rfl
@[simp] theorem State.modReq_pageCache (s : State) (r : Nat) (f : Req → Req) : (s.modReq r f).pageCache = s.pageCache := rfl
@[simp] theorem State.modReq_allocs (s : State) (r : Nat) (f : Req → Req) : (s.modReq r f).allocs = s.allocs := rfl
@[simp] theorem State.modReq_tslots (s : State) (r : Nat) (f : Req → Req) : (s.modReq r f).tslots = s.tslots := rfl
@[simp] theorem State.modReq_notes (s : State) (r : Nat) (f : Req → Req) : (s.modReq r f).notes = s.notes := rfl
@[simp] theorem State.modReq_dir (s : State) (r : Nat) (f : Req → Req) : (s.modReq r f).dir = s.dir := rfl
@[simp] theorem State.modReq_txns (s : State) (r : Nat) (f : Req → Req) : (s.modReq r f).txns = s.txns := rfl
@[simp] theorem State.modReq_waybills (s : State) (r : Nat) (f : Req → Req) : (s.modReq r f).waybills = s.waybills := rfl
@[simp] theorem State.modReq_groups (s : State) (r : Nat) (f : Req → Req) : (s.modReq r f).groups = s.groups := rfl
@[simp] theorem State.modReq_extents (s : State) (r : Nat) (f : Req → Req) : (s.modReq r f).extents = s.extents := rfl
@[simp] theorem State.modReq_links (s : State) (r : Nat) (f : Req → Req) : (s.modReq r f).links = s.links := rfl
@[simp] theorem State.modReq_gran (s : State) (r : Nat) (f : Req → Req) : (s.modReq r f).gran = s.gran := rfl
@[simp] theorem State.modReq_host (s : State) (r : Nat) (f : Req → Req) : (s.modReq r f).host = s.host := rfl
@[simp] theorem State.modReq_lineFault (s : State) (r : Nat) (f : Req → Req) : (s.modReq r f).lineFault = s.lineFault := rfl
@[simp] theorem State.modReq_forfeit (s : State) (r : Nat) (f : Req → Req) : (s.modReq r f).forfeit = s.forfeit := rfl
@[simp] theorem State.modReq_forfeitSeq (s : State) (r : Nat) (f : Req → Req) : (s.modReq r f).forfeitSeq = s.forfeitSeq := rfl
@[simp] theorem State.modReq_errlog (s : State) (r : Nat) (f : Req → Req) : (s.modReq r f).errlog = s.errlog := rfl
@[simp] theorem State.modReq_aperture (s : State) (r : Nat) (f : Req → Req) : (s.modReq r f).aperture = s.aperture := rfl
@[simp] theorem State.modReq_bar2 (s : State) (r : Nat) (f : Req → Req) : (s.modReq r f).bar2 = s.bar2 := rfl
@[simp] theorem State.modReq_polls (s : State) (r : Nat) (f : Req → Req) : (s.modReq r f).polls = s.polls := rfl
@[simp] theorem State.modReq_replies (s : State) (r : Nat) (f : Req → Req) : (s.modReq r f).replies = s.replies := rfl
@[simp] theorem State.modReq_mgmtBusy (s : State) (r : Nat) (f : Req → Req) : (s.modReq r f).mgmtBusy = s.mgmtBusy := rfl
@[simp] theorem State.modReq_stage (s : State) (r : Nat) (f : Req → Req) : (s.modReq r f).stage = s.stage := rfl
@[simp] theorem State.modReq_fail (s : State) (r : Nat) (f : Req → Req) : (s.modReq r f).fail = s.fail := rfl
@[simp] theorem State.modReq_smode (s : State) (r : Nat) (f : Req → Req) : (s.modReq r f).smode = s.smode := rfl
@[simp] theorem State.modReq_alarm (s : State) (r : Nat) (f : Req → Req) : (s.modReq r f).alarm = s.alarm := rfl
@[simp] theorem State.modReq_stepping (s : State) (r : Nat) (f : Req → Req) : (s.modReq r f).stepping = s.stepping := rfl
@[simp] theorem State.modReq_dev (s : State) (r : Nat) (f : Req → Req) : (s.modReq r f).dev = s.dev := rfl
@[simp] theorem State.modReq_podN (s : State) (r : Nat) (f : Req → Req) : (s.modReq r f).podN = s.podN := rfl
@[simp] theorem State.modReq_clk (s : State) (r : Nat) (f : Req → Req) : (s.modReq r f).clk = s.clk := rfl
@[simp] theorem State.modReq_agenda (s : State) (r : Nat) (f : Req → Req) : (s.modReq r f).agenda = s.agenda := rfl
@[simp] theorem State.modReq_nchoice (s : State) (r : Nat) (f : Req → Req) : (s.modReq r f).nchoice = s.nchoice := rfl
@[simp] theorem State.modReq_nfree (s : State) (r : Nat) (f : Req → Req) : (s.modReq r f).nfree = s.nfree := rfl
@[simp] theorem State.modReq_nextId (s : State) (r : Nat) (f : Req → Req) : (s.modReq r f).nextId = s.nextId := rfl
@[simp] theorem State.modReq_nseq (s : State) (r : Nat) (f : Req → Req) : (s.modReq r f).nseq = s.nseq := rfl

@[simp] theorem State.dropReq_strs (s : State) (r : Nat) : (s.dropReq r).strs = s.strs := rfl
@[simp] theorem State.dropReq_bun (s : State) (r : Nat) : (s.dropReq r).bun = s.bun := rfl
@[simp] theorem State.dropReq_bands (s : State) (r : Nat) : (s.dropReq r).bands = s.bands := rfl
@[simp] theorem State.dropReq_cores (s : State) (r : Nat) : (s.dropReq r).cores = s.cores := rfl
@[simp] theorem State.dropReq_sites (s : State) (r : Nat) : (s.dropReq r).sites = s.sites := rfl
@[simp] theorem State.dropReq_ops (s : State) (r : Nat) : (s.dropReq r).ops = s.ops := rfl
@[simp] theorem State.dropReq_rels (s : State) (r : Nat) : (s.dropReq r).rels = s.rels := rfl
@[simp] theorem State.dropReq_mops (s : State) (r : Nat) : (s.dropReq r).mops = s.mops := rfl
@[simp] theorem State.dropReq_jobs (s : State) (r : Nat) : (s.dropReq r).jobs = s.jobs := rfl
@[simp] theorem State.dropReq_launches (s : State) (r : Nat) : (s.dropReq r).launches = s.launches := rfl
@[simp] theorem State.dropReq_queues (s : State) (r : Nat) : (s.dropReq r).queues = s.queues := rfl
@[simp] theorem State.dropReq_ctxs (s : State) (r : Nat) : (s.dropReq r).ctxs = s.ctxs := rfl
@[simp] theorem State.dropReq_bales (s : State) (r : Nat) : (s.dropReq r).bales = s.bales := rfl
@[simp] theorem State.dropReq_pages (s : State) (r : Nat) : (s.dropReq r).pages = s.pages := rfl
@[simp] theorem State.dropReq_pageCache (s : State) (r : Nat) : (s.dropReq r).pageCache = s.pageCache := rfl
@[simp] theorem State.dropReq_allocs (s : State) (r : Nat) : (s.dropReq r).allocs = s.allocs := rfl
@[simp] theorem State.dropReq_tslots (s : State) (r : Nat) : (s.dropReq r).tslots = s.tslots := rfl
@[simp] theorem State.dropReq_notes (s : State) (r : Nat) : (s.dropReq r).notes = s.notes := rfl
@[simp] theorem State.dropReq_dir (s : State) (r : Nat) : (s.dropReq r).dir = s.dir := rfl
@[simp] theorem State.dropReq_txns (s : State) (r : Nat) : (s.dropReq r).txns = s.txns := rfl
@[simp] theorem State.dropReq_waybills (s : State) (r : Nat) : (s.dropReq r).waybills = s.waybills := rfl
@[simp] theorem State.dropReq_groups (s : State) (r : Nat) : (s.dropReq r).groups = s.groups := rfl
@[simp] theorem State.dropReq_extents (s : State) (r : Nat) : (s.dropReq r).extents = s.extents := rfl
@[simp] theorem State.dropReq_links (s : State) (r : Nat) : (s.dropReq r).links = s.links := rfl
@[simp] theorem State.dropReq_gran (s : State) (r : Nat) : (s.dropReq r).gran = s.gran := rfl
@[simp] theorem State.dropReq_host (s : State) (r : Nat) : (s.dropReq r).host = s.host := rfl
@[simp] theorem State.dropReq_lineFault (s : State) (r : Nat) : (s.dropReq r).lineFault = s.lineFault := rfl
@[simp] theorem State.dropReq_forfeit (s : State) (r : Nat) : (s.dropReq r).forfeit = s.forfeit := rfl
@[simp] theorem State.dropReq_forfeitSeq (s : State) (r : Nat) : (s.dropReq r).forfeitSeq = s.forfeitSeq := rfl
@[simp] theorem State.dropReq_errlog (s : State) (r : Nat) : (s.dropReq r).errlog = s.errlog := rfl
@[simp] theorem State.dropReq_aperture (s : State) (r : Nat) : (s.dropReq r).aperture = s.aperture := rfl
@[simp] theorem State.dropReq_bar2 (s : State) (r : Nat) : (s.dropReq r).bar2 = s.bar2 := rfl
@[simp] theorem State.dropReq_polls (s : State) (r : Nat) : (s.dropReq r).polls = s.polls := rfl
@[simp] theorem State.dropReq_replies (s : State) (r : Nat) : (s.dropReq r).replies = s.replies := rfl
@[simp] theorem State.dropReq_mgmtBusy (s : State) (r : Nat) : (s.dropReq r).mgmtBusy = s.mgmtBusy := rfl
@[simp] theorem State.dropReq_stage (s : State) (r : Nat) : (s.dropReq r).stage = s.stage := rfl
@[simp] theorem State.dropReq_fail (s : State) (r : Nat) : (s.dropReq r).fail = s.fail := rfl
@[simp] theorem State.dropReq_smode (s : State) (r : Nat) : (s.dropReq r).smode = s.smode := rfl
@[simp] theorem State.dropReq_alarm (s : State) (r : Nat) : (s.dropReq r).alarm = s.alarm := rfl
@[simp] theorem State.dropReq_stepping (s : State) (r : Nat) : (s.dropReq r).stepping = s.stepping := rfl
@[simp] theorem State.dropReq_dev (s : State) (r : Nat) : (s.dropReq r).dev = s.dev := rfl
@[simp] theorem State.dropReq_podN (s : State) (r : Nat) : (s.dropReq r).podN = s.podN := rfl
@[simp] theorem State.dropReq_clk (s : State) (r : Nat) : (s.dropReq r).clk = s.clk := rfl
@[simp] theorem State.dropReq_agenda (s : State) (r : Nat) : (s.dropReq r).agenda = s.agenda := rfl
@[simp] theorem State.dropReq_nchoice (s : State) (r : Nat) : (s.dropReq r).nchoice = s.nchoice := rfl
@[simp] theorem State.dropReq_nfree (s : State) (r : Nat) : (s.dropReq r).nfree = s.nfree := rfl
@[simp] theorem State.dropReq_nextId (s : State) (r : Nat) : (s.dropReq r).nextId = s.nextId := rfl
@[simp] theorem State.dropReq_nseq (s : State) (r : Nat) : (s.dropReq r).nseq = s.nseq := rfl

@[simp] theorem State.modJob_strs (s : State) (j : Nat) (f : Job → Job) : (s.modJob j f).strs = s.strs := rfl
@[simp] theorem State.modJob_bun (s : State) (j : Nat) (f : Job → Job) : (s.modJob j f).bun = s.bun := rfl
@[simp] theorem State.modJob_bands (s : State) (j : Nat) (f : Job → Job) : (s.modJob j f).bands = s.bands := rfl
@[simp] theorem State.modJob_cores (s : State) (j : Nat) (f : Job → Job) : (s.modJob j f).cores = s.cores := rfl
@[simp] theorem State.modJob_sites (s : State) (j : Nat) (f : Job → Job) : (s.modJob j f).sites = s.sites := rfl
@[simp] theorem State.modJob_ops (s : State) (j : Nat) (f : Job → Job) : (s.modJob j f).ops = s.ops := rfl
@[simp] theorem State.modJob_reqs (s : State) (j : Nat) (f : Job → Job) : (s.modJob j f).reqs = s.reqs := rfl
@[simp] theorem State.modJob_rels (s : State) (j : Nat) (f : Job → Job) : (s.modJob j f).rels = s.rels := rfl
@[simp] theorem State.modJob_mops (s : State) (j : Nat) (f : Job → Job) : (s.modJob j f).mops = s.mops := rfl
@[simp] theorem State.modJob_launches (s : State) (j : Nat) (f : Job → Job) : (s.modJob j f).launches = s.launches := rfl
@[simp] theorem State.modJob_queues (s : State) (j : Nat) (f : Job → Job) : (s.modJob j f).queues = s.queues := rfl
@[simp] theorem State.modJob_ctxs (s : State) (j : Nat) (f : Job → Job) : (s.modJob j f).ctxs = s.ctxs := rfl
@[simp] theorem State.modJob_bales (s : State) (j : Nat) (f : Job → Job) : (s.modJob j f).bales = s.bales := rfl
@[simp] theorem State.modJob_pages (s : State) (j : Nat) (f : Job → Job) : (s.modJob j f).pages = s.pages := rfl
@[simp] theorem State.modJob_pageCache (s : State) (j : Nat) (f : Job → Job) : (s.modJob j f).pageCache = s.pageCache := rfl
@[simp] theorem State.modJob_allocs (s : State) (j : Nat) (f : Job → Job) : (s.modJob j f).allocs = s.allocs := rfl
@[simp] theorem State.modJob_tslots (s : State) (j : Nat) (f : Job → Job) : (s.modJob j f).tslots = s.tslots := rfl
@[simp] theorem State.modJob_notes (s : State) (j : Nat) (f : Job → Job) : (s.modJob j f).notes = s.notes := rfl
@[simp] theorem State.modJob_dir (s : State) (j : Nat) (f : Job → Job) : (s.modJob j f).dir = s.dir := rfl
@[simp] theorem State.modJob_txns (s : State) (j : Nat) (f : Job → Job) : (s.modJob j f).txns = s.txns := rfl
@[simp] theorem State.modJob_waybills (s : State) (j : Nat) (f : Job → Job) : (s.modJob j f).waybills = s.waybills := rfl
@[simp] theorem State.modJob_groups (s : State) (j : Nat) (f : Job → Job) : (s.modJob j f).groups = s.groups := rfl
@[simp] theorem State.modJob_extents (s : State) (j : Nat) (f : Job → Job) : (s.modJob j f).extents = s.extents := rfl
@[simp] theorem State.modJob_links (s : State) (j : Nat) (f : Job → Job) : (s.modJob j f).links = s.links := rfl
@[simp] theorem State.modJob_gran (s : State) (j : Nat) (f : Job → Job) : (s.modJob j f).gran = s.gran := rfl
@[simp] theorem State.modJob_host (s : State) (j : Nat) (f : Job → Job) : (s.modJob j f).host = s.host := rfl
@[simp] theorem State.modJob_lineFault (s : State) (j : Nat) (f : Job → Job) : (s.modJob j f).lineFault = s.lineFault := rfl
@[simp] theorem State.modJob_forfeit (s : State) (j : Nat) (f : Job → Job) : (s.modJob j f).forfeit = s.forfeit := rfl
@[simp] theorem State.modJob_forfeitSeq (s : State) (j : Nat) (f : Job → Job) : (s.modJob j f).forfeitSeq = s.forfeitSeq := rfl
@[simp] theorem State.modJob_errlog (s : State) (j : Nat) (f : Job → Job) : (s.modJob j f).errlog = s.errlog := rfl
@[simp] theorem State.modJob_aperture (s : State) (j : Nat) (f : Job → Job) : (s.modJob j f).aperture = s.aperture := rfl
@[simp] theorem State.modJob_bar2 (s : State) (j : Nat) (f : Job → Job) : (s.modJob j f).bar2 = s.bar2 := rfl
@[simp] theorem State.modJob_polls (s : State) (j : Nat) (f : Job → Job) : (s.modJob j f).polls = s.polls := rfl
@[simp] theorem State.modJob_replies (s : State) (j : Nat) (f : Job → Job) : (s.modJob j f).replies = s.replies := rfl
@[simp] theorem State.modJob_mgmtBusy (s : State) (j : Nat) (f : Job → Job) : (s.modJob j f).mgmtBusy = s.mgmtBusy := rfl
@[simp] theorem State.modJob_stage (s : State) (j : Nat) (f : Job → Job) : (s.modJob j f).stage = s.stage := rfl
@[simp] theorem State.modJob_fail (s : State) (j : Nat) (f : Job → Job) : (s.modJob j f).fail = s.fail := rfl
@[simp] theorem State.modJob_smode (s : State) (j : Nat) (f : Job → Job) : (s.modJob j f).smode = s.smode := rfl
@[simp] theorem State.modJob_alarm (s : State) (j : Nat) (f : Job → Job) : (s.modJob j f).alarm = s.alarm := rfl
@[simp] theorem State.modJob_stepping (s : State) (j : Nat) (f : Job → Job) : (s.modJob j f).stepping = s.stepping := rfl
@[simp] theorem State.modJob_dev (s : State) (j : Nat) (f : Job → Job) : (s.modJob j f).dev = s.dev := rfl
@[simp] theorem State.modJob_podN (s : State) (j : Nat) (f : Job → Job) : (s.modJob j f).podN = s.podN := rfl
@[simp] theorem State.modJob_clk (s : State) (j : Nat) (f : Job → Job) : (s.modJob j f).clk = s.clk := rfl
@[simp] theorem State.modJob_agenda (s : State) (j : Nat) (f : Job → Job) : (s.modJob j f).agenda = s.agenda := rfl
@[simp] theorem State.modJob_nchoice (s : State) (j : Nat) (f : Job → Job) : (s.modJob j f).nchoice = s.nchoice := rfl
@[simp] theorem State.modJob_nfree (s : State) (j : Nat) (f : Job → Job) : (s.modJob j f).nfree = s.nfree := rfl
@[simp] theorem State.modJob_nextId (s : State) (j : Nat) (f : Job → Job) : (s.modJob j f).nextId = s.nextId := rfl
@[simp] theorem State.modJob_nseq (s : State) (j : Nat) (f : Job → Job) : (s.modJob j f).nseq = s.nseq := rfl

@[simp] theorem State.post_strs (s : State) (es : List Instr) : (s.post es).strs = s.strs := rfl
@[simp] theorem State.post_bun (s : State) (es : List Instr) : (s.post es).bun = s.bun := rfl
@[simp] theorem State.post_bands (s : State) (es : List Instr) : (s.post es).bands = s.bands := rfl
@[simp] theorem State.post_cores (s : State) (es : List Instr) : (s.post es).cores = s.cores := rfl
@[simp] theorem State.post_sites (s : State) (es : List Instr) : (s.post es).sites = s.sites := rfl
@[simp] theorem State.post_ops (s : State) (es : List Instr) : (s.post es).ops = s.ops := rfl
@[simp] theorem State.post_reqs (s : State) (es : List Instr) : (s.post es).reqs = s.reqs := rfl
@[simp] theorem State.post_rels (s : State) (es : List Instr) : (s.post es).rels = s.rels := rfl
@[simp] theorem State.post_mops (s : State) (es : List Instr) : (s.post es).mops = s.mops := rfl
@[simp] theorem State.post_jobs (s : State) (es : List Instr) : (s.post es).jobs = s.jobs := rfl
@[simp] theorem State.post_launches (s : State) (es : List Instr) : (s.post es).launches = s.launches := rfl
@[simp] theorem State.post_queues (s : State) (es : List Instr) : (s.post es).queues = s.queues := rfl
@[simp] theorem State.post_ctxs (s : State) (es : List Instr) : (s.post es).ctxs = s.ctxs := rfl
@[simp] theorem State.post_bales (s : State) (es : List Instr) : (s.post es).bales = s.bales := rfl
@[simp] theorem State.post_pages (s : State) (es : List Instr) : (s.post es).pages = s.pages := rfl
@[simp] theorem State.post_pageCache (s : State) (es : List Instr) : (s.post es).pageCache = s.pageCache := rfl
@[simp] theorem State.post_allocs (s : State) (es : List Instr) : (s.post es).allocs = s.allocs := rfl
@[simp] theorem State.post_tslots (s : State) (es : List Instr) : (s.post es).tslots = s.tslots := rfl
@[simp] theorem State.post_notes (s : State) (es : List Instr) : (s.post es).notes = s.notes := rfl
@[simp] theorem State.post_dir (s : State) (es : List Instr) : (s.post es).dir = s.dir := rfl
@[simp] theorem State.post_txns (s : State) (es : List Instr) : (s.post es).txns = s.txns := rfl
@[simp] theorem State.post_waybills (s : State) (es : List Instr) : (s.post es).waybills = s.waybills := rfl
@[simp] theorem State.post_groups (s : State) (es : List Instr) : (s.post es).groups = s.groups := rfl
@[simp] theorem State.post_extents (s : State) (es : List Instr) : (s.post es).extents = s.extents := rfl
@[simp] theorem State.post_links (s : State) (es : List Instr) : (s.post es).links = s.links := rfl
@[simp] theorem State.post_gran (s : State) (es : List Instr) : (s.post es).gran = s.gran := rfl
@[simp] theorem State.post_host (s : State) (es : List Instr) : (s.post es).host = s.host := rfl
@[simp] theorem State.post_lineFault (s : State) (es : List Instr) : (s.post es).lineFault = s.lineFault := rfl
@[simp] theorem State.post_forfeit (s : State) (es : List Instr) : (s.post es).forfeit = s.forfeit := rfl
@[simp] theorem State.post_forfeitSeq (s : State) (es : List Instr) : (s.post es).forfeitSeq = s.forfeitSeq := rfl
@[simp] theorem State.post_errlog (s : State) (es : List Instr) : (s.post es).errlog = s.errlog := rfl
@[simp] theorem State.post_aperture (s : State) (es : List Instr) : (s.post es).aperture = s.aperture := rfl
@[simp] theorem State.post_bar2 (s : State) (es : List Instr) : (s.post es).bar2 = s.bar2 := rfl
@[simp] theorem State.post_polls (s : State) (es : List Instr) : (s.post es).polls = s.polls := rfl
@[simp] theorem State.post_replies (s : State) (es : List Instr) : (s.post es).replies = s.replies := rfl
@[simp] theorem State.post_mgmtBusy (s : State) (es : List Instr) : (s.post es).mgmtBusy = s.mgmtBusy := rfl
@[simp] theorem State.post_stage (s : State) (es : List Instr) : (s.post es).stage = s.stage := rfl
@[simp] theorem State.post_fail (s : State) (es : List Instr) : (s.post es).fail = s.fail := rfl
@[simp] theorem State.post_smode (s : State) (es : List Instr) : (s.post es).smode = s.smode := rfl
@[simp] theorem State.post_alarm (s : State) (es : List Instr) : (s.post es).alarm = s.alarm := rfl
@[simp] theorem State.post_stepping (s : State) (es : List Instr) : (s.post es).stepping = s.stepping := rfl
@[simp] theorem State.post_dev (s : State) (es : List Instr) : (s.post es).dev = s.dev := rfl
@[simp] theorem State.post_podN (s : State) (es : List Instr) : (s.post es).podN = s.podN := rfl
@[simp] theorem State.post_clk (s : State) (es : List Instr) : (s.post es).clk = s.clk := rfl
@[simp] theorem State.post_nchoice (s : State) (es : List Instr) : (s.post es).nchoice = s.nchoice := rfl
@[simp] theorem State.post_nfree (s : State) (es : List Instr) : (s.post es).nfree = s.nfree := rfl
@[simp] theorem State.post_nextId (s : State) (es : List Instr) : (s.post es).nextId = s.nextId := rfl
@[simp] theorem State.post_nseq (s : State) (es : List Instr) : (s.post es).nseq = s.nseq := rfl

@[simp] theorem State.logErr_strs (s : State) (k x y : Nat) : (s.logErr k x y).strs = s.strs := rfl
@[simp] theorem State.logErr_bun (s : State) (k x y : Nat) : (s.logErr k x y).bun = s.bun := rfl
@[simp] theorem State.logErr_bands (s : State) (k x y : Nat) : (s.logErr k x y).bands = s.bands := rfl
@[simp] theorem State.logErr_cores (s : State) (k x y : Nat) : (s.logErr k x y).cores = s.cores := rfl
@[simp] theorem State.logErr_sites (s : State) (k x y : Nat) : (s.logErr k x y).sites = s.sites := rfl
@[simp] theorem State.logErr_ops (s : State) (k x y : Nat) : (s.logErr k x y).ops = s.ops := rfl
@[simp] theorem State.logErr_reqs (s : State) (k x y : Nat) : (s.logErr k x y).reqs = s.reqs := rfl
@[simp] theorem State.logErr_rels (s : State) (k x y : Nat) : (s.logErr k x y).rels = s.rels := rfl
@[simp] theorem State.logErr_mops (s : State) (k x y : Nat) : (s.logErr k x y).mops = s.mops := rfl
@[simp] theorem State.logErr_jobs (s : State) (k x y : Nat) : (s.logErr k x y).jobs = s.jobs := rfl
@[simp] theorem State.logErr_launches (s : State) (k x y : Nat) : (s.logErr k x y).launches = s.launches := rfl
@[simp] theorem State.logErr_queues (s : State) (k x y : Nat) : (s.logErr k x y).queues = s.queues := rfl
@[simp] theorem State.logErr_ctxs (s : State) (k x y : Nat) : (s.logErr k x y).ctxs = s.ctxs := rfl
@[simp] theorem State.logErr_bales (s : State) (k x y : Nat) : (s.logErr k x y).bales = s.bales := rfl
@[simp] theorem State.logErr_pages (s : State) (k x y : Nat) : (s.logErr k x y).pages = s.pages := rfl
@[simp] theorem State.logErr_pageCache (s : State) (k x y : Nat) : (s.logErr k x y).pageCache = s.pageCache := rfl
@[simp] theorem State.logErr_allocs (s : State) (k x y : Nat) : (s.logErr k x y).allocs = s.allocs := rfl
@[simp] theorem State.logErr_tslots (s : State) (k x y : Nat) : (s.logErr k x y).tslots = s.tslots := rfl
@[simp] theorem State.logErr_notes (s : State) (k x y : Nat) : (s.logErr k x y).notes = s.notes := rfl
@[simp] theorem State.logErr_dir (s : State) (k x y : Nat) : (s.logErr k x y).dir = s.dir := rfl
@[simp] theorem State.logErr_txns (s : State) (k x y : Nat) : (s.logErr k x y).txns = s.txns := rfl
@[simp] theorem State.logErr_waybills (s : State) (k x y : Nat) : (s.logErr k x y).waybills = s.waybills := rfl
@[simp] theorem State.logErr_groups (s : State) (k x y : Nat) : (s.logErr k x y).groups = s.groups := rfl
@[simp] theorem State.logErr_extents (s : State) (k x y : Nat) : (s.logErr k x y).extents = s.extents := rfl
@[simp] theorem State.logErr_links (s : State) (k x y : Nat) : (s.logErr k x y).links = s.links := rfl
@[simp] theorem State.logErr_gran (s : State) (k x y : Nat) : (s.logErr k x y).gran = s.gran := rfl
@[simp] theorem State.logErr_host (s : State) (k x y : Nat) : (s.logErr k x y).host = s.host := rfl
@[simp] theorem State.logErr_lineFault (s : State) (k x y : Nat) : (s.logErr k x y).lineFault = s.lineFault := rfl
@[simp] theorem State.logErr_forfeit (s : State) (k x y : Nat) : (s.logErr k x y).forfeit = s.forfeit := rfl
@[simp] theorem State.logErr_forfeitSeq (s : State) (k x y : Nat) : (s.logErr k x y).forfeitSeq = s.forfeitSeq := rfl
@[simp] theorem State.logErr_aperture (s : State) (k x y : Nat) : (s.logErr k x y).aperture = s.aperture := rfl
@[simp] theorem State.logErr_bar2 (s : State) (k x y : Nat) : (s.logErr k x y).bar2 = s.bar2 := rfl
@[simp] theorem State.logErr_polls (s : State) (k x y : Nat) : (s.logErr k x y).polls = s.polls := rfl
@[simp] theorem State.logErr_replies (s : State) (k x y : Nat) : (s.logErr k x y).replies = s.replies := rfl
@[simp] theorem State.logErr_mgmtBusy (s : State) (k x y : Nat) : (s.logErr k x y).mgmtBusy = s.mgmtBusy := rfl
@[simp] theorem State.logErr_stage (s : State) (k x y : Nat) : (s.logErr k x y).stage = s.stage := rfl
@[simp] theorem State.logErr_fail (s : State) (k x y : Nat) : (s.logErr k x y).fail = s.fail := rfl
@[simp] theorem State.logErr_smode (s : State) (k x y : Nat) : (s.logErr k x y).smode = s.smode := rfl
@[simp] theorem State.logErr_alarm (s : State) (k x y : Nat) : (s.logErr k x y).alarm = s.alarm := rfl
@[simp] theorem State.logErr_stepping (s : State) (k x y : Nat) : (s.logErr k x y).stepping = s.stepping := rfl
@[simp] theorem State.logErr_dev (s : State) (k x y : Nat) : (s.logErr k x y).dev = s.dev := rfl
@[simp] theorem State.logErr_podN (s : State) (k x y : Nat) : (s.logErr k x y).podN = s.podN := rfl
@[simp] theorem State.logErr_clk (s : State) (k x y : Nat) : (s.logErr k x y).clk = s.clk := rfl
@[simp] theorem State.logErr_agenda (s : State) (k x y : Nat) : (s.logErr k x y).agenda = s.agenda := rfl
@[simp] theorem State.logErr_nchoice (s : State) (k x y : Nat) : (s.logErr k x y).nchoice = s.nchoice := rfl
@[simp] theorem State.logErr_nfree (s : State) (k x y : Nat) : (s.logErr k x y).nfree = s.nfree := rfl
@[simp] theorem State.logErr_nextId (s : State) (k x y : Nat) : (s.logErr k x y).nextId = s.nextId := rfl
@[simp] theorem State.logErr_nseq (s : State) (k x y : Nat) : (s.logErr k x y).nseq = s.nseq := rfl

@[simp] theorem putV_band (t : Str) (r : Nat) (ls : List Nat) (f : Nat → Word32) : (putV t r ls f).band = t.band := rfl
@[simp] theorem putV_num (t : Str) (r : Nat) (ls : List Nat) (f : Nat → Word32) : (putV t r ls f).num = t.num := rfl
@[simp] theorem putV_lanes (t : Str) (r : Nat) (ls : List Nat) (f : Nat → Word32) : (putV t r ls f).lanes = t.lanes := rfl
@[simp] theorem putV_sr (t : Str) (r : Nat) (ls : List Nat) (f : Nat → Word32) : (putV t r ls f).sr = t.sr := rfl
@[simp] theorem putV_pr (t : Str) (r : Nat) (ls : List Nat) (f : Nat → Word32) : (putV t r ls f).pr = t.pr := rfl
@[simp] theorem putV_slotA (t : Str) (r : Nat) (ls : List Nat) (f : Nat → Word32) : (putV t r ls f).slotA = t.slotA := rfl
@[simp] theorem putV_slotB (t : Str) (r : Nat) (ls : List Nat) (f : Nat → Word32) : (putV t r ls f).slotB = t.slotB := rfl
@[simp] theorem putV_lastB (t : Str) (r : Nat) (ls : List Nat) (f : Nat → Word32) : (putV t r ls f).lastB = t.lastB := rfl
@[simp] theorem putV_stack (t : Str) (r : Nat) (ls : List Nat) (f : Nat → Word32) : (putV t r ls f).stack = t.stack := rfl
@[simp] theorem putV_rp (t : Str) (r : Nat) (ls : List Nat) (f : Nat → Word32) : (putV t r ls f).rp = t.rp := rfl
@[simp] theorem putV_buf (t : Str) (r : Nat) (ls : List Nat) (f : Nat → Word32) : (putV t r ls f).buf = t.buf := rfl
@[simp] theorem putV_fills (t : Str) (r : Nat) (ls : List Nat) (f : Nat → Word32) : (putV t r ls f).fills = t.fills := rfl
@[simp] theorem putV_undo (t : Str) (r : Nat) (ls : List Nat) (f : Nat → Word32) : (putV t r ls f).undo = t.undo := rfl
@[simp] theorem putV_outst (t : Str) (r : Nat) (ls : List Nat) (f : Nat → Word32) : (putV t r ls f).outst = t.outst := rfl
@[simp] theorem putV_owed (t : Str) (r : Nat) (ls : List Nat) (f : Nat → Word32) : (putV t r ls f).owed = t.owed := rfl
@[simp] theorem putV_stat (t : Str) (r : Nat) (ls : List Nat) (f : Nat → Word32) : (putV t r ls f).stat = t.stat := rfl
@[simp] theorem putV_xtvec (t : Str) (r : Nat) (ls : List Nat) (f : Nat → Word32) : (putV t r ls f).xtvec = t.xtvec := rfl
@[simp] theorem putV_xtcause (t : Str) (r : Nat) (ls : List Nat) (f : Nat → Word32) : (putV t r ls f).xtcause = t.xtcause := rfl
@[simp] theorem putV_xtpc (t : Str) (r : Nat) (ls : List Nat) (f : Nat → Word32) : (putV t r ls f).xtpc = t.xtpc := rfl
@[simp] theorem putV_xtbad (t : Str) (r : Nat) (ls : List Nat) (f : Nat → Word32) : (putV t r ls f).xtbad = t.xtbad := rfl
@[simp] theorem putV_hB (t : Str) (r : Nat) (ls : List Nat) (f : Nat → Word32) : (putV t r ls f).hB = t.hB := rfl
@[simp] theorem putV_hdepth (t : Str) (r : Nat) (ls : List Nat) (f : Nat → Word32) : (putV t r ls f).hdepth = t.hdepth := rfl
@[simp] theorem putV_inTrap (t : Str) (r : Nat) (ls : List Nat) (f : Nat → Word32) : (putV t r ls f).inTrap = t.inTrap := rfl
@[simp] theorem putV_loopTrap (t : Str) (r : Nat) (ls : List Nat) (f : Nat → Word32) : (putV t r ls f).loopTrap = t.loopTrap := rfl
@[simp] theorem putV_rcp (t : Str) (r : Nat) (ls : List Nat) (f : Nat → Word32) : (putV t r ls f).rcp = t.rcp := rfl
@[simp] theorem putV_wbStrict (t : Str) (r : Nat) (ls : List Nat) (f : Nat → Word32) : (putV t r ls f).wbStrict = t.wbStrict := rfl
@[simp] theorem putV_wbOpen (t : Str) (r : Nat) (ls : List Nat) (f : Nat → Word32) : (putV t r ls f).wbOpen = t.wbOpen := rfl
@[simp] theorem putV_benchb (t : Str) (r : Nat) (ls : List Nat) (f : Nat → Word32) : (putV t r ls f).benchb = t.benchb := rfl
@[simp] theorem putV_benchl (t : Str) (r : Nat) (ls : List Nat) (f : Nat → Word32) : (putV t r ls f).benchl = t.benchl := rfl
@[simp] theorem putV_loop (t : Str) (r : Nat) (ls : List Nat) (f : Nat → Word32) : (putV t r ls f).loop = t.loop := rfl
@[simp] theorem putV_xwa (t : Str) (r : Nat) (ls : List Nat) (f : Nat → Word32) : (putV t r ls f).xwa = t.xwa := rfl
@[simp] theorem putV_xwc (t : Str) (r : Nat) (ls : List Nat) (f : Nat → Word32) : (putV t r ls f).xwc = t.xwc := rfl
@[simp] theorem putV_spanSel (t : Str) (r : Nat) (ls : List Nat) (f : Nat → Word32) : (putV t r ls f).spanSel = t.spanSel := rfl
@[simp] theorem putV_tkCount (t : Str) (r : Nat) (ls : List Nat) (f : Nat → Word32) : (putV t r ls f).tkCount = t.tkCount := rfl
@[simp] theorem putV_tkLast (t : Str) (r : Nat) (ls : List Nat) (f : Nat → Word32) : (putV t r ls f).tkLast = t.tkLast := rfl
@[simp] theorem putV_tkId (t : Str) (r : Nat) (ls : List Nat) (f : Nat → Word32) : (putV t r ls f).tkId = t.tkId := rfl
@[simp] theorem putV_tkPc (t : Str) (r : Nat) (ls : List Nat) (f : Nat → Word32) : (putV t r ls f).tkPc = t.tkPc := rfl
@[simp] theorem putV_jobErr (t : Str) (r : Nat) (ls : List Nat) (f : Nat → Word32) : (putV t r ls f).jobErr = t.jobErr := rfl
@[simp] theorem putV_tok (t : Str) (r : Nat) (ls : List Nat) (f : Nat → Word32) : (putV t r ls f).tok = t.tok := rfl
@[simp] theorem putV_wait (t : Str) (r : Nat) (ls : List Nat) (f : Nat → Word32) : (putV t r ls f).wait = t.wait := rfl
@[simp] theorem putV_holdA (t : Str) (r : Nat) (ls : List Nat) (f : Nat → Word32) : (putV t r ls f).holdA = t.holdA := rfl
@[simp] theorem putV_holdB (t : Str) (r : Nat) (ls : List Nat) (f : Nat → Word32) : (putV t r ls f).holdB = t.holdB := rfl
@[simp] theorem putV_late (t : Str) (r : Nat) (ls : List Nat) (f : Nat → Word32) : (putV t r ls f).late = t.late := rfl
@[simp] theorem putV_lspan (t : Str) (r : Nat) (ls : List Nat) (f : Nat → Word32) : (putV t r ls f).lspan = t.lspan := rfl
@[simp] theorem putV_stag (t : Str) (r : Nat) (ls : List Nat) (f : Nat → Word32) : (putV t r ls f).stag = t.stag := rfl
@[simp] theorem putV_vtag (t : Str) (r : Nat) (ls : List Nat) (f : Nat → Word32) : (putV t r ls f).vtag = t.vtag := rfl
@[simp] theorem putV_ptag (t : Str) (r : Nat) (ls : List Nat) (f : Nat → Word32) : (putV t r ls f).ptag = t.ptag := rfl
@[simp] theorem putV_rslot (t : Str) (r : Nat) (ls : List Nat) (f : Nat → Word32) : (putV t r ls f).rslot = t.rslot := rfl
@[simp] theorem putV_stop (t : Str) (r : Nat) (ls : List Nat) (f : Nat → Word32) : (putV t r ls f).stop = t.stop := rfl
@[simp] theorem putV_ended (t : Str) (r : Nat) (ls : List Nat) (f : Nat → Word32) : (putV t r ls f).ended = t.ended := rfl
@[simp] theorem putV_acqMarks (t : Str) (r : Nat) (ls : List Nat) (f : Nat → Word32) : (putV t r ls f).acqMarks = t.acqMarks := rfl
@[simp] theorem putV_joins (t : Str) (r : Nat) (ls : List Nat) (f : Nat → Word32) : (putV t r ls f).joins = t.joins := rfl
@[simp] theorem putV_segA (t : Str) (r : Nat) (ls : List Nat) (f : Nat → Word32) : (putV t r ls f).segA = t.segA := rfl
@[simp] theorem putV_segB (t : Str) (r : Nat) (ls : List Nat) (f : Nat → Word32) : (putV t r ls f).segB = t.segB := rfl
@[simp] theorem putV_pend (t : Str) (r : Nat) (ls : List Nat) (f : Nat → Word32) : (putV t r ls f).pend = t.pend := rfl
@[simp] theorem putV_barG (t : Str) (r : Nat) (ls : List Nat) (f : Nat → Word32) : (putV t r ls f).barG = t.barG := rfl
@[simp] theorem putV_waitX (t : Str) (r : Nat) (ls : List Nat) (f : Nat → Word32) : (putV t r ls f).waitX = t.waitX := rfl
@[simp] theorem putV_jt (t : Str) (r : Nat) (ls : List Nat) (f : Nat → Word32) : (putV t r ls f).jt = t.jt := rfl
@[simp] theorem putV_yielding (t : Str) (r : Nat) (ls : List Nat) (f : Nat → Word32) : (putV t r ls f).yielding = t.yielding := rfl
@[simp] theorem putV_lastPc (t : Str) (r : Nat) (ls : List Nat) (f : Nat → Word32) : (putV t r ls f).lastPc = t.lastPc := rfl
@[simp] theorem putV_idleA (t : Str) (r : Nat) (ls : List Nat) (f : Nat → Word32) : (putV t r ls f).idleA = t.idleA := rfl
@[simp] theorem putV_idleB (t : Str) (r : Nat) (ls : List Nat) (f : Nat → Word32) : (putV t r ls f).idleB = t.idleB := rfl

@[simp] theorem putVTag_band (t : Str) (r : Nat) (ls : List Nat) (f : Nat → Tag) : (putVTag t r ls f).band = t.band := rfl
@[simp] theorem putVTag_num (t : Str) (r : Nat) (ls : List Nat) (f : Nat → Tag) : (putVTag t r ls f).num = t.num := rfl
@[simp] theorem putVTag_lanes (t : Str) (r : Nat) (ls : List Nat) (f : Nat → Tag) : (putVTag t r ls f).lanes = t.lanes := rfl
@[simp] theorem putVTag_v (t : Str) (r : Nat) (ls : List Nat) (f : Nat → Tag) : (putVTag t r ls f).v = t.v := rfl
@[simp] theorem putVTag_sr (t : Str) (r : Nat) (ls : List Nat) (f : Nat → Tag) : (putVTag t r ls f).sr = t.sr := rfl
@[simp] theorem putVTag_pr (t : Str) (r : Nat) (ls : List Nat) (f : Nat → Tag) : (putVTag t r ls f).pr = t.pr := rfl
@[simp] theorem putVTag_slotA (t : Str) (r : Nat) (ls : List Nat) (f : Nat → Tag) : (putVTag t r ls f).slotA = t.slotA := rfl
@[simp] theorem putVTag_slotB (t : Str) (r : Nat) (ls : List Nat) (f : Nat → Tag) : (putVTag t r ls f).slotB = t.slotB := rfl
@[simp] theorem putVTag_lastB (t : Str) (r : Nat) (ls : List Nat) (f : Nat → Tag) : (putVTag t r ls f).lastB = t.lastB := rfl
@[simp] theorem putVTag_stack (t : Str) (r : Nat) (ls : List Nat) (f : Nat → Tag) : (putVTag t r ls f).stack = t.stack := rfl
@[simp] theorem putVTag_rp (t : Str) (r : Nat) (ls : List Nat) (f : Nat → Tag) : (putVTag t r ls f).rp = t.rp := rfl
@[simp] theorem putVTag_buf (t : Str) (r : Nat) (ls : List Nat) (f : Nat → Tag) : (putVTag t r ls f).buf = t.buf := rfl
@[simp] theorem putVTag_fills (t : Str) (r : Nat) (ls : List Nat) (f : Nat → Tag) : (putVTag t r ls f).fills = t.fills := rfl
@[simp] theorem putVTag_undo (t : Str) (r : Nat) (ls : List Nat) (f : Nat → Tag) : (putVTag t r ls f).undo = t.undo := rfl
@[simp] theorem putVTag_outst (t : Str) (r : Nat) (ls : List Nat) (f : Nat → Tag) : (putVTag t r ls f).outst = t.outst := rfl
@[simp] theorem putVTag_owed (t : Str) (r : Nat) (ls : List Nat) (f : Nat → Tag) : (putVTag t r ls f).owed = t.owed := rfl
@[simp] theorem putVTag_stat (t : Str) (r : Nat) (ls : List Nat) (f : Nat → Tag) : (putVTag t r ls f).stat = t.stat := rfl
@[simp] theorem putVTag_xtvec (t : Str) (r : Nat) (ls : List Nat) (f : Nat → Tag) : (putVTag t r ls f).xtvec = t.xtvec := rfl
@[simp] theorem putVTag_xtcause (t : Str) (r : Nat) (ls : List Nat) (f : Nat → Tag) : (putVTag t r ls f).xtcause = t.xtcause := rfl
@[simp] theorem putVTag_xtpc (t : Str) (r : Nat) (ls : List Nat) (f : Nat → Tag) : (putVTag t r ls f).xtpc = t.xtpc := rfl
@[simp] theorem putVTag_xtbad (t : Str) (r : Nat) (ls : List Nat) (f : Nat → Tag) : (putVTag t r ls f).xtbad = t.xtbad := rfl
@[simp] theorem putVTag_hB (t : Str) (r : Nat) (ls : List Nat) (f : Nat → Tag) : (putVTag t r ls f).hB = t.hB := rfl
@[simp] theorem putVTag_hdepth (t : Str) (r : Nat) (ls : List Nat) (f : Nat → Tag) : (putVTag t r ls f).hdepth = t.hdepth := rfl
@[simp] theorem putVTag_inTrap (t : Str) (r : Nat) (ls : List Nat) (f : Nat → Tag) : (putVTag t r ls f).inTrap = t.inTrap := rfl
@[simp] theorem putVTag_loopTrap (t : Str) (r : Nat) (ls : List Nat) (f : Nat → Tag) : (putVTag t r ls f).loopTrap = t.loopTrap := rfl
@[simp] theorem putVTag_rcp (t : Str) (r : Nat) (ls : List Nat) (f : Nat → Tag) : (putVTag t r ls f).rcp = t.rcp := rfl
@[simp] theorem putVTag_wbStrict (t : Str) (r : Nat) (ls : List Nat) (f : Nat → Tag) : (putVTag t r ls f).wbStrict = t.wbStrict := rfl
@[simp] theorem putVTag_wbOpen (t : Str) (r : Nat) (ls : List Nat) (f : Nat → Tag) : (putVTag t r ls f).wbOpen = t.wbOpen := rfl
@[simp] theorem putVTag_benchb (t : Str) (r : Nat) (ls : List Nat) (f : Nat → Tag) : (putVTag t r ls f).benchb = t.benchb := rfl
@[simp] theorem putVTag_benchl (t : Str) (r : Nat) (ls : List Nat) (f : Nat → Tag) : (putVTag t r ls f).benchl = t.benchl := rfl
@[simp] theorem putVTag_loop (t : Str) (r : Nat) (ls : List Nat) (f : Nat → Tag) : (putVTag t r ls f).loop = t.loop := rfl
@[simp] theorem putVTag_xwa (t : Str) (r : Nat) (ls : List Nat) (f : Nat → Tag) : (putVTag t r ls f).xwa = t.xwa := rfl
@[simp] theorem putVTag_xwc (t : Str) (r : Nat) (ls : List Nat) (f : Nat → Tag) : (putVTag t r ls f).xwc = t.xwc := rfl
@[simp] theorem putVTag_spanSel (t : Str) (r : Nat) (ls : List Nat) (f : Nat → Tag) : (putVTag t r ls f).spanSel = t.spanSel := rfl
@[simp] theorem putVTag_tkCount (t : Str) (r : Nat) (ls : List Nat) (f : Nat → Tag) : (putVTag t r ls f).tkCount = t.tkCount := rfl
@[simp] theorem putVTag_tkLast (t : Str) (r : Nat) (ls : List Nat) (f : Nat → Tag) : (putVTag t r ls f).tkLast = t.tkLast := rfl
@[simp] theorem putVTag_tkId (t : Str) (r : Nat) (ls : List Nat) (f : Nat → Tag) : (putVTag t r ls f).tkId = t.tkId := rfl
@[simp] theorem putVTag_tkPc (t : Str) (r : Nat) (ls : List Nat) (f : Nat → Tag) : (putVTag t r ls f).tkPc = t.tkPc := rfl
@[simp] theorem putVTag_jobErr (t : Str) (r : Nat) (ls : List Nat) (f : Nat → Tag) : (putVTag t r ls f).jobErr = t.jobErr := rfl
@[simp] theorem putVTag_tok (t : Str) (r : Nat) (ls : List Nat) (f : Nat → Tag) : (putVTag t r ls f).tok = t.tok := rfl
@[simp] theorem putVTag_wait (t : Str) (r : Nat) (ls : List Nat) (f : Nat → Tag) : (putVTag t r ls f).wait = t.wait := rfl
@[simp] theorem putVTag_holdA (t : Str) (r : Nat) (ls : List Nat) (f : Nat → Tag) : (putVTag t r ls f).holdA = t.holdA := rfl
@[simp] theorem putVTag_holdB (t : Str) (r : Nat) (ls : List Nat) (f : Nat → Tag) : (putVTag t r ls f).holdB = t.holdB := rfl
@[simp] theorem putVTag_late (t : Str) (r : Nat) (ls : List Nat) (f : Nat → Tag) : (putVTag t r ls f).late = t.late := rfl
@[simp] theorem putVTag_lspan (t : Str) (r : Nat) (ls : List Nat) (f : Nat → Tag) : (putVTag t r ls f).lspan = t.lspan := rfl
@[simp] theorem putVTag_stag (t : Str) (r : Nat) (ls : List Nat) (f : Nat → Tag) : (putVTag t r ls f).stag = t.stag := rfl
@[simp] theorem putVTag_ptag (t : Str) (r : Nat) (ls : List Nat) (f : Nat → Tag) : (putVTag t r ls f).ptag = t.ptag := rfl
@[simp] theorem putVTag_rslot (t : Str) (r : Nat) (ls : List Nat) (f : Nat → Tag) : (putVTag t r ls f).rslot = t.rslot := rfl
@[simp] theorem putVTag_stop (t : Str) (r : Nat) (ls : List Nat) (f : Nat → Tag) : (putVTag t r ls f).stop = t.stop := rfl
@[simp] theorem putVTag_ended (t : Str) (r : Nat) (ls : List Nat) (f : Nat → Tag) : (putVTag t r ls f).ended = t.ended := rfl
@[simp] theorem putVTag_acqMarks (t : Str) (r : Nat) (ls : List Nat) (f : Nat → Tag) : (putVTag t r ls f).acqMarks = t.acqMarks := rfl
@[simp] theorem putVTag_joins (t : Str) (r : Nat) (ls : List Nat) (f : Nat → Tag) : (putVTag t r ls f).joins = t.joins := rfl
@[simp] theorem putVTag_segA (t : Str) (r : Nat) (ls : List Nat) (f : Nat → Tag) : (putVTag t r ls f).segA = t.segA := rfl
@[simp] theorem putVTag_segB (t : Str) (r : Nat) (ls : List Nat) (f : Nat → Tag) : (putVTag t r ls f).segB = t.segB := rfl
@[simp] theorem putVTag_pend (t : Str) (r : Nat) (ls : List Nat) (f : Nat → Tag) : (putVTag t r ls f).pend = t.pend := rfl
@[simp] theorem putVTag_barG (t : Str) (r : Nat) (ls : List Nat) (f : Nat → Tag) : (putVTag t r ls f).barG = t.barG := rfl
@[simp] theorem putVTag_waitX (t : Str) (r : Nat) (ls : List Nat) (f : Nat → Tag) : (putVTag t r ls f).waitX = t.waitX := rfl
@[simp] theorem putVTag_jt (t : Str) (r : Nat) (ls : List Nat) (f : Nat → Tag) : (putVTag t r ls f).jt = t.jt := rfl
@[simp] theorem putVTag_yielding (t : Str) (r : Nat) (ls : List Nat) (f : Nat → Tag) : (putVTag t r ls f).yielding = t.yielding := rfl
@[simp] theorem putVTag_lastPc (t : Str) (r : Nat) (ls : List Nat) (f : Nat → Tag) : (putVTag t r ls f).lastPc = t.lastPc := rfl
@[simp] theorem putVTag_idleA (t : Str) (r : Nat) (ls : List Nat) (f : Nat → Tag) : (putVTag t r ls f).idleA = t.idleA := rfl
@[simp] theorem putVTag_idleB (t : Str) (r : Nat) (ls : List Nat) (f : Nat → Tag) : (putVTag t r ls f).idleB = t.idleB := rfl

@[simp] theorem putS_band (t : Str) (r : Nat) (x : Word64) (g : Tag) : (putS t r x g).band = t.band := by unfold putS; split <;> rfl
@[simp] theorem putS_num (t : Str) (r : Nat) (x : Word64) (g : Tag) : (putS t r x g).num = t.num := by unfold putS; split <;> rfl
@[simp] theorem putS_lanes (t : Str) (r : Nat) (x : Word64) (g : Tag) : (putS t r x g).lanes = t.lanes := by unfold putS; split <;> rfl
@[simp] theorem putS_v (t : Str) (r : Nat) (x : Word64) (g : Tag) : (putS t r x g).v = t.v := by unfold putS; split <;> rfl
@[simp] theorem putS_pr (t : Str) (r : Nat) (x : Word64) (g : Tag) : (putS t r x g).pr = t.pr := by unfold putS; split <;> rfl
@[simp] theorem putS_slotA (t : Str) (r : Nat) (x : Word64) (g : Tag) : (putS t r x g).slotA = t.slotA := by unfold putS; split <;> rfl
@[simp] theorem putS_slotB (t : Str) (r : Nat) (x : Word64) (g : Tag) : (putS t r x g).slotB = t.slotB := by unfold putS; split <;> rfl
@[simp] theorem putS_lastB (t : Str) (r : Nat) (x : Word64) (g : Tag) : (putS t r x g).lastB = t.lastB := by unfold putS; split <;> rfl
@[simp] theorem putS_stack (t : Str) (r : Nat) (x : Word64) (g : Tag) : (putS t r x g).stack = t.stack := by unfold putS; split <;> rfl
@[simp] theorem putS_rp (t : Str) (r : Nat) (x : Word64) (g : Tag) : (putS t r x g).rp = t.rp := by unfold putS; split <;> rfl
@[simp] theorem putS_buf (t : Str) (r : Nat) (x : Word64) (g : Tag) : (putS t r x g).buf = t.buf := by unfold putS; split <;> rfl
@[simp] theorem putS_fills (t : Str) (r : Nat) (x : Word64) (g : Tag) : (putS t r x g).fills = t.fills := by unfold putS; split <;> rfl
@[simp] theorem putS_undo (t : Str) (r : Nat) (x : Word64) (g : Tag) : (putS t r x g).undo = t.undo := by unfold putS; split <;> rfl
@[simp] theorem putS_outst (t : Str) (r : Nat) (x : Word64) (g : Tag) : (putS t r x g).outst = t.outst := by unfold putS; split <;> rfl
@[simp] theorem putS_owed (t : Str) (r : Nat) (x : Word64) (g : Tag) : (putS t r x g).owed = t.owed := by unfold putS; split <;> rfl
@[simp] theorem putS_stat (t : Str) (r : Nat) (x : Word64) (g : Tag) : (putS t r x g).stat = t.stat := by unfold putS; split <;> rfl
@[simp] theorem putS_xtvec (t : Str) (r : Nat) (x : Word64) (g : Tag) : (putS t r x g).xtvec = t.xtvec := by unfold putS; split <;> rfl
@[simp] theorem putS_xtcause (t : Str) (r : Nat) (x : Word64) (g : Tag) : (putS t r x g).xtcause = t.xtcause := by unfold putS; split <;> rfl
@[simp] theorem putS_xtpc (t : Str) (r : Nat) (x : Word64) (g : Tag) : (putS t r x g).xtpc = t.xtpc := by unfold putS; split <;> rfl
@[simp] theorem putS_xtbad (t : Str) (r : Nat) (x : Word64) (g : Tag) : (putS t r x g).xtbad = t.xtbad := by unfold putS; split <;> rfl
@[simp] theorem putS_hB (t : Str) (r : Nat) (x : Word64) (g : Tag) : (putS t r x g).hB = t.hB := by unfold putS; split <;> rfl
@[simp] theorem putS_hdepth (t : Str) (r : Nat) (x : Word64) (g : Tag) : (putS t r x g).hdepth = t.hdepth := by unfold putS; split <;> rfl
@[simp] theorem putS_inTrap (t : Str) (r : Nat) (x : Word64) (g : Tag) : (putS t r x g).inTrap = t.inTrap := by unfold putS; split <;> rfl
@[simp] theorem putS_loopTrap (t : Str) (r : Nat) (x : Word64) (g : Tag) : (putS t r x g).loopTrap = t.loopTrap := by unfold putS; split <;> rfl
@[simp] theorem putS_rcp (t : Str) (r : Nat) (x : Word64) (g : Tag) : (putS t r x g).rcp = t.rcp := by unfold putS; split <;> rfl
@[simp] theorem putS_wbStrict (t : Str) (r : Nat) (x : Word64) (g : Tag) : (putS t r x g).wbStrict = t.wbStrict := by unfold putS; split <;> rfl
@[simp] theorem putS_wbOpen (t : Str) (r : Nat) (x : Word64) (g : Tag) : (putS t r x g).wbOpen = t.wbOpen := by unfold putS; split <;> rfl
@[simp] theorem putS_benchb (t : Str) (r : Nat) (x : Word64) (g : Tag) : (putS t r x g).benchb = t.benchb := by unfold putS; split <;> rfl
@[simp] theorem putS_benchl (t : Str) (r : Nat) (x : Word64) (g : Tag) : (putS t r x g).benchl = t.benchl := by unfold putS; split <;> rfl
@[simp] theorem putS_loop (t : Str) (r : Nat) (x : Word64) (g : Tag) : (putS t r x g).loop = t.loop := by unfold putS; split <;> rfl
@[simp] theorem putS_xwa (t : Str) (r : Nat) (x : Word64) (g : Tag) : (putS t r x g).xwa = t.xwa := by unfold putS; split <;> rfl
@[simp] theorem putS_xwc (t : Str) (r : Nat) (x : Word64) (g : Tag) : (putS t r x g).xwc = t.xwc := by unfold putS; split <;> rfl
@[simp] theorem putS_spanSel (t : Str) (r : Nat) (x : Word64) (g : Tag) : (putS t r x g).spanSel = t.spanSel := by unfold putS; split <;> rfl
@[simp] theorem putS_tkCount (t : Str) (r : Nat) (x : Word64) (g : Tag) : (putS t r x g).tkCount = t.tkCount := by unfold putS; split <;> rfl
@[simp] theorem putS_tkLast (t : Str) (r : Nat) (x : Word64) (g : Tag) : (putS t r x g).tkLast = t.tkLast := by unfold putS; split <;> rfl
@[simp] theorem putS_tkId (t : Str) (r : Nat) (x : Word64) (g : Tag) : (putS t r x g).tkId = t.tkId := by unfold putS; split <;> rfl
@[simp] theorem putS_tkPc (t : Str) (r : Nat) (x : Word64) (g : Tag) : (putS t r x g).tkPc = t.tkPc := by unfold putS; split <;> rfl
@[simp] theorem putS_jobErr (t : Str) (r : Nat) (x : Word64) (g : Tag) : (putS t r x g).jobErr = t.jobErr := by unfold putS; split <;> rfl
@[simp] theorem putS_tok (t : Str) (r : Nat) (x : Word64) (g : Tag) : (putS t r x g).tok = t.tok := by unfold putS; split <;> rfl
@[simp] theorem putS_wait (t : Str) (r : Nat) (x : Word64) (g : Tag) : (putS t r x g).wait = t.wait := by unfold putS; split <;> rfl
@[simp] theorem putS_holdA (t : Str) (r : Nat) (x : Word64) (g : Tag) : (putS t r x g).holdA = t.holdA := by unfold putS; split <;> rfl
@[simp] theorem putS_holdB (t : Str) (r : Nat) (x : Word64) (g : Tag) : (putS t r x g).holdB = t.holdB := by unfold putS; split <;> rfl
@[simp] theorem putS_late (t : Str) (r : Nat) (x : Word64) (g : Tag) : (putS t r x g).late = t.late := by unfold putS; split <;> rfl
@[simp] theorem putS_lspan (t : Str) (r : Nat) (x : Word64) (g : Tag) : (putS t r x g).lspan = t.lspan := by unfold putS; split <;> rfl
@[simp] theorem putS_vtag (t : Str) (r : Nat) (x : Word64) (g : Tag) : (putS t r x g).vtag = t.vtag := by unfold putS; split <;> rfl
@[simp] theorem putS_ptag (t : Str) (r : Nat) (x : Word64) (g : Tag) : (putS t r x g).ptag = t.ptag := by unfold putS; split <;> rfl
@[simp] theorem putS_rslot (t : Str) (r : Nat) (x : Word64) (g : Tag) : (putS t r x g).rslot = t.rslot := by unfold putS; split <;> rfl
@[simp] theorem putS_stop (t : Str) (r : Nat) (x : Word64) (g : Tag) : (putS t r x g).stop = t.stop := by unfold putS; split <;> rfl
@[simp] theorem putS_ended (t : Str) (r : Nat) (x : Word64) (g : Tag) : (putS t r x g).ended = t.ended := by unfold putS; split <;> rfl
@[simp] theorem putS_acqMarks (t : Str) (r : Nat) (x : Word64) (g : Tag) : (putS t r x g).acqMarks = t.acqMarks := by unfold putS; split <;> rfl
@[simp] theorem putS_joins (t : Str) (r : Nat) (x : Word64) (g : Tag) : (putS t r x g).joins = t.joins := by unfold putS; split <;> rfl
@[simp] theorem putS_segA (t : Str) (r : Nat) (x : Word64) (g : Tag) : (putS t r x g).segA = t.segA := by unfold putS; split <;> rfl
@[simp] theorem putS_segB (t : Str) (r : Nat) (x : Word64) (g : Tag) : (putS t r x g).segB = t.segB := by unfold putS; split <;> rfl
@[simp] theorem putS_pend (t : Str) (r : Nat) (x : Word64) (g : Tag) : (putS t r x g).pend = t.pend := by unfold putS; split <;> rfl
@[simp] theorem putS_barG (t : Str) (r : Nat) (x : Word64) (g : Tag) : (putS t r x g).barG = t.barG := by unfold putS; split <;> rfl
@[simp] theorem putS_waitX (t : Str) (r : Nat) (x : Word64) (g : Tag) : (putS t r x g).waitX = t.waitX := by unfold putS; split <;> rfl
@[simp] theorem putS_jt (t : Str) (r : Nat) (x : Word64) (g : Tag) : (putS t r x g).jt = t.jt := by unfold putS; split <;> rfl
@[simp] theorem putS_yielding (t : Str) (r : Nat) (x : Word64) (g : Tag) : (putS t r x g).yielding = t.yielding := by unfold putS; split <;> rfl
@[simp] theorem putS_lastPc (t : Str) (r : Nat) (x : Word64) (g : Tag) : (putS t r x g).lastPc = t.lastPc := by unfold putS; split <;> rfl
@[simp] theorem putS_idleA (t : Str) (r : Nat) (x : Word64) (g : Tag) : (putS t r x g).idleA = t.idleA := by unfold putS; split <;> rfl
@[simp] theorem putS_idleB (t : Str) (r : Nat) (x : Word64) (g : Tag) : (putS t r x g).idleB = t.idleB := by unfold putS; split <;> rfl

@[simp] theorem putPTag_band (t : Str) (r : Nat) (ls : List Nat) (f : Nat → Tag) : (putPTag t r ls f).band = t.band := rfl
@[simp] theorem putPTag_num (t : Str) (r : Nat) (ls : List Nat) (f : Nat → Tag) : (putPTag t r ls f).num = t.num := rfl
@[simp] theorem putPTag_lanes (t : Str) (r : Nat) (ls : List Nat) (f : Nat → Tag) : (putPTag t r ls f).lanes = t.lanes := rfl
@[simp] theorem putPTag_v (t : Str) (r : Nat) (ls : List Nat) (f : Nat → Tag) : (putPTag t r ls f).v = t.v := rfl
@[simp] theorem putPTag_sr (t : Str) (r : Nat) (ls : List Nat) (f : Nat → Tag) : (putPTag t r ls f).sr = t.sr := rfl
@[simp] theorem putPTag_pr (t : Str) (r : Nat) (ls : List Nat) (f : Nat → Tag) : (putPTag t r ls f).pr = t.pr := rfl
@[simp] theorem putPTag_slotA (t : Str) (r : Nat) (ls : List Nat) (f : Nat → Tag) : (putPTag t r ls f).slotA = t.slotA := rfl
@[simp] theorem putPTag_slotB (t : Str) (r : Nat) (ls : List Nat) (f : Nat → Tag) : (putPTag t r ls f).slotB = t.slotB := rfl
@[simp] theorem putPTag_lastB (t : Str) (r : Nat) (ls : List Nat) (f : Nat → Tag) : (putPTag t r ls f).lastB = t.lastB := rfl
@[simp] theorem putPTag_stack (t : Str) (r : Nat) (ls : List Nat) (f : Nat → Tag) : (putPTag t r ls f).stack = t.stack := rfl
@[simp] theorem putPTag_rp (t : Str) (r : Nat) (ls : List Nat) (f : Nat → Tag) : (putPTag t r ls f).rp = t.rp := rfl
@[simp] theorem putPTag_buf (t : Str) (r : Nat) (ls : List Nat) (f : Nat → Tag) : (putPTag t r ls f).buf = t.buf := rfl
@[simp] theorem putPTag_fills (t : Str) (r : Nat) (ls : List Nat) (f : Nat → Tag) : (putPTag t r ls f).fills = t.fills := rfl
@[simp] theorem putPTag_undo (t : Str) (r : Nat) (ls : List Nat) (f : Nat → Tag) : (putPTag t r ls f).undo = t.undo := rfl
@[simp] theorem putPTag_outst (t : Str) (r : Nat) (ls : List Nat) (f : Nat → Tag) : (putPTag t r ls f).outst = t.outst := rfl
@[simp] theorem putPTag_owed (t : Str) (r : Nat) (ls : List Nat) (f : Nat → Tag) : (putPTag t r ls f).owed = t.owed := rfl
@[simp] theorem putPTag_stat (t : Str) (r : Nat) (ls : List Nat) (f : Nat → Tag) : (putPTag t r ls f).stat = t.stat := rfl
@[simp] theorem putPTag_xtvec (t : Str) (r : Nat) (ls : List Nat) (f : Nat → Tag) : (putPTag t r ls f).xtvec = t.xtvec := rfl
@[simp] theorem putPTag_xtcause (t : Str) (r : Nat) (ls : List Nat) (f : Nat → Tag) : (putPTag t r ls f).xtcause = t.xtcause := rfl
@[simp] theorem putPTag_xtpc (t : Str) (r : Nat) (ls : List Nat) (f : Nat → Tag) : (putPTag t r ls f).xtpc = t.xtpc := rfl
@[simp] theorem putPTag_xtbad (t : Str) (r : Nat) (ls : List Nat) (f : Nat → Tag) : (putPTag t r ls f).xtbad = t.xtbad := rfl
@[simp] theorem putPTag_hB (t : Str) (r : Nat) (ls : List Nat) (f : Nat → Tag) : (putPTag t r ls f).hB = t.hB := rfl
@[simp] theorem putPTag_hdepth (t : Str) (r : Nat) (ls : List Nat) (f : Nat → Tag) : (putPTag t r ls f).hdepth = t.hdepth := rfl
@[simp] theorem putPTag_inTrap (t : Str) (r : Nat) (ls : List Nat) (f : Nat → Tag) : (putPTag t r ls f).inTrap = t.inTrap := rfl
@[simp] theorem putPTag_loopTrap (t : Str) (r : Nat) (ls : List Nat) (f : Nat → Tag) : (putPTag t r ls f).loopTrap = t.loopTrap := rfl
@[simp] theorem putPTag_rcp (t : Str) (r : Nat) (ls : List Nat) (f : Nat → Tag) : (putPTag t r ls f).rcp = t.rcp := rfl
@[simp] theorem putPTag_wbStrict (t : Str) (r : Nat) (ls : List Nat) (f : Nat → Tag) : (putPTag t r ls f).wbStrict = t.wbStrict := rfl
@[simp] theorem putPTag_wbOpen (t : Str) (r : Nat) (ls : List Nat) (f : Nat → Tag) : (putPTag t r ls f).wbOpen = t.wbOpen := rfl
@[simp] theorem putPTag_benchb (t : Str) (r : Nat) (ls : List Nat) (f : Nat → Tag) : (putPTag t r ls f).benchb = t.benchb := rfl
@[simp] theorem putPTag_benchl (t : Str) (r : Nat) (ls : List Nat) (f : Nat → Tag) : (putPTag t r ls f).benchl = t.benchl := rfl
@[simp] theorem putPTag_loop (t : Str) (r : Nat) (ls : List Nat) (f : Nat → Tag) : (putPTag t r ls f).loop = t.loop := rfl
@[simp] theorem putPTag_xwa (t : Str) (r : Nat) (ls : List Nat) (f : Nat → Tag) : (putPTag t r ls f).xwa = t.xwa := rfl
@[simp] theorem putPTag_xwc (t : Str) (r : Nat) (ls : List Nat) (f : Nat → Tag) : (putPTag t r ls f).xwc = t.xwc := rfl
@[simp] theorem putPTag_spanSel (t : Str) (r : Nat) (ls : List Nat) (f : Nat → Tag) : (putPTag t r ls f).spanSel = t.spanSel := rfl
@[simp] theorem putPTag_tkCount (t : Str) (r : Nat) (ls : List Nat) (f : Nat → Tag) : (putPTag t r ls f).tkCount = t.tkCount := rfl
@[simp] theorem putPTag_tkLast (t : Str) (r : Nat) (ls : List Nat) (f : Nat → Tag) : (putPTag t r ls f).tkLast = t.tkLast := rfl
@[simp] theorem putPTag_tkId (t : Str) (r : Nat) (ls : List Nat) (f : Nat → Tag) : (putPTag t r ls f).tkId = t.tkId := rfl
@[simp] theorem putPTag_tkPc (t : Str) (r : Nat) (ls : List Nat) (f : Nat → Tag) : (putPTag t r ls f).tkPc = t.tkPc := rfl
@[simp] theorem putPTag_jobErr (t : Str) (r : Nat) (ls : List Nat) (f : Nat → Tag) : (putPTag t r ls f).jobErr = t.jobErr := rfl
@[simp] theorem putPTag_tok (t : Str) (r : Nat) (ls : List Nat) (f : Nat → Tag) : (putPTag t r ls f).tok = t.tok := rfl
@[simp] theorem putPTag_wait (t : Str) (r : Nat) (ls : List Nat) (f : Nat → Tag) : (putPTag t r ls f).wait = t.wait := rfl
@[simp] theorem putPTag_holdA (t : Str) (r : Nat) (ls : List Nat) (f : Nat → Tag) : (putPTag t r ls f).holdA = t.holdA := rfl
@[simp] theorem putPTag_holdB (t : Str) (r : Nat) (ls : List Nat) (f : Nat → Tag) : (putPTag t r ls f).holdB = t.holdB := rfl
@[simp] theorem putPTag_late (t : Str) (r : Nat) (ls : List Nat) (f : Nat → Tag) : (putPTag t r ls f).late = t.late := rfl
@[simp] theorem putPTag_lspan (t : Str) (r : Nat) (ls : List Nat) (f : Nat → Tag) : (putPTag t r ls f).lspan = t.lspan := rfl
@[simp] theorem putPTag_stag (t : Str) (r : Nat) (ls : List Nat) (f : Nat → Tag) : (putPTag t r ls f).stag = t.stag := rfl
@[simp] theorem putPTag_vtag (t : Str) (r : Nat) (ls : List Nat) (f : Nat → Tag) : (putPTag t r ls f).vtag = t.vtag := rfl
@[simp] theorem putPTag_rslot (t : Str) (r : Nat) (ls : List Nat) (f : Nat → Tag) : (putPTag t r ls f).rslot = t.rslot := rfl
@[simp] theorem putPTag_stop (t : Str) (r : Nat) (ls : List Nat) (f : Nat → Tag) : (putPTag t r ls f).stop = t.stop := rfl
@[simp] theorem putPTag_ended (t : Str) (r : Nat) (ls : List Nat) (f : Nat → Tag) : (putPTag t r ls f).ended = t.ended := rfl
@[simp] theorem putPTag_acqMarks (t : Str) (r : Nat) (ls : List Nat) (f : Nat → Tag) : (putPTag t r ls f).acqMarks = t.acqMarks := rfl
@[simp] theorem putPTag_joins (t : Str) (r : Nat) (ls : List Nat) (f : Nat → Tag) : (putPTag t r ls f).joins = t.joins := rfl
@[simp] theorem putPTag_segA (t : Str) (r : Nat) (ls : List Nat) (f : Nat → Tag) : (putPTag t r ls f).segA = t.segA := rfl
@[simp] theorem putPTag_segB (t : Str) (r : Nat) (ls : List Nat) (f : Nat → Tag) : (putPTag t r ls f).segB = t.segB := rfl
@[simp] theorem putPTag_pend (t : Str) (r : Nat) (ls : List Nat) (f : Nat → Tag) : (putPTag t r ls f).pend = t.pend := rfl
@[simp] theorem putPTag_barG (t : Str) (r : Nat) (ls : List Nat) (f : Nat → Tag) : (putPTag t r ls f).barG = t.barG := rfl
@[simp] theorem putPTag_waitX (t : Str) (r : Nat) (ls : List Nat) (f : Nat → Tag) : (putPTag t r ls f).waitX = t.waitX := rfl
@[simp] theorem putPTag_jt (t : Str) (r : Nat) (ls : List Nat) (f : Nat → Tag) : (putPTag t r ls f).jt = t.jt := rfl
@[simp] theorem putPTag_yielding (t : Str) (r : Nat) (ls : List Nat) (f : Nat → Tag) : (putPTag t r ls f).yielding = t.yielding := rfl
@[simp] theorem putPTag_lastPc (t : Str) (r : Nat) (ls : List Nat) (f : Nat → Tag) : (putPTag t r ls f).lastPc = t.lastPc := rfl
@[simp] theorem putPTag_idleA (t : Str) (r : Nat) (ls : List Nat) (f : Nat → Tag) : (putPTag t r ls f).idleA = t.idleA := rfl
@[simp] theorem putPTag_idleB (t : Str) (r : Nat) (ls : List Nat) (f : Nat → Tag) : (putPTag t r ls f).idleB = t.idleB := rfl

@[simp] theorem logUndo_band (t : Str) (u : Undo) : (logUndo t u).band = t.band := rfl
@[simp] theorem logUndo_num (t : Str) (u : Undo) : (logUndo t u).num = t.num := rfl
@[simp] theorem logUndo_lanes (t : Str) (u : Undo) : (logUndo t u).lanes = t.lanes := rfl
@[simp] theorem logUndo_v (t : Str) (u : Undo) : (logUndo t u).v = t.v := rfl
@[simp] theorem logUndo_sr (t : Str) (u : Undo) : (logUndo t u).sr = t.sr := rfl
@[simp] theorem logUndo_pr (t : Str) (u : Undo) : (logUndo t u).pr = t.pr := rfl
@[simp] theorem logUndo_slotA (t : Str) (u : Undo) : (logUndo t u).slotA = t.slotA := rfl
@[simp] theorem logUndo_slotB (t : Str) (u : Undo) : (logUndo t u).slotB = t.slotB := rfl
@[simp] theorem logUndo_lastB (t : Str) (u : Undo) : (logUndo t u).lastB = t.lastB := rfl
@[simp] theorem logUndo_stack (t : Str) (u : Undo) : (logUndo t u).stack = t.stack := rfl
@[simp] theorem logUndo_rp (t : Str) (u : Undo) : (logUndo t u).rp = t.rp := rfl
@[simp] theorem logUndo_buf (t : Str) (u : Undo) : (logUndo t u).buf = t.buf := rfl
@[simp] theorem logUndo_fills (t : Str) (u : Undo) : (logUndo t u).fills = t.fills := rfl
@[simp] theorem logUndo_outst (t : Str) (u : Undo) : (logUndo t u).outst = t.outst := rfl
@[simp] theorem logUndo_owed (t : Str) (u : Undo) : (logUndo t u).owed = t.owed := rfl
@[simp] theorem logUndo_stat (t : Str) (u : Undo) : (logUndo t u).stat = t.stat := rfl
@[simp] theorem logUndo_xtvec (t : Str) (u : Undo) : (logUndo t u).xtvec = t.xtvec := rfl
@[simp] theorem logUndo_xtcause (t : Str) (u : Undo) : (logUndo t u).xtcause = t.xtcause := rfl
@[simp] theorem logUndo_xtpc (t : Str) (u : Undo) : (logUndo t u).xtpc = t.xtpc := rfl
@[simp] theorem logUndo_xtbad (t : Str) (u : Undo) : (logUndo t u).xtbad = t.xtbad := rfl
@[simp] theorem logUndo_hB (t : Str) (u : Undo) : (logUndo t u).hB = t.hB := rfl
@[simp] theorem logUndo_hdepth (t : Str) (u : Undo) : (logUndo t u).hdepth = t.hdepth := rfl
@[simp] theorem logUndo_inTrap (t : Str) (u : Undo) : (logUndo t u).inTrap = t.inTrap := rfl
@[simp] theorem logUndo_loopTrap (t : Str) (u : Undo) : (logUndo t u).loopTrap = t.loopTrap := rfl
@[simp] theorem logUndo_rcp (t : Str) (u : Undo) : (logUndo t u).rcp = t.rcp := rfl
@[simp] theorem logUndo_wbStrict (t : Str) (u : Undo) : (logUndo t u).wbStrict = t.wbStrict := rfl
@[simp] theorem logUndo_wbOpen (t : Str) (u : Undo) : (logUndo t u).wbOpen = t.wbOpen := rfl
@[simp] theorem logUndo_benchb (t : Str) (u : Undo) : (logUndo t u).benchb = t.benchb := rfl
@[simp] theorem logUndo_benchl (t : Str) (u : Undo) : (logUndo t u).benchl = t.benchl := rfl
@[simp] theorem logUndo_loop (t : Str) (u : Undo) : (logUndo t u).loop = t.loop := rfl
@[simp] theorem logUndo_xwa (t : Str) (u : Undo) : (logUndo t u).xwa = t.xwa := rfl
@[simp] theorem logUndo_xwc (t : Str) (u : Undo) : (logUndo t u).xwc = t.xwc := rfl
@[simp] theorem logUndo_spanSel (t : Str) (u : Undo) : (logUndo t u).spanSel = t.spanSel := rfl
@[simp] theorem logUndo_tkCount (t : Str) (u : Undo) : (logUndo t u).tkCount = t.tkCount := rfl
@[simp] theorem logUndo_tkLast (t : Str) (u : Undo) : (logUndo t u).tkLast = t.tkLast := rfl
@[simp] theorem logUndo_tkId (t : Str) (u : Undo) : (logUndo t u).tkId = t.tkId := rfl
@[simp] theorem logUndo_tkPc (t : Str) (u : Undo) : (logUndo t u).tkPc = t.tkPc := rfl
@[simp] theorem logUndo_jobErr (t : Str) (u : Undo) : (logUndo t u).jobErr = t.jobErr := rfl
@[simp] theorem logUndo_tok (t : Str) (u : Undo) : (logUndo t u).tok = t.tok := rfl
@[simp] theorem logUndo_wait (t : Str) (u : Undo) : (logUndo t u).wait = t.wait := rfl
@[simp] theorem logUndo_holdA (t : Str) (u : Undo) : (logUndo t u).holdA = t.holdA := rfl
@[simp] theorem logUndo_holdB (t : Str) (u : Undo) : (logUndo t u).holdB = t.holdB := rfl
@[simp] theorem logUndo_late (t : Str) (u : Undo) : (logUndo t u).late = t.late := rfl
@[simp] theorem logUndo_lspan (t : Str) (u : Undo) : (logUndo t u).lspan = t.lspan := rfl
@[simp] theorem logUndo_stag (t : Str) (u : Undo) : (logUndo t u).stag = t.stag := rfl
@[simp] theorem logUndo_vtag (t : Str) (u : Undo) : (logUndo t u).vtag = t.vtag := rfl
@[simp] theorem logUndo_ptag (t : Str) (u : Undo) : (logUndo t u).ptag = t.ptag := rfl
@[simp] theorem logUndo_rslot (t : Str) (u : Undo) : (logUndo t u).rslot = t.rslot := rfl
@[simp] theorem logUndo_stop (t : Str) (u : Undo) : (logUndo t u).stop = t.stop := rfl
@[simp] theorem logUndo_ended (t : Str) (u : Undo) : (logUndo t u).ended = t.ended := rfl
@[simp] theorem logUndo_acqMarks (t : Str) (u : Undo) : (logUndo t u).acqMarks = t.acqMarks := rfl
@[simp] theorem logUndo_joins (t : Str) (u : Undo) : (logUndo t u).joins = t.joins := rfl
@[simp] theorem logUndo_segA (t : Str) (u : Undo) : (logUndo t u).segA = t.segA := rfl
@[simp] theorem logUndo_segB (t : Str) (u : Undo) : (logUndo t u).segB = t.segB := rfl
@[simp] theorem logUndo_pend (t : Str) (u : Undo) : (logUndo t u).pend = t.pend := rfl
@[simp] theorem logUndo_barG (t : Str) (u : Undo) : (logUndo t u).barG = t.barG := rfl
@[simp] theorem logUndo_waitX (t : Str) (u : Undo) : (logUndo t u).waitX = t.waitX := rfl
@[simp] theorem logUndo_jt (t : Str) (u : Undo) : (logUndo t u).jt = t.jt := rfl
@[simp] theorem logUndo_yielding (t : Str) (u : Undo) : (logUndo t u).yielding = t.yielding := rfl
@[simp] theorem logUndo_lastPc (t : Str) (u : Undo) : (logUndo t u).lastPc = t.lastPc := rfl
@[simp] theorem logUndo_idleA (t : Str) (u : Undo) : (logUndo t u).idleA = t.idleA := rfl
@[simp] theorem logUndo_idleB (t : Str) (u : Undo) : (logUndo t u).idleB = t.idleB := rfl

@[simp] theorem writeV_band (t : Str) (r : Nat) (ls : List Nat) (f : Nat → Word32) : (writeV t r ls f).band = t.band := rfl
@[simp] theorem writeV_num (t : Str) (r : Nat) (ls : List Nat) (f : Nat → Word32) : (writeV t r ls f).num = t.num := rfl
@[simp] theorem writeV_lanes (t : Str) (r : Nat) (ls : List Nat) (f : Nat → Word32) : (writeV t r ls f).lanes = t.lanes := rfl
@[simp] theorem writeV_sr (t : Str) (r : Nat) (ls : List Nat) (f : Nat → Word32) : (writeV t r ls f).sr = t.sr := rfl
@[simp] theorem writeV_pr (t : Str) (r : Nat) (ls : List Nat) (f : Nat → Word32) : (writeV t r ls f).pr = t.pr := rfl
@[simp] theorem writeV_slotA (t : Str) (r : Nat) (ls : List Nat) (f : Nat → Word32) : (writeV t r ls f).slotA = t.slotA := rfl
@[simp] theorem writeV_slotB (t : Str) (r : Nat) (ls : List Nat) (f : Nat → Word32) : (writeV t r ls f).slotB = t.slotB := rfl
@[simp] theorem writeV_lastB (t : Str) (r : Nat) (ls : List Nat) (f : Nat → Word32) : (writeV t r ls f).lastB = t.lastB := rfl
@[simp] theorem writeV_stack (t : Str) (r : Nat) (ls : List Nat) (f : Nat → Word32) : (writeV t r ls f).stack = t.stack := rfl
@[simp] theorem writeV_rp (t : Str) (r : Nat) (ls : List Nat) (f : Nat → Word32) : (writeV t r ls f).rp = t.rp := rfl
@[simp] theorem writeV_buf (t : Str) (r : Nat) (ls : List Nat) (f : Nat → Word32) : (writeV t r ls f).buf = t.buf := rfl
@[simp] theorem writeV_fills (t : Str) (r : Nat) (ls : List Nat) (f : Nat → Word32) : (writeV t r ls f).fills = t.fills := rfl
@[simp] theorem writeV_outst (t : Str) (r : Nat) (ls : List Nat) (f : Nat → Word32) : (writeV t r ls f).outst = t.outst := rfl
@[simp] theorem writeV_owed (t : Str) (r : Nat) (ls : List Nat) (f : Nat → Word32) : (writeV t r ls f).owed = t.owed := rfl
@[simp] theorem writeV_stat (t : Str) (r : Nat) (ls : List Nat) (f : Nat → Word32) : (writeV t r ls f).stat = t.stat := rfl
@[simp] theorem writeV_xtvec (t : Str) (r : Nat) (ls : List Nat) (f : Nat → Word32) : (writeV t r ls f).xtvec = t.xtvec := rfl
@[simp] theorem writeV_xtcause (t : Str) (r : Nat) (ls : List Nat) (f : Nat → Word32) : (writeV t r ls f).xtcause = t.xtcause := rfl
@[simp] theorem writeV_xtpc (t : Str) (r : Nat) (ls : List Nat) (f : Nat → Word32) : (writeV t r ls f).xtpc = t.xtpc := rfl
@[simp] theorem writeV_xtbad (t : Str) (r : Nat) (ls : List Nat) (f : Nat → Word32) : (writeV t r ls f).xtbad = t.xtbad := rfl
@[simp] theorem writeV_hB (t : Str) (r : Nat) (ls : List Nat) (f : Nat → Word32) : (writeV t r ls f).hB = t.hB := rfl
@[simp] theorem writeV_hdepth (t : Str) (r : Nat) (ls : List Nat) (f : Nat → Word32) : (writeV t r ls f).hdepth = t.hdepth := rfl
@[simp] theorem writeV_inTrap (t : Str) (r : Nat) (ls : List Nat) (f : Nat → Word32) : (writeV t r ls f).inTrap = t.inTrap := rfl
@[simp] theorem writeV_loopTrap (t : Str) (r : Nat) (ls : List Nat) (f : Nat → Word32) : (writeV t r ls f).loopTrap = t.loopTrap := rfl
@[simp] theorem writeV_rcp (t : Str) (r : Nat) (ls : List Nat) (f : Nat → Word32) : (writeV t r ls f).rcp = t.rcp := rfl
@[simp] theorem writeV_wbStrict (t : Str) (r : Nat) (ls : List Nat) (f : Nat → Word32) : (writeV t r ls f).wbStrict = t.wbStrict := rfl
@[simp] theorem writeV_wbOpen (t : Str) (r : Nat) (ls : List Nat) (f : Nat → Word32) : (writeV t r ls f).wbOpen = t.wbOpen := rfl
@[simp] theorem writeV_benchb (t : Str) (r : Nat) (ls : List Nat) (f : Nat → Word32) : (writeV t r ls f).benchb = t.benchb := rfl
@[simp] theorem writeV_benchl (t : Str) (r : Nat) (ls : List Nat) (f : Nat → Word32) : (writeV t r ls f).benchl = t.benchl := rfl
@[simp] theorem writeV_loop (t : Str) (r : Nat) (ls : List Nat) (f : Nat → Word32) : (writeV t r ls f).loop = t.loop := rfl
@[simp] theorem writeV_xwa (t : Str) (r : Nat) (ls : List Nat) (f : Nat → Word32) : (writeV t r ls f).xwa = t.xwa := rfl
@[simp] theorem writeV_xwc (t : Str) (r : Nat) (ls : List Nat) (f : Nat → Word32) : (writeV t r ls f).xwc = t.xwc := rfl
@[simp] theorem writeV_spanSel (t : Str) (r : Nat) (ls : List Nat) (f : Nat → Word32) : (writeV t r ls f).spanSel = t.spanSel := rfl
@[simp] theorem writeV_tkCount (t : Str) (r : Nat) (ls : List Nat) (f : Nat → Word32) : (writeV t r ls f).tkCount = t.tkCount := rfl
@[simp] theorem writeV_tkLast (t : Str) (r : Nat) (ls : List Nat) (f : Nat → Word32) : (writeV t r ls f).tkLast = t.tkLast := rfl
@[simp] theorem writeV_tkId (t : Str) (r : Nat) (ls : List Nat) (f : Nat → Word32) : (writeV t r ls f).tkId = t.tkId := rfl
@[simp] theorem writeV_tkPc (t : Str) (r : Nat) (ls : List Nat) (f : Nat → Word32) : (writeV t r ls f).tkPc = t.tkPc := rfl
@[simp] theorem writeV_jobErr (t : Str) (r : Nat) (ls : List Nat) (f : Nat → Word32) : (writeV t r ls f).jobErr = t.jobErr := rfl
@[simp] theorem writeV_tok (t : Str) (r : Nat) (ls : List Nat) (f : Nat → Word32) : (writeV t r ls f).tok = t.tok := rfl
@[simp] theorem writeV_wait (t : Str) (r : Nat) (ls : List Nat) (f : Nat → Word32) : (writeV t r ls f).wait = t.wait := rfl
@[simp] theorem writeV_holdA (t : Str) (r : Nat) (ls : List Nat) (f : Nat → Word32) : (writeV t r ls f).holdA = t.holdA := rfl
@[simp] theorem writeV_holdB (t : Str) (r : Nat) (ls : List Nat) (f : Nat → Word32) : (writeV t r ls f).holdB = t.holdB := rfl
@[simp] theorem writeV_late (t : Str) (r : Nat) (ls : List Nat) (f : Nat → Word32) : (writeV t r ls f).late = t.late := rfl
@[simp] theorem writeV_lspan (t : Str) (r : Nat) (ls : List Nat) (f : Nat → Word32) : (writeV t r ls f).lspan = t.lspan := rfl
@[simp] theorem writeV_stag (t : Str) (r : Nat) (ls : List Nat) (f : Nat → Word32) : (writeV t r ls f).stag = t.stag := rfl
@[simp] theorem writeV_vtag (t : Str) (r : Nat) (ls : List Nat) (f : Nat → Word32) : (writeV t r ls f).vtag = t.vtag := rfl
@[simp] theorem writeV_ptag (t : Str) (r : Nat) (ls : List Nat) (f : Nat → Word32) : (writeV t r ls f).ptag = t.ptag := rfl
@[simp] theorem writeV_rslot (t : Str) (r : Nat) (ls : List Nat) (f : Nat → Word32) : (writeV t r ls f).rslot = t.rslot := rfl
@[simp] theorem writeV_stop (t : Str) (r : Nat) (ls : List Nat) (f : Nat → Word32) : (writeV t r ls f).stop = t.stop := rfl
@[simp] theorem writeV_ended (t : Str) (r : Nat) (ls : List Nat) (f : Nat → Word32) : (writeV t r ls f).ended = t.ended := rfl
@[simp] theorem writeV_acqMarks (t : Str) (r : Nat) (ls : List Nat) (f : Nat → Word32) : (writeV t r ls f).acqMarks = t.acqMarks := rfl
@[simp] theorem writeV_joins (t : Str) (r : Nat) (ls : List Nat) (f : Nat → Word32) : (writeV t r ls f).joins = t.joins := rfl
@[simp] theorem writeV_segA (t : Str) (r : Nat) (ls : List Nat) (f : Nat → Word32) : (writeV t r ls f).segA = t.segA := rfl
@[simp] theorem writeV_segB (t : Str) (r : Nat) (ls : List Nat) (f : Nat → Word32) : (writeV t r ls f).segB = t.segB := rfl
@[simp] theorem writeV_pend (t : Str) (r : Nat) (ls : List Nat) (f : Nat → Word32) : (writeV t r ls f).pend = t.pend := rfl
@[simp] theorem writeV_barG (t : Str) (r : Nat) (ls : List Nat) (f : Nat → Word32) : (writeV t r ls f).barG = t.barG := rfl
@[simp] theorem writeV_waitX (t : Str) (r : Nat) (ls : List Nat) (f : Nat → Word32) : (writeV t r ls f).waitX = t.waitX := rfl
@[simp] theorem writeV_jt (t : Str) (r : Nat) (ls : List Nat) (f : Nat → Word32) : (writeV t r ls f).jt = t.jt := rfl
@[simp] theorem writeV_yielding (t : Str) (r : Nat) (ls : List Nat) (f : Nat → Word32) : (writeV t r ls f).yielding = t.yielding := rfl
@[simp] theorem writeV_lastPc (t : Str) (r : Nat) (ls : List Nat) (f : Nat → Word32) : (writeV t r ls f).lastPc = t.lastPc := rfl
@[simp] theorem writeV_idleA (t : Str) (r : Nat) (ls : List Nat) (f : Nat → Word32) : (writeV t r ls f).idleA = t.idleA := rfl
@[simp] theorem writeV_idleB (t : Str) (r : Nat) (ls : List Nat) (f : Nat → Word32) : (writeV t r ls f).idleB = t.idleB := rfl

@[simp] theorem writeS_band (t : Str) (r : Nat) (x : Word64) (g : Tag) : (writeS t r x g).band = t.band := by unfold writeS; split <;> simp
@[simp] theorem writeS_num (t : Str) (r : Nat) (x : Word64) (g : Tag) : (writeS t r x g).num = t.num := by unfold writeS; split <;> simp
@[simp] theorem writeS_lanes (t : Str) (r : Nat) (x : Word64) (g : Tag) : (writeS t r x g).lanes = t.lanes := by unfold writeS; split <;> simp
@[simp] theorem writeS_v (t : Str) (r : Nat) (x : Word64) (g : Tag) : (writeS t r x g).v = t.v := by unfold writeS; split <;> simp
@[simp] theorem writeS_pr (t : Str) (r : Nat) (x : Word64) (g : Tag) : (writeS t r x g).pr = t.pr := by unfold writeS; split <;> simp
@[simp] theorem writeS_slotA (t : Str) (r : Nat) (x : Word64) (g : Tag) : (writeS t r x g).slotA = t.slotA := by unfold writeS; split <;> simp
@[simp] theorem writeS_slotB (t : Str) (r : Nat) (x : Word64) (g : Tag) : (writeS t r x g).slotB = t.slotB := by unfold writeS; split <;> simp
@[simp] theorem writeS_lastB (t : Str) (r : Nat) (x : Word64) (g : Tag) : (writeS t r x g).lastB = t.lastB := by unfold writeS; split <;> simp
@[simp] theorem writeS_stack (t : Str) (r : Nat) (x : Word64) (g : Tag) : (writeS t r x g).stack = t.stack := by unfold writeS; split <;> simp
@[simp] theorem writeS_rp (t : Str) (r : Nat) (x : Word64) (g : Tag) : (writeS t r x g).rp = t.rp := by unfold writeS; split <;> simp
@[simp] theorem writeS_buf (t : Str) (r : Nat) (x : Word64) (g : Tag) : (writeS t r x g).buf = t.buf := by unfold writeS; split <;> simp
@[simp] theorem writeS_fills (t : Str) (r : Nat) (x : Word64) (g : Tag) : (writeS t r x g).fills = t.fills := by unfold writeS; split <;> simp
@[simp] theorem writeS_outst (t : Str) (r : Nat) (x : Word64) (g : Tag) : (writeS t r x g).outst = t.outst := by unfold writeS; split <;> simp
@[simp] theorem writeS_owed (t : Str) (r : Nat) (x : Word64) (g : Tag) : (writeS t r x g).owed = t.owed := by unfold writeS; split <;> simp
@[simp] theorem writeS_stat (t : Str) (r : Nat) (x : Word64) (g : Tag) : (writeS t r x g).stat = t.stat := by unfold writeS; split <;> simp
@[simp] theorem writeS_xtvec (t : Str) (r : Nat) (x : Word64) (g : Tag) : (writeS t r x g).xtvec = t.xtvec := by unfold writeS; split <;> simp
@[simp] theorem writeS_xtcause (t : Str) (r : Nat) (x : Word64) (g : Tag) : (writeS t r x g).xtcause = t.xtcause := by unfold writeS; split <;> simp
@[simp] theorem writeS_xtpc (t : Str) (r : Nat) (x : Word64) (g : Tag) : (writeS t r x g).xtpc = t.xtpc := by unfold writeS; split <;> simp
@[simp] theorem writeS_xtbad (t : Str) (r : Nat) (x : Word64) (g : Tag) : (writeS t r x g).xtbad = t.xtbad := by unfold writeS; split <;> simp
@[simp] theorem writeS_hB (t : Str) (r : Nat) (x : Word64) (g : Tag) : (writeS t r x g).hB = t.hB := by unfold writeS; split <;> simp
@[simp] theorem writeS_hdepth (t : Str) (r : Nat) (x : Word64) (g : Tag) : (writeS t r x g).hdepth = t.hdepth := by unfold writeS; split <;> simp
@[simp] theorem writeS_inTrap (t : Str) (r : Nat) (x : Word64) (g : Tag) : (writeS t r x g).inTrap = t.inTrap := by unfold writeS; split <;> simp
@[simp] theorem writeS_loopTrap (t : Str) (r : Nat) (x : Word64) (g : Tag) : (writeS t r x g).loopTrap = t.loopTrap := by unfold writeS; split <;> simp
@[simp] theorem writeS_rcp (t : Str) (r : Nat) (x : Word64) (g : Tag) : (writeS t r x g).rcp = t.rcp := by unfold writeS; split <;> simp
@[simp] theorem writeS_wbStrict (t : Str) (r : Nat) (x : Word64) (g : Tag) : (writeS t r x g).wbStrict = t.wbStrict := by unfold writeS; split <;> simp
@[simp] theorem writeS_wbOpen (t : Str) (r : Nat) (x : Word64) (g : Tag) : (writeS t r x g).wbOpen = t.wbOpen := by unfold writeS; split <;> simp
@[simp] theorem writeS_benchb (t : Str) (r : Nat) (x : Word64) (g : Tag) : (writeS t r x g).benchb = t.benchb := by unfold writeS; split <;> simp
@[simp] theorem writeS_benchl (t : Str) (r : Nat) (x : Word64) (g : Tag) : (writeS t r x g).benchl = t.benchl := by unfold writeS; split <;> simp
@[simp] theorem writeS_loop (t : Str) (r : Nat) (x : Word64) (g : Tag) : (writeS t r x g).loop = t.loop := by unfold writeS; split <;> simp
@[simp] theorem writeS_xwa (t : Str) (r : Nat) (x : Word64) (g : Tag) : (writeS t r x g).xwa = t.xwa := by unfold writeS; split <;> simp
@[simp] theorem writeS_xwc (t : Str) (r : Nat) (x : Word64) (g : Tag) : (writeS t r x g).xwc = t.xwc := by unfold writeS; split <;> simp
@[simp] theorem writeS_spanSel (t : Str) (r : Nat) (x : Word64) (g : Tag) : (writeS t r x g).spanSel = t.spanSel := by unfold writeS; split <;> simp
@[simp] theorem writeS_tkCount (t : Str) (r : Nat) (x : Word64) (g : Tag) : (writeS t r x g).tkCount = t.tkCount := by unfold writeS; split <;> simp
@[simp] theorem writeS_tkLast (t : Str) (r : Nat) (x : Word64) (g : Tag) : (writeS t r x g).tkLast = t.tkLast := by unfold writeS; split <;> simp
@[simp] theorem writeS_tkId (t : Str) (r : Nat) (x : Word64) (g : Tag) : (writeS t r x g).tkId = t.tkId := by unfold writeS; split <;> simp
@[simp] theorem writeS_tkPc (t : Str) (r : Nat) (x : Word64) (g : Tag) : (writeS t r x g).tkPc = t.tkPc := by unfold writeS; split <;> simp
@[simp] theorem writeS_jobErr (t : Str) (r : Nat) (x : Word64) (g : Tag) : (writeS t r x g).jobErr = t.jobErr := by unfold writeS; split <;> simp
@[simp] theorem writeS_tok (t : Str) (r : Nat) (x : Word64) (g : Tag) : (writeS t r x g).tok = t.tok := by unfold writeS; split <;> simp
@[simp] theorem writeS_wait (t : Str) (r : Nat) (x : Word64) (g : Tag) : (writeS t r x g).wait = t.wait := by unfold writeS; split <;> simp
@[simp] theorem writeS_holdA (t : Str) (r : Nat) (x : Word64) (g : Tag) : (writeS t r x g).holdA = t.holdA := by unfold writeS; split <;> simp
@[simp] theorem writeS_holdB (t : Str) (r : Nat) (x : Word64) (g : Tag) : (writeS t r x g).holdB = t.holdB := by unfold writeS; split <;> simp
@[simp] theorem writeS_late (t : Str) (r : Nat) (x : Word64) (g : Tag) : (writeS t r x g).late = t.late := by unfold writeS; split <;> simp
@[simp] theorem writeS_lspan (t : Str) (r : Nat) (x : Word64) (g : Tag) : (writeS t r x g).lspan = t.lspan := by unfold writeS; split <;> simp
@[simp] theorem writeS_vtag (t : Str) (r : Nat) (x : Word64) (g : Tag) : (writeS t r x g).vtag = t.vtag := by unfold writeS; split <;> simp
@[simp] theorem writeS_ptag (t : Str) (r : Nat) (x : Word64) (g : Tag) : (writeS t r x g).ptag = t.ptag := by unfold writeS; split <;> simp
@[simp] theorem writeS_rslot (t : Str) (r : Nat) (x : Word64) (g : Tag) : (writeS t r x g).rslot = t.rslot := by unfold writeS; split <;> simp
@[simp] theorem writeS_stop (t : Str) (r : Nat) (x : Word64) (g : Tag) : (writeS t r x g).stop = t.stop := by unfold writeS; split <;> simp
@[simp] theorem writeS_ended (t : Str) (r : Nat) (x : Word64) (g : Tag) : (writeS t r x g).ended = t.ended := by unfold writeS; split <;> simp
@[simp] theorem writeS_acqMarks (t : Str) (r : Nat) (x : Word64) (g : Tag) : (writeS t r x g).acqMarks = t.acqMarks := by unfold writeS; split <;> simp
@[simp] theorem writeS_joins (t : Str) (r : Nat) (x : Word64) (g : Tag) : (writeS t r x g).joins = t.joins := by unfold writeS; split <;> simp
@[simp] theorem writeS_segA (t : Str) (r : Nat) (x : Word64) (g : Tag) : (writeS t r x g).segA = t.segA := by unfold writeS; split <;> simp
@[simp] theorem writeS_segB (t : Str) (r : Nat) (x : Word64) (g : Tag) : (writeS t r x g).segB = t.segB := by unfold writeS; split <;> simp
@[simp] theorem writeS_pend (t : Str) (r : Nat) (x : Word64) (g : Tag) : (writeS t r x g).pend = t.pend := by unfold writeS; split <;> simp
@[simp] theorem writeS_barG (t : Str) (r : Nat) (x : Word64) (g : Tag) : (writeS t r x g).barG = t.barG := by unfold writeS; split <;> simp
@[simp] theorem writeS_waitX (t : Str) (r : Nat) (x : Word64) (g : Tag) : (writeS t r x g).waitX = t.waitX := by unfold writeS; split <;> simp
@[simp] theorem writeS_jt (t : Str) (r : Nat) (x : Word64) (g : Tag) : (writeS t r x g).jt = t.jt := by unfold writeS; split <;> simp
@[simp] theorem writeS_yielding (t : Str) (r : Nat) (x : Word64) (g : Tag) : (writeS t r x g).yielding = t.yielding := by unfold writeS; split <;> simp
@[simp] theorem writeS_lastPc (t : Str) (r : Nat) (x : Word64) (g : Tag) : (writeS t r x g).lastPc = t.lastPc := by unfold writeS; split <;> simp
@[simp] theorem writeS_idleA (t : Str) (r : Nat) (x : Word64) (g : Tag) : (writeS t r x g).idleA = t.idleA := by unfold writeS; split <;> simp
@[simp] theorem writeS_idleB (t : Str) (r : Nat) (x : Word64) (g : Tag) : (writeS t r x g).idleB = t.idleB := by unfold writeS; split <;> simp

@[simp] theorem writeP_band (t : Str) (r : Nat) (ls : List Nat) (f : Nat → Bool) : (writeP t r ls f).band = t.band := by unfold writeP; split <;> rfl
@[simp] theorem writeP_num (t : Str) (r : Nat) (ls : List Nat) (f : Nat → Bool) : (writeP t r ls f).num = t.num := by unfold writeP; split <;> rfl
@[simp] theorem writeP_lanes (t : Str) (r : Nat) (ls : List Nat) (f : Nat → Bool) : (writeP t r ls f).lanes = t.lanes := by unfold writeP; split <;> rfl
@[simp] theorem writeP_v (t : Str) (r : Nat) (ls : List Nat) (f : Nat → Bool) : (writeP t r ls f).v = t.v := by unfold writeP; split <;> rfl
@[simp] theorem writeP_sr (t : Str) (r : Nat) (ls : List Nat) (f : Nat → Bool) : (writeP t r ls f).sr = t.sr := by unfold writeP; split <;> rfl
@[simp] theorem writeP_slotA (t : Str) (r : Nat) (ls : List Nat) (f : Nat → Bool) : (writeP t r ls f).slotA = t.slotA := by unfold writeP; split <;> rfl
@[simp] theorem writeP_slotB (t : Str) (r : Nat) (ls : List Nat) (f : Nat → Bool) : (writeP t r ls f).slotB = t.slotB := by unfold writeP; split <;> rfl
@[simp] theorem writeP_lastB (t : Str) (r : Nat) (ls : List Nat) (f : Nat → Bool) : (writeP t r ls f).lastB = t.lastB := by unfold writeP; split <;> rfl
@[simp] theorem writeP_stack (t : Str) (r : Nat) (ls : List Nat) (f : Nat → Bool) : (writeP t r ls f).stack = t.stack := by unfold writeP; split <;> rfl
@[simp] theorem writeP_rp (t : Str) (r : Nat) (ls : List Nat) (f : Nat → Bool) : (writeP t r ls f).rp = t.rp := by unfold writeP; split <;> rfl
@[simp] theorem writeP_buf (t : Str) (r : Nat) (ls : List Nat) (f : Nat → Bool) : (writeP t r ls f).buf = t.buf := by unfold writeP; split <;> rfl
@[simp] theorem writeP_fills (t : Str) (r : Nat) (ls : List Nat) (f : Nat → Bool) : (writeP t r ls f).fills = t.fills := by unfold writeP; split <;> rfl
@[simp] theorem writeP_outst (t : Str) (r : Nat) (ls : List Nat) (f : Nat → Bool) : (writeP t r ls f).outst = t.outst := by unfold writeP; split <;> rfl
@[simp] theorem writeP_owed (t : Str) (r : Nat) (ls : List Nat) (f : Nat → Bool) : (writeP t r ls f).owed = t.owed := by unfold writeP; split <;> rfl
@[simp] theorem writeP_stat (t : Str) (r : Nat) (ls : List Nat) (f : Nat → Bool) : (writeP t r ls f).stat = t.stat := by unfold writeP; split <;> rfl
@[simp] theorem writeP_xtvec (t : Str) (r : Nat) (ls : List Nat) (f : Nat → Bool) : (writeP t r ls f).xtvec = t.xtvec := by unfold writeP; split <;> rfl
@[simp] theorem writeP_xtcause (t : Str) (r : Nat) (ls : List Nat) (f : Nat → Bool) : (writeP t r ls f).xtcause = t.xtcause := by unfold writeP; split <;> rfl
@[simp] theorem writeP_xtpc (t : Str) (r : Nat) (ls : List Nat) (f : Nat → Bool) : (writeP t r ls f).xtpc = t.xtpc := by unfold writeP; split <;> rfl
@[simp] theorem writeP_xtbad (t : Str) (r : Nat) (ls : List Nat) (f : Nat → Bool) : (writeP t r ls f).xtbad = t.xtbad := by unfold writeP; split <;> rfl
@[simp] theorem writeP_hB (t : Str) (r : Nat) (ls : List Nat) (f : Nat → Bool) : (writeP t r ls f).hB = t.hB := by unfold writeP; split <;> rfl
@[simp] theorem writeP_hdepth (t : Str) (r : Nat) (ls : List Nat) (f : Nat → Bool) : (writeP t r ls f).hdepth = t.hdepth := by unfold writeP; split <;> rfl
@[simp] theorem writeP_inTrap (t : Str) (r : Nat) (ls : List Nat) (f : Nat → Bool) : (writeP t r ls f).inTrap = t.inTrap := by unfold writeP; split <;> rfl
@[simp] theorem writeP_loopTrap (t : Str) (r : Nat) (ls : List Nat) (f : Nat → Bool) : (writeP t r ls f).loopTrap = t.loopTrap := by unfold writeP; split <;> rfl
@[simp] theorem writeP_rcp (t : Str) (r : Nat) (ls : List Nat) (f : Nat → Bool) : (writeP t r ls f).rcp = t.rcp := by unfold writeP; split <;> rfl
@[simp] theorem writeP_wbStrict (t : Str) (r : Nat) (ls : List Nat) (f : Nat → Bool) : (writeP t r ls f).wbStrict = t.wbStrict := by unfold writeP; split <;> rfl
@[simp] theorem writeP_wbOpen (t : Str) (r : Nat) (ls : List Nat) (f : Nat → Bool) : (writeP t r ls f).wbOpen = t.wbOpen := by unfold writeP; split <;> rfl
@[simp] theorem writeP_benchb (t : Str) (r : Nat) (ls : List Nat) (f : Nat → Bool) : (writeP t r ls f).benchb = t.benchb := by unfold writeP; split <;> rfl
@[simp] theorem writeP_benchl (t : Str) (r : Nat) (ls : List Nat) (f : Nat → Bool) : (writeP t r ls f).benchl = t.benchl := by unfold writeP; split <;> rfl
@[simp] theorem writeP_loop (t : Str) (r : Nat) (ls : List Nat) (f : Nat → Bool) : (writeP t r ls f).loop = t.loop := by unfold writeP; split <;> rfl
@[simp] theorem writeP_xwa (t : Str) (r : Nat) (ls : List Nat) (f : Nat → Bool) : (writeP t r ls f).xwa = t.xwa := by unfold writeP; split <;> rfl
@[simp] theorem writeP_xwc (t : Str) (r : Nat) (ls : List Nat) (f : Nat → Bool) : (writeP t r ls f).xwc = t.xwc := by unfold writeP; split <;> rfl
@[simp] theorem writeP_spanSel (t : Str) (r : Nat) (ls : List Nat) (f : Nat → Bool) : (writeP t r ls f).spanSel = t.spanSel := by unfold writeP; split <;> rfl
@[simp] theorem writeP_tkCount (t : Str) (r : Nat) (ls : List Nat) (f : Nat → Bool) : (writeP t r ls f).tkCount = t.tkCount := by unfold writeP; split <;> rfl
@[simp] theorem writeP_tkLast (t : Str) (r : Nat) (ls : List Nat) (f : Nat → Bool) : (writeP t r ls f).tkLast = t.tkLast := by unfold writeP; split <;> rfl
@[simp] theorem writeP_tkId (t : Str) (r : Nat) (ls : List Nat) (f : Nat → Bool) : (writeP t r ls f).tkId = t.tkId := by unfold writeP; split <;> rfl
@[simp] theorem writeP_tkPc (t : Str) (r : Nat) (ls : List Nat) (f : Nat → Bool) : (writeP t r ls f).tkPc = t.tkPc := by unfold writeP; split <;> rfl
@[simp] theorem writeP_jobErr (t : Str) (r : Nat) (ls : List Nat) (f : Nat → Bool) : (writeP t r ls f).jobErr = t.jobErr := by unfold writeP; split <;> rfl
@[simp] theorem writeP_tok (t : Str) (r : Nat) (ls : List Nat) (f : Nat → Bool) : (writeP t r ls f).tok = t.tok := by unfold writeP; split <;> rfl
@[simp] theorem writeP_wait (t : Str) (r : Nat) (ls : List Nat) (f : Nat → Bool) : (writeP t r ls f).wait = t.wait := by unfold writeP; split <;> rfl
@[simp] theorem writeP_holdA (t : Str) (r : Nat) (ls : List Nat) (f : Nat → Bool) : (writeP t r ls f).holdA = t.holdA := by unfold writeP; split <;> rfl
@[simp] theorem writeP_holdB (t : Str) (r : Nat) (ls : List Nat) (f : Nat → Bool) : (writeP t r ls f).holdB = t.holdB := by unfold writeP; split <;> rfl
@[simp] theorem writeP_late (t : Str) (r : Nat) (ls : List Nat) (f : Nat → Bool) : (writeP t r ls f).late = t.late := by unfold writeP; split <;> rfl
@[simp] theorem writeP_lspan (t : Str) (r : Nat) (ls : List Nat) (f : Nat → Bool) : (writeP t r ls f).lspan = t.lspan := by unfold writeP; split <;> rfl
@[simp] theorem writeP_stag (t : Str) (r : Nat) (ls : List Nat) (f : Nat → Bool) : (writeP t r ls f).stag = t.stag := by unfold writeP; split <;> rfl
@[simp] theorem writeP_vtag (t : Str) (r : Nat) (ls : List Nat) (f : Nat → Bool) : (writeP t r ls f).vtag = t.vtag := by unfold writeP; split <;> rfl
@[simp] theorem writeP_ptag (t : Str) (r : Nat) (ls : List Nat) (f : Nat → Bool) : (writeP t r ls f).ptag = t.ptag := by unfold writeP; split <;> rfl
@[simp] theorem writeP_rslot (t : Str) (r : Nat) (ls : List Nat) (f : Nat → Bool) : (writeP t r ls f).rslot = t.rslot := by unfold writeP; split <;> rfl
@[simp] theorem writeP_stop (t : Str) (r : Nat) (ls : List Nat) (f : Nat → Bool) : (writeP t r ls f).stop = t.stop := by unfold writeP; split <;> rfl
@[simp] theorem writeP_ended (t : Str) (r : Nat) (ls : List Nat) (f : Nat → Bool) : (writeP t r ls f).ended = t.ended := by unfold writeP; split <;> rfl
@[simp] theorem writeP_acqMarks (t : Str) (r : Nat) (ls : List Nat) (f : Nat → Bool) : (writeP t r ls f).acqMarks = t.acqMarks := by unfold writeP; split <;> rfl
@[simp] theorem writeP_joins (t : Str) (r : Nat) (ls : List Nat) (f : Nat → Bool) : (writeP t r ls f).joins = t.joins := by unfold writeP; split <;> rfl
@[simp] theorem writeP_segA (t : Str) (r : Nat) (ls : List Nat) (f : Nat → Bool) : (writeP t r ls f).segA = t.segA := by unfold writeP; split <;> rfl
@[simp] theorem writeP_segB (t : Str) (r : Nat) (ls : List Nat) (f : Nat → Bool) : (writeP t r ls f).segB = t.segB := by unfold writeP; split <;> rfl
@[simp] theorem writeP_pend (t : Str) (r : Nat) (ls : List Nat) (f : Nat → Bool) : (writeP t r ls f).pend = t.pend := by unfold writeP; split <;> rfl
@[simp] theorem writeP_barG (t : Str) (r : Nat) (ls : List Nat) (f : Nat → Bool) : (writeP t r ls f).barG = t.barG := by unfold writeP; split <;> rfl
@[simp] theorem writeP_waitX (t : Str) (r : Nat) (ls : List Nat) (f : Nat → Bool) : (writeP t r ls f).waitX = t.waitX := by unfold writeP; split <;> rfl
@[simp] theorem writeP_jt (t : Str) (r : Nat) (ls : List Nat) (f : Nat → Bool) : (writeP t r ls f).jt = t.jt := by unfold writeP; split <;> rfl
@[simp] theorem writeP_yielding (t : Str) (r : Nat) (ls : List Nat) (f : Nat → Bool) : (writeP t r ls f).yielding = t.yielding := by unfold writeP; split <;> rfl
@[simp] theorem writeP_lastPc (t : Str) (r : Nat) (ls : List Nat) (f : Nat → Bool) : (writeP t r ls f).lastPc = t.lastPc := by unfold writeP; split <;> rfl
@[simp] theorem writeP_idleA (t : Str) (r : Nat) (ls : List Nat) (f : Nat → Bool) : (writeP t r ls f).idleA = t.idleA := by unfold writeP; split <;> rfl
@[simp] theorem writeP_idleB (t : Str) (r : Nat) (ls : List Nat) (f : Nat → Bool) : (writeP t r ls f).idleB = t.idleB := by unfold writeP; split <;> rfl

@[simp] theorem setSlot_band (t : Str) (b : Bool) (p : Option Path) : (setSlot t b p).band = t.band := by unfold setSlot; split <;> rfl
@[simp] theorem setSlot_num (t : Str) (b : Bool) (p : Option Path) : (setSlot t b p).num = t.num := by unfold setSlot; split <;> rfl
@[simp] theorem setSlot_lanes (t : Str) (b : Bool) (p : Option Path) : (setSlot t b p).lanes = t.lanes := by unfold setSlot; split <;> rfl
@[simp] theorem setSlot_v (t : Str) (b : Bool) (p : Option Path) : (setSlot t b p).v = t.v := by unfold setSlot; split <;> rfl
@[simp] theorem setSlot_sr (t : Str) (b : Bool) (p : Option Path) : (setSlot t b p).sr = t.sr := by unfold setSlot; split <;> rfl
@[simp] theorem setSlot_pr (t : Str) (b : Bool) (p : Option Path) : (setSlot t b p).pr = t.pr := by unfold setSlot; split <;> rfl
@[simp] theorem setSlot_lastB (t : Str) (b : Bool) (p : Option Path) : (setSlot t b p).lastB = t.lastB := by unfold setSlot; split <;> rfl
@[simp] theorem setSlot_stack (t : Str) (b : Bool) (p : Option Path) : (setSlot t b p).stack = t.stack := by unfold setSlot; split <;> rfl
@[simp] theorem setSlot_rp (t : Str) (b : Bool) (p : Option Path) : (setSlot t b p).rp = t.rp := by unfold setSlot; split <;> rfl
@[simp] theorem setSlot_buf (t : Str) (b : Bool) (p : Option Path) : (setSlot t b p).buf = t.buf := by unfold setSlot; split <;> rfl
@[simp] theorem setSlot_fills (t : Str) (b : Bool) (p : Option Path) : (setSlot t b p).fills = t.fills := by unfold setSlot; split <;> rfl
@[simp] theorem setSlot_undo (t : Str) (b : Bool) (p : Option Path) : (setSlot t b p).undo = t.undo := by unfold setSlot; split <;> rfl
@[simp] theorem setSlot_outst (t : Str) (b : Bool) (p : Option Path) : (setSlot t b p).outst = t.outst := by unfold setSlot; split <;> rfl
@[simp] theorem setSlot_owed (t : Str) (b : Bool) (p : Option Path) : (setSlot t b p).owed = t.owed := by unfold setSlot; split <;> rfl
@[simp] theorem setSlot_stat (t : Str) (b : Bool) (p : Option Path) : (setSlot t b p).stat = t.stat := by unfold setSlot; split <;> rfl
@[simp] theorem setSlot_xtvec (t : Str) (b : Bool) (p : Option Path) : (setSlot t b p).xtvec = t.xtvec := by unfold setSlot; split <;> rfl
@[simp] theorem setSlot_xtcause (t : Str) (b : Bool) (p : Option Path) : (setSlot t b p).xtcause = t.xtcause := by unfold setSlot; split <;> rfl
@[simp] theorem setSlot_xtpc (t : Str) (b : Bool) (p : Option Path) : (setSlot t b p).xtpc = t.xtpc := by unfold setSlot; split <;> rfl
@[simp] theorem setSlot_xtbad (t : Str) (b : Bool) (p : Option Path) : (setSlot t b p).xtbad = t.xtbad := by unfold setSlot; split <;> rfl
@[simp] theorem setSlot_hB (t : Str) (b : Bool) (p : Option Path) : (setSlot t b p).hB = t.hB := by unfold setSlot; split <;> rfl
@[simp] theorem setSlot_hdepth (t : Str) (b : Bool) (p : Option Path) : (setSlot t b p).hdepth = t.hdepth := by unfold setSlot; split <;> rfl
@[simp] theorem setSlot_inTrap (t : Str) (b : Bool) (p : Option Path) : (setSlot t b p).inTrap = t.inTrap := by unfold setSlot; split <;> rfl
@[simp] theorem setSlot_loopTrap (t : Str) (b : Bool) (p : Option Path) : (setSlot t b p).loopTrap = t.loopTrap := by unfold setSlot; split <;> rfl
@[simp] theorem setSlot_rcp (t : Str) (b : Bool) (p : Option Path) : (setSlot t b p).rcp = t.rcp := by unfold setSlot; split <;> rfl
@[simp] theorem setSlot_wbStrict (t : Str) (b : Bool) (p : Option Path) : (setSlot t b p).wbStrict = t.wbStrict := by unfold setSlot; split <;> rfl
@[simp] theorem setSlot_wbOpen (t : Str) (b : Bool) (p : Option Path) : (setSlot t b p).wbOpen = t.wbOpen := by unfold setSlot; split <;> rfl
@[simp] theorem setSlot_benchb (t : Str) (b : Bool) (p : Option Path) : (setSlot t b p).benchb = t.benchb := by unfold setSlot; split <;> rfl
@[simp] theorem setSlot_benchl (t : Str) (b : Bool) (p : Option Path) : (setSlot t b p).benchl = t.benchl := by unfold setSlot; split <;> rfl
@[simp] theorem setSlot_loop (t : Str) (b : Bool) (p : Option Path) : (setSlot t b p).loop = t.loop := by unfold setSlot; split <;> rfl
@[simp] theorem setSlot_xwa (t : Str) (b : Bool) (p : Option Path) : (setSlot t b p).xwa = t.xwa := by unfold setSlot; split <;> rfl
@[simp] theorem setSlot_xwc (t : Str) (b : Bool) (p : Option Path) : (setSlot t b p).xwc = t.xwc := by unfold setSlot; split <;> rfl
@[simp] theorem setSlot_spanSel (t : Str) (b : Bool) (p : Option Path) : (setSlot t b p).spanSel = t.spanSel := by unfold setSlot; split <;> rfl
@[simp] theorem setSlot_tkCount (t : Str) (b : Bool) (p : Option Path) : (setSlot t b p).tkCount = t.tkCount := by unfold setSlot; split <;> rfl
@[simp] theorem setSlot_tkLast (t : Str) (b : Bool) (p : Option Path) : (setSlot t b p).tkLast = t.tkLast := by unfold setSlot; split <;> rfl
@[simp] theorem setSlot_tkId (t : Str) (b : Bool) (p : Option Path) : (setSlot t b p).tkId = t.tkId := by unfold setSlot; split <;> rfl
@[simp] theorem setSlot_tkPc (t : Str) (b : Bool) (p : Option Path) : (setSlot t b p).tkPc = t.tkPc := by unfold setSlot; split <;> rfl
@[simp] theorem setSlot_jobErr (t : Str) (b : Bool) (p : Option Path) : (setSlot t b p).jobErr = t.jobErr := by unfold setSlot; split <;> rfl
@[simp] theorem setSlot_tok (t : Str) (b : Bool) (p : Option Path) : (setSlot t b p).tok = t.tok := by unfold setSlot; split <;> rfl
@[simp] theorem setSlot_wait (t : Str) (b : Bool) (p : Option Path) : (setSlot t b p).wait = t.wait := by unfold setSlot; split <;> rfl
@[simp] theorem setSlot_holdA (t : Str) (b : Bool) (p : Option Path) : (setSlot t b p).holdA = t.holdA := by unfold setSlot; split <;> rfl
@[simp] theorem setSlot_holdB (t : Str) (b : Bool) (p : Option Path) : (setSlot t b p).holdB = t.holdB := by unfold setSlot; split <;> rfl
@[simp] theorem setSlot_late (t : Str) (b : Bool) (p : Option Path) : (setSlot t b p).late = t.late := by unfold setSlot; split <;> rfl
@[simp] theorem setSlot_lspan (t : Str) (b : Bool) (p : Option Path) : (setSlot t b p).lspan = t.lspan := by unfold setSlot; split <;> rfl
@[simp] theorem setSlot_stag (t : Str) (b : Bool) (p : Option Path) : (setSlot t b p).stag = t.stag := by unfold setSlot; split <;> rfl
@[simp] theorem setSlot_vtag (t : Str) (b : Bool) (p : Option Path) : (setSlot t b p).vtag = t.vtag := by unfold setSlot; split <;> rfl
@[simp] theorem setSlot_ptag (t : Str) (b : Bool) (p : Option Path) : (setSlot t b p).ptag = t.ptag := by unfold setSlot; split <;> rfl
@[simp] theorem setSlot_rslot (t : Str) (b : Bool) (p : Option Path) : (setSlot t b p).rslot = t.rslot := by unfold setSlot; split <;> rfl
@[simp] theorem setSlot_stop (t : Str) (b : Bool) (p : Option Path) : (setSlot t b p).stop = t.stop := by unfold setSlot; split <;> rfl
@[simp] theorem setSlot_ended (t : Str) (b : Bool) (p : Option Path) : (setSlot t b p).ended = t.ended := by unfold setSlot; split <;> rfl
@[simp] theorem setSlot_acqMarks (t : Str) (b : Bool) (p : Option Path) : (setSlot t b p).acqMarks = t.acqMarks := by unfold setSlot; split <;> rfl
@[simp] theorem setSlot_joins (t : Str) (b : Bool) (p : Option Path) : (setSlot t b p).joins = t.joins := by unfold setSlot; split <;> rfl
@[simp] theorem setSlot_segA (t : Str) (b : Bool) (p : Option Path) : (setSlot t b p).segA = t.segA := by unfold setSlot; split <;> rfl
@[simp] theorem setSlot_segB (t : Str) (b : Bool) (p : Option Path) : (setSlot t b p).segB = t.segB := by unfold setSlot; split <;> rfl
@[simp] theorem setSlot_pend (t : Str) (b : Bool) (p : Option Path) : (setSlot t b p).pend = t.pend := by unfold setSlot; split <;> rfl
@[simp] theorem setSlot_barG (t : Str) (b : Bool) (p : Option Path) : (setSlot t b p).barG = t.barG := by unfold setSlot; split <;> rfl
@[simp] theorem setSlot_waitX (t : Str) (b : Bool) (p : Option Path) : (setSlot t b p).waitX = t.waitX := by unfold setSlot; split <;> rfl
@[simp] theorem setSlot_jt (t : Str) (b : Bool) (p : Option Path) : (setSlot t b p).jt = t.jt := by unfold setSlot; split <;> rfl
@[simp] theorem setSlot_yielding (t : Str) (b : Bool) (p : Option Path) : (setSlot t b p).yielding = t.yielding := by unfold setSlot; split <;> rfl
@[simp] theorem setSlot_lastPc (t : Str) (b : Bool) (p : Option Path) : (setSlot t b p).lastPc = t.lastPc := by unfold setSlot; split <;> rfl
@[simp] theorem setSlot_idleA (t : Str) (b : Bool) (p : Option Path) : (setSlot t b p).idleA = t.idleA := by unfold setSlot; split <;> rfl
@[simp] theorem setSlot_idleB (t : Str) (b : Bool) (p : Option Path) : (setSlot t b p).idleB = t.idleB := by unfold setSlot; split <;> rfl

@[simp] theorem setStack_band (t : Str) (st : List Rec) : (setStack t st).band = t.band := rfl
@[simp] theorem setStack_num (t : Str) (st : List Rec) : (setStack t st).num = t.num := rfl
@[simp] theorem setStack_lanes (t : Str) (st : List Rec) : (setStack t st).lanes = t.lanes := rfl
@[simp] theorem setStack_v (t : Str) (st : List Rec) : (setStack t st).v = t.v := rfl
@[simp] theorem setStack_sr (t : Str) (st : List Rec) : (setStack t st).sr = t.sr := rfl
@[simp] theorem setStack_pr (t : Str) (st : List Rec) : (setStack t st).pr = t.pr := rfl
@[simp] theorem setStack_slotA (t : Str) (st : List Rec) : (setStack t st).slotA = t.slotA := rfl
@[simp] theorem setStack_slotB (t : Str) (st : List Rec) : (setStack t st).slotB = t.slotB := rfl
@[simp] theorem setStack_lastB (t : Str) (st : List Rec) : (setStack t st).lastB = t.lastB := rfl
@[simp] theorem setStack_rp (t : Str) (st : List Rec) : (setStack t st).rp = t.rp := rfl
@[simp] theorem setStack_buf (t : Str) (st : List Rec) : (setStack t st).buf = t.buf := rfl
@[simp] theorem setStack_fills (t : Str) (st : List Rec) : (setStack t st).fills = t.fills := rfl
@[simp] theorem setStack_outst (t : Str) (st : List Rec) : (setStack t st).outst = t.outst := rfl
@[simp] theorem setStack_owed (t : Str) (st : List Rec) : (setStack t st).owed = t.owed := rfl
@[simp] theorem setStack_stat (t : Str) (st : List Rec) : (setStack t st).stat = t.stat := rfl
@[simp] theorem setStack_xtvec (t : Str) (st : List Rec) : (setStack t st).xtvec = t.xtvec := rfl
@[simp] theorem setStack_xtcause (t : Str) (st : List Rec) : (setStack t st).xtcause = t.xtcause := rfl
@[simp] theorem setStack_xtpc (t : Str) (st : List Rec) : (setStack t st).xtpc = t.xtpc := rfl
@[simp] theorem setStack_xtbad (t : Str) (st : List Rec) : (setStack t st).xtbad = t.xtbad := rfl
@[simp] theorem setStack_hB (t : Str) (st : List Rec) : (setStack t st).hB = t.hB := rfl
@[simp] theorem setStack_inTrap (t : Str) (st : List Rec) : (setStack t st).inTrap = t.inTrap := rfl
@[simp] theorem setStack_loopTrap (t : Str) (st : List Rec) : (setStack t st).loopTrap = t.loopTrap := rfl
@[simp] theorem setStack_rcp (t : Str) (st : List Rec) : (setStack t st).rcp = t.rcp := rfl
@[simp] theorem setStack_wbStrict (t : Str) (st : List Rec) : (setStack t st).wbStrict = t.wbStrict := rfl
@[simp] theorem setStack_wbOpen (t : Str) (st : List Rec) : (setStack t st).wbOpen = t.wbOpen := rfl
@[simp] theorem setStack_benchb (t : Str) (st : List Rec) : (setStack t st).benchb = t.benchb := rfl
@[simp] theorem setStack_benchl (t : Str) (st : List Rec) : (setStack t st).benchl = t.benchl := rfl
@[simp] theorem setStack_loop (t : Str) (st : List Rec) : (setStack t st).loop = t.loop := rfl
@[simp] theorem setStack_xwa (t : Str) (st : List Rec) : (setStack t st).xwa = t.xwa := rfl
@[simp] theorem setStack_xwc (t : Str) (st : List Rec) : (setStack t st).xwc = t.xwc := rfl
@[simp] theorem setStack_spanSel (t : Str) (st : List Rec) : (setStack t st).spanSel = t.spanSel := rfl
@[simp] theorem setStack_tkCount (t : Str) (st : List Rec) : (setStack t st).tkCount = t.tkCount := rfl
@[simp] theorem setStack_tkLast (t : Str) (st : List Rec) : (setStack t st).tkLast = t.tkLast := rfl
@[simp] theorem setStack_tkId (t : Str) (st : List Rec) : (setStack t st).tkId = t.tkId := rfl
@[simp] theorem setStack_tkPc (t : Str) (st : List Rec) : (setStack t st).tkPc = t.tkPc := rfl
@[simp] theorem setStack_jobErr (t : Str) (st : List Rec) : (setStack t st).jobErr = t.jobErr := rfl
@[simp] theorem setStack_tok (t : Str) (st : List Rec) : (setStack t st).tok = t.tok := rfl
@[simp] theorem setStack_wait (t : Str) (st : List Rec) : (setStack t st).wait = t.wait := rfl
@[simp] theorem setStack_holdA (t : Str) (st : List Rec) : (setStack t st).holdA = t.holdA := rfl
@[simp] theorem setStack_holdB (t : Str) (st : List Rec) : (setStack t st).holdB = t.holdB := rfl
@[simp] theorem setStack_late (t : Str) (st : List Rec) : (setStack t st).late = t.late := rfl
@[simp] theorem setStack_lspan (t : Str) (st : List Rec) : (setStack t st).lspan = t.lspan := rfl
@[simp] theorem setStack_stag (t : Str) (st : List Rec) : (setStack t st).stag = t.stag := rfl
@[simp] theorem setStack_vtag (t : Str) (st : List Rec) : (setStack t st).vtag = t.vtag := rfl
@[simp] theorem setStack_ptag (t : Str) (st : List Rec) : (setStack t st).ptag = t.ptag := rfl
@[simp] theorem setStack_rslot (t : Str) (st : List Rec) : (setStack t st).rslot = t.rslot := rfl
@[simp] theorem setStack_stop (t : Str) (st : List Rec) : (setStack t st).stop = t.stop := rfl
@[simp] theorem setStack_ended (t : Str) (st : List Rec) : (setStack t st).ended = t.ended := rfl
@[simp] theorem setStack_acqMarks (t : Str) (st : List Rec) : (setStack t st).acqMarks = t.acqMarks := rfl
@[simp] theorem setStack_joins (t : Str) (st : List Rec) : (setStack t st).joins = t.joins := rfl
@[simp] theorem setStack_segA (t : Str) (st : List Rec) : (setStack t st).segA = t.segA := rfl
@[simp] theorem setStack_segB (t : Str) (st : List Rec) : (setStack t st).segB = t.segB := rfl
@[simp] theorem setStack_pend (t : Str) (st : List Rec) : (setStack t st).pend = t.pend := rfl
@[simp] theorem setStack_barG (t : Str) (st : List Rec) : (setStack t st).barG = t.barG := rfl
@[simp] theorem setStack_waitX (t : Str) (st : List Rec) : (setStack t st).waitX = t.waitX := rfl
@[simp] theorem setStack_jt (t : Str) (st : List Rec) : (setStack t st).jt = t.jt := rfl
@[simp] theorem setStack_yielding (t : Str) (st : List Rec) : (setStack t st).yielding = t.yielding := rfl
@[simp] theorem setStack_lastPc (t : Str) (st : List Rec) : (setStack t st).lastPc = t.lastPc := rfl
@[simp] theorem setStack_idleA (t : Str) (st : List Rec) : (setStack t st).idleA = t.idleA := rfl
@[simp] theorem setStack_idleB (t : Str) (st : List Rec) : (setStack t st).idleB = t.idleB := rfl

end Sys2Proof.Machine
end

