-- ==== Sys2Proof/Laws/Lanes.lean ====
section
/-! SUPPORT. What writing lanes, predicates and s registers does, and the results of the operand forms of `Operands.lean`. -/

namespace Sys2Proof.Machine
open Sys2Proof

/-! ### Lanes -/

theorem mem_lanesOf (m : Word32) (l : Nat) : l ∈ lanesOf m ↔ l < 32 ∧ m.getLsbD l = true := by
  simp [lanesOf]

theorem mem_active (bu : Bun) (g : PReg) (l : Nat) : l ∈ lanesOf (activeMask bu g) ↔ activeLane bu g l := mem_lanesOf _ _

theorem readV_putV (t : Str) (r : Nat) (ls : List Nat) (f : Nat → Word32) (l : Nat) :
    readV (putV t r ls f) r l = if l ∈ ls then f l else readV t r l := by
  unfold readV putV
  exact smGet_foldl_put 0#32 (fun l => 32 * r + l) f (by intro a b h; simpa using h) ls t.v l

theorem readV_putV_ne (t : Str) (d : Nat) (ls : List Nat) (f : Nat → Word32) (hls : ∀ l ∈ ls, l < 32) (r l : Nat) (hl : l < 32)
    (h : r ≠ d) : readV (putV t d ls f) r l = readV t r l := by
  unfold readV putV
  exact smGet_foldl_put_ne 0#32 (fun l => 32 * d + l) f ls t.v _ (by intro a ha; have := hls a ha; omega)

theorem writesV_putV (s : State) (t : Str) (bu : Bun) (g : PReg) (d : Nat) (ls : List Nat) (f : Nat → Word32)
    (hls : ∀ l, l ∈ ls ↔ activeLane bu g l) : WritesV s t (writeV t d ls f) bu g d f where
  new l hl := by unfold writeV; rw [readV_putV, if_pos ((hls l).2 hl)]
  old r l hl h := by
    unfold writeV
    by_cases hr : r = d
    · subst hr
      rw [readV_putV, if_neg (fun hm => h ⟨rfl, (hls l).1 hm⟩)]; rfl
    · rw [readV_putV_ne _ _ _ _ (fun x hx => ((hls x).1 hx).1) _ _ hl hr]; rfl
  undo := .inr rfl
  tags _ := rfl
  rest := rfl

theorem writesV_tags (s : State) (t t' : Str) (bu : Bun) (g : PReg) (d : Nat) (f : Nat → Word32) (ls ks : List Nat) (p q : Nat → Tag)
    (hr : s.records bu.lat.band = true) (w : WritesV s t t' bu g d f) :
    WritesV s t (putVTag (putVTag t' d ls p) d ks q) bu g d f where
  new := w.new
  old := w.old
  undo := w.undo
  tags h := absurd hr (by simp [h])
  rest := by
    have h := w.rest
    exact congrArg (fun (u : Str) => putVTag (putVTag u d ls p) d ks q) h

/-- The head string after `writeLanes`. -/
theorem writeLanes_spec (s : State) (t : Str) (ts : List Str) (h : s.strs = t :: ts) (bu : Bun) (g : PReg) (d : Nat)
    (f : Nat → Word32) (tag : Nat → Tag) :
    ∃ t', s.writeLanes bu g d (lanesOf (activeMask bu g)) f tag = { s with strs := t' :: ts } ∧ WritesV s t t' bu g d f := by
  have w := writesV_putV s t bu g d _ f (mem_active bu g)
  have none : lanesOf (activeMask bu g) = [] → WritesV s t t bu g d f := fun he =>
    ⟨fun l hl => by rw [← mem_active, he] at hl; simp at hl, fun _ _ _ _ => rfl, .inl rfl, fun _ => rfl, rfl⟩
  unfold State.writeLanes
  by_cases hr : s.records bu.lat.band = true
  · simp only [hr, if_true]
    split
    · rename_i he
      simp only [Bool.and_eq_true, List.isEmpty_iff] at he
      exact ⟨t, by rw [← h], none he.1⟩
    · unfold State.modHead
      rw [h]
      exact ⟨_, rfl, writesV_tags s t _ bu g d f _ _ _ _ hr w⟩
  · simp only [Bool.not_eq_true] at hr
    simp only [hr, Bool.false_eq_true, if_false]
    split
    · rename_i he
      simp only [Bool.and_eq_true, List.isEmpty_iff] at he
      exact ⟨t, by rw [← h], none he.1⟩
    · unfold State.modHead
      rw [h]
      exact ⟨_, rfl, w⟩

/-! ### Predicates -/

theorem setBit (m : Word32) (a l : Nat) (hl : l < 32) (x : Bool) :
    (if x then m ||| (1#32 <<< a) else m &&& ~~~(1#32 <<< a)).getLsbD l = if l = a then x else m.getLsbD l := by
  have e : (1#32 <<< a).getLsbD l = decide (l = a) := by
    simp only [BitVec.getLsbD_shiftLeft, BitVec.getLsbD_one, hl]
    by_cases h1 : l < a
    · have : l ≠ a := by omega
      simp [h1, this]
    · by_cases h2 : l = a
      · simp [h2]
      · have : l - a ≠ 0 := by omega
        simp [h1, h2, this]
  cases x
  · simp only [Bool.false_eq_true, if_false, BitVec.getLsbD_and, BitVec.getLsbD_not, hl, e]
    by_cases h2 : l = a <;> simp [h2]
  · simp only [if_true, BitVec.getLsbD_or, e]
    by_cases h2 : l = a <;> simp [h2]

theorem foldBits (f : Nat → Bool) (ls : List Nat) (m : Word32) (l : Nat) (hl : l < 32) :
    (ls.foldl (fun m l => if f l then m ||| (1#32 <<< l) else m &&& ~~~(1#32 <<< l)) m).getLsbD l =
      if l ∈ ls then f l else m.getLsbD l := by
  induction ls generalizing m with
  | nil => simp
  | cons a ls ih =>
    rw [List.foldl_cons, ih, setBit _ _ _ hl]
    by_cases hm : l ∈ ls
    · simp [hm]
    · by_cases hla : l = a
      · simp [hla]
      · simp [hm, hla]

theorem readP_writeP (t : Str) (d : Nat) (ls : List Nat) (f : Nat → Bool) (hd : d ≠ 0) (l : Nat) (hl : l < 32) :
    (readP (writeP t d ls f) d).getLsbD l = if l ∈ ls then f l else (readP t d).getLsbD l := by
  rw [← foldBits f ls (readP t d) l hl]
  simp only [writeP, hd, if_false, readP, smGet_put, if_true]
  rfl

theorem readP_writeP_ne (t : Str) (d : Nat) (ls : List Nat) (f : Nat → Bool) (r : Nat) (hr : r ≠ d) :
    readP (writeP t d ls f) r = readP t r := by
  unfold writeP
  split
  · rfl
  · simp only [readP, smGet_put, hr, if_false]; rfl

theorem writesP_writeP (s : State) (t : Str) (bu : Bun) (g : PReg) (d : Nat) (ls : List Nat) (f : Nat → Bool)
    (hls : ∀ l, l ∈ ls ↔ activeLane bu g l) : WritesP s t (writeP t d ls f) bu g d f where
  new l hl hd := by rw [readP_writeP _ _ _ _ hd _ hl.1, if_pos ((hls l).2 hl)]
  old r l hl h := by
    by_cases hr : r = d
    · subst hr
      by_cases h0 : r = 0
      · subst h0; rfl
      · rw [readP_writeP _ _ _ _ h0 _ hl, if_neg (fun hm => h ⟨rfl, h0, (hls l).1 hm⟩)]
    · rw [readP_writeP_ne _ _ _ _ _ hr]
  tags _ := by simp
  rest := by unfold writeP; split <;> rfl

/-- The head string after `writePreds`. -/
theorem writePreds_spec (s : State) (t : Str) (ts : List Str) (h : s.strs = t :: ts) (bu : Bun) (g : PReg) (d : Nat)
    (f : Nat → Bool) (tag : Nat → Tag) :
    ∃ t', s.writePreds bu g d (lanesOf (activeMask bu g)) f tag = { s with strs := t' :: ts } ∧ WritesP s t t' bu g d f := by
  have w := writesP_writeP s t bu g d _ f (mem_active bu g)
  have none : (d = 0 ∨ lanesOf (activeMask bu g) = []) → WritesP s t t bu g d f := fun he =>
    ⟨fun l hl hd => by
      rcases he with he | he
      · exact absurd he hd
      · rw [← mem_active, he] at hl; simp at hl,
     fun _ _ _ _ => rfl, fun _ => rfl, rfl⟩
  unfold State.writePreds
  by_cases hr : s.records bu.lat.band = true
  · simp only [hr, if_true]
    split
    · rename_i he
      simp only [Bool.or_eq_true, decide_eq_true_eq, Bool.and_eq_true, List.isEmpty_iff] at he
      exact ⟨t, by rw [← h], none (he.imp_right And.left)⟩
    · unfold State.modHead
      rw [h]
      exact ⟨_, rfl, w.new, w.old, fun e => absurd hr (by simp [e]),
        congrArg (fun (u : Str) => putPTag (putPTag u d _ tag) d _ (fun _ => .data)) w.rest⟩
  · simp only [Bool.not_eq_true] at hr
    simp only [hr, Bool.false_eq_true, if_false]
    split
    · rename_i he
      simp only [Bool.or_eq_true, decide_eq_true_eq, Bool.and_eq_true, List.isEmpty_iff] at he
      exact ⟨t, by rw [← h], none (he.imp_right And.left)⟩
    · unfold State.modHead
      rw [h]
      exact ⟨_, rfl, w⟩

/-! ### s registers -/

theorem writesS_writeS (s : State) (t : Str) (d : Nat) (x : Word64) (tag : Tag) : WritesS s t (writeS t d x tag) d x := by
  unfold writeS
  by_cases hd : d = 0
  · subst hd
    exact ⟨fun h => absurd rfl h, fun _ _ => rfl, rfl, rfl⟩
  · rw [if_neg hd]
    unfold putS
    rw [if_neg hd]
    refine ⟨fun _ => ?_, fun r h => ?_, (if_neg hd).symm, rfl⟩
    · simp only [readS, hd, if_false, smGet_put, if_true]
    · by_cases h0 : r = 0
      · subst h0; rfl
      · have : r ≠ d := fun e => h ⟨e, hd⟩
        simp only [readS, h0, if_false, smGet_put, this]; rfl

theorem writeScalar_spec (s : State) (t : Str) (ts : List Str) (h : s.strs = t :: ts) (bu : Bun) (d : Nat) (x : Word64) (tag : Tag) :
    ∃ t', s.writeScalar bu d x tag = { s with strs := t' :: ts } ∧ WritesS s t t' d x := by
  unfold State.writeScalar
  exact ⟨_, by rw [State.modHead, h], writesS_writeS s t d x _⟩

/-! ### The operand forms -/

theorem byteAt_strs (s : State) (ts : List Str) : sameMemory s { s with strs := ts } := fun m _ => by cases m <;> rfl

theorem onHead_cons (s : State) (t : Str) (ts : List Str) (h : s.strs = t :: ts) (k : Str → Bun → State) :
    s.onHead k = .next (k t (s.bunOf t)) := by
  unfold State.onHead; rw [h]

/-- A per-lane integer instruction. -/
theorem laneInt_result (i : Instr) (g : PReg) (d : VReg) (f : Str → Nat → Word32) (tag : Str → Nat → Tag)
    (h : ∀ s, exec i s = s.laneInt g d f tag) : LaneResult i g d f := by
  unfold LaneResult
  intro s t ts hs
  obtain ⟨t', e, w⟩ := writeLanes_spec s t ts hs (s.bunOf t) g d.toNat (f (s.bunOf t).lat) (tag (s.bunOf t).lat)
  exact ⟨t', by rw [h, State.laneInt, onHead_cons s t ts hs, e], w, byteAt_strs _ _⟩

/-- A scalar instruction. -/
theorem scalarOp_result (i : Instr) (d : SReg) (f : Str → Word64) (tag : Str → Tag) (h : ∀ s, exec i s = s.scalarOp d f tag) :
    ScalarResult i d f := by
  intro s t ts hs
  obtain ⟨t', e, w⟩ := writeScalar_spec s t ts hs (s.bunOf t) d.toNat (f (s.bunOf t).lat) (tag (s.bunOf t).lat)
  exact ⟨t', by rw [h, State.scalarOp, onHead_cons s t ts hs, e], w, byteAt_strs _ _⟩

/-- The flags are collected, or there are none. -/
theorem setFlags_spec (s : State) (t : Str) (ts : List Str) (h : s.strs = t :: ts) (fl : Flags) :
    (if fl = 0#5 then s else s.setFlags fl) =
      { s with strs := { t with stat := orFlags t.stat fl } :: ts,
               bun := s.bun.map (fun (b : Bun) => { b with flags := b.flags ||| fl }) } := by
  split
  · rename_i e
    subst e
    have : s.bun.map (fun (b : Bun) => { b with flags := b.flags ||| 0#5 }) = s.bun := by cases s.bun <;> simp
    have e2 : orFlags t.stat 0#5 = t.stat := by simp [orFlags]
    rw [this, e2, ← h]
  · simp [State.setFlags, State.modHead, h, State.modBun]

/-- A per-lane instruction with flags. -/
theorem laneOp_result (i : Instr) (g : PReg) (d : VReg) (f : Str → Nat → FRes) (tag : Str → Nat → Tag)
    (h : ∀ s, exec i s = s.laneOp g d f tag) : FpResult i g d f := by
  intro s t ts hs hf
  have hs' := setFlags_spec s t ts hs (laneFlags (s.bunOf t) g (fun u l => (f u l).fl))
  rw [h, State.laneOp, onHead_cons s t ts hs]
  unfold State.withFlags
  unfold laneFlags at hf hs' ⊢
  dsimp only at hf hs' ⊢
  rw [hf, if_neg (by simp), hs']
  generalize orAll ((lanesOf (activeMask (s.bunOf t) g)).map (fun l => (l, (f (s.bunOf t).lat l).fl))) = F
  obtain ⟨t', e, w⟩ := writeLanes_spec
    { s with strs := { t with stat := orFlags t.stat F } :: ts, bun := s.bun.map (fun (b : Bun) => { b with flags := b.flags ||| F }) }
    { t with stat := orFlags t.stat F } ts rfl (s.bunOf t) g d.toNat
    (fun l => BitVec.ofNat 32 (f (s.bunOf t).lat l).x) (tag (s.bunOf t).lat)
  exact ⟨t', by rw [e], ⟨w.new, w.old, w.undo, w.tags, w.rest⟩, byteAt_strs _ _⟩

/-- Predicate logic. -/
theorem lanePred_result (i : Instr) (g d : PReg) (srcs : List PReg) (f : List Bool → Bool)
    (h : ∀ s, exec i s = s.lanePred g d srcs f) :
    PredResult i g d (fun t l => f (srcs.map (fun p => (readP t p.toNat).getLsbD l))) := by
  unfold PredResult
  intro s t ts hs
  obtain ⟨t', e, w⟩ := writePreds_spec s t ts hs (s.bunOf t) g d.toNat
    (fun l => f (srcs.map (fun p => (readP (s.bunOf t).lat p.toNat).getLsbD l)))
    (fun l => joinTags (srcs.map (fun p => tagP (s.bunOf t).lat p.toNat l)))
  exact ⟨t', by rw [h, State.lanePred, onHead_cons s t ts hs, e], w, byteAt_strs _ _⟩

/-- A compare with its flags. -/
theorem laneCmp_result (i : Instr) (g p : PReg) (a b : VReg) (f : Word32 → Word32 → Bool) (fl : Word32 → Word32 → Flags)
    (h : ∀ s, exec i s = s.laneCmp g p a b f fl) :
    FpPredResult i g p (fun t l => f (readV t a.toNat l) (readV t b.toNat l)) (fun t l => fl (readV t a.toNat l) (readV t b.toNat l)) := by
  intro s t ts hs hf
  have hs' := setFlags_spec s t ts hs (laneFlags (s.bunOf t) g (fun t l => fl (readV t a.toNat l) (readV t b.toNat l)))
  rw [h, State.laneCmp, onHead_cons s t ts hs]
  unfold State.withFlags
  unfold laneFlags at hf hs' ⊢
  dsimp only at hf hs' ⊢
  rw [hf, if_neg (by simp), hs']
  generalize orAll ((lanesOf (activeMask (s.bunOf t) g)).map (fun l => (l, fl (readV (s.bunOf t).lat a.toNat l)
    (readV (s.bunOf t).lat b.toNat l)))) = F
  obtain ⟨t', e, w⟩ := writePreds_spec
    { s with strs := { t with stat := orFlags t.stat F } :: ts, bun := s.bun.map (fun (b : Bun) => { b with flags := b.flags ||| F }) }
    { t with stat := orFlags t.stat F } ts rfl (s.bunOf t) g p.toNat
    (fun l => f (readV (s.bunOf t).lat a.toNat l) (readV (s.bunOf t).lat b.toNat l))
    (fun l => joinTags [tagV (s.bunOf t).lat a.toNat l, tagV (s.bunOf t).lat b.toNat l])
  exact ⟨t', by rw [e], ⟨w.new, w.old, w.tags, w.rest⟩, byteAt_strs _ _⟩

/-! ### The forms by their sources -/

theorem LaneResult.congr {i : Instr} {g : PReg} {d : VReg} {f f' : Str → Nat → Word32} (h : LaneResult i g d f)
    (e : ∀ t l, f t l = f' t l) : LaneResult i g d f' := by
  have : f = f' := funext fun t => funext fun l => e t l
  exact this ▸ h

theorem FpResult.congr {i : Instr} {g : PReg} {d : VReg} {f f' : Str → Nat → FRes} (h : FpResult i g d f)
    (e : ∀ t l, f t l = f' t l) : FpResult i g d f' := by
  have : f = f' := funext fun t => funext fun l => e t l
  exact this ▸ h

theorem ScalarResult.congr {i : Instr} {d : SReg} {f f' : Str → Word64} (h : ScalarResult i d f) (e : ∀ t, f t = f' t) :
    ScalarResult i d f' := by
  have : f = f' := funext e
  exact this ▸ h

theorem lane1_result {i : Instr} {g : PReg} {d a : VReg} {f : Word32 → Word32} (h : ∀ s, exec i s = s.lane1 g d a f) :
    LaneResult i g d (from1 a f) := laneInt_result i g d _ _ h

theorem lane2_result {i : Instr} {g : PReg} {d a b : VReg} {f : Word32 → Word32 → Word32} (h : ∀ s, exec i s = s.lane2 g d a b f) :
    LaneResult i g d (from2 a b f) := laneInt_result i g d _ _ h

theorem lane3_result {i : Instr} {g : PReg} {d a b : VReg} {f : Word32 → Word32 → Word32 → Word32}
    (h : ∀ s, exec i s = s.lane3 g d a b f) : LaneResult i g d (from3 a b d f) := laneInt_result i g d _ _ h

theorem fp1_result {i : Instr} {g : PReg} {d a : VReg} {f : RMode → Nat → FRes} (h : ∀ s, exec i s = s.fp1 g d a f) :
    FpResult i g d (fun t => from1 a (fun A => f (modeIn t) A.toNat) t) := laneOp_result i g d _ _ h

theorem fp2_result {i : Instr} {g : PReg} {d a b : VReg} {f : RMode → Nat → Nat → FRes} (h : ∀ s, exec i s = s.fp2 g d a b f) :
    FpResult i g d (fun t => from2 a b (fun A B => f (modeIn t) A.toNat B.toNat) t) := laneOp_result i g d _ _ h

theorem fp3_result {i : Instr} {g : PReg} {d a b : VReg} {f : RMode → Nat → Nat → Nat → FRes}
    (h : ∀ s, exec i s = s.fp3 g d a b f) :
    FpResult i g d (fun t => from3 a b d (fun A B D => f (modeIn t) A.toNat B.toNat D.toNat) t) := laneOp_result i g d _ _ h

theorem scalar2_result {i : Instr} {d a b : SReg} {f : Word64 → Word64 → Word64} (h : ∀ s, exec i s = s.scalar2 d a b f) :
    ScalarResult i d (fun t => f (readS t a.toNat) (readS t b.toNat)) := scalarOp_result i d _ _ h

theorem scalar1_result {i : Instr} {d a : SReg} {f : Word64 → Word64} (h : ∀ s, exec i s = s.scalar1 d a f) :
    ScalarResult i d (fun t => f (readS t a.toNat)) := scalarOp_result i d _ _ h

/-- A lane instruction whose value the bundle gives. -/
theorem bunLane_result (i : Instr) (g : PReg) (d : VReg) (val : Bun → Nat → Word32) (tag : Bun → Nat → Tag)
    (h : ∀ s, exec i s = s.onHead (fun _ bu => s.writeLanes bu g d.toNat (lanesOf (activeMask bu g)) (val bu) (tag bu))) :
    BunLaneResult i g d val := by
  intro s t ts hs
  obtain ⟨t', e, w⟩ := writeLanes_spec s t ts hs (s.bunOf t) g d.toNat (val (s.bunOf t)) (tag (s.bunOf t))
  exact ⟨t', by rw [h, onHead_cons s t ts hs, e], w, byteAt_strs _ _⟩

/-- A vote into a predicate. -/
theorem bunPred_result (i : Instr) (g d : PReg) (val : Bun → Nat → Bool) (tag : Bun → Nat → Tag)
    (h : ∀ s, exec i s = s.onHead (fun _ bu => s.writePreds bu g d.toNat (lanesOf (activeMask bu g)) (val bu) (tag bu))) :
    BunPredResult i g d val := by
  intro s t ts hs
  obtain ⟨t', e, w⟩ := writePreds_spec s t ts hs (s.bunOf t) g d.toNat (val (s.bunOf t)) (tag (s.bunOf t))
  exact ⟨t', by rw [h, onHead_cons s t ts hs, e], w, byteAt_strs _ _⟩

theorem orAll_zero (ls : List Nat) : orAll (ls.map (fun l => (l, (0#5 : Flags)))) = 0#5 := by
  unfold orAll
  induction ls with
  | nil => rfl
  | cons a ls ih => simpa using ih

theorem fpTraps_zero (t : Str) : fpTraps t 0#5 = 0#5 := by
  unfold fpTraps
  split
  · rfl
  · exact BitVec.zero_and

/-- A compare that sets no flag. -/
theorem intCmp_result {i : Instr} {g p : PReg} {a b : VReg} {f : Word32 → Word32 → Bool}
    (h : ∀ s, exec i s = s.laneCmp g p a b f (fun _ _ => 0#5)) : PredResult i g p (from2 a b f) := by
  intro s t ts hs
  obtain ⟨t', e, w⟩ := writePreds_spec s t ts hs (s.bunOf t) g p.toNat
    (fun l => f (readV (s.bunOf t).lat a.toNat l) (readV (s.bunOf t).lat b.toNat l))
    (fun l => joinTags [tagV (s.bunOf t).lat a.toNat l, tagV (s.bunOf t).lat b.toNat l])
  refine ⟨t', ?_, w, byteAt_strs _ _⟩
  rw [h, State.laneCmp, onHead_cons s t ts hs]
  unfold State.withFlags
  dsimp only
  rw [orAll_zero, fpTraps_zero, if_neg (by simp), if_pos rfl, e]

end Sys2Proof.Machine
end

