-- ==== Sys2Proof/Laws/Peek.lean ====
section
/-! SUPPORT. What a read by the dispatcher or the firmware changes (R285, R341): where it answers bytes, nothing but the count of free
values and the requests that stand for it at the homes. -/

namespace Sys2Proof.Laws
open Sys2Proof Sys2Proof.Machine

/-- Only free values were drawn and requests of the serai's own posted. -/
def PeekOnly (s s1 : State) : Prop := ∃ f n r a, s1 = { s with nfree := f, nextId := n, reqs := r, agenda := a }

theorem PeekOnly.refl (s : State) : PeekOnly s s := ⟨_, _, _, _, rfl⟩

theorem PeekOnly.trans {s s1 s2 : State} (h : PeekOnly s s1) (k : PeekOnly s1 s2) : PeekOnly s s2 := by
  obtain ⟨_, _, _, _, rfl⟩ := h
  obtain ⟨f, n, r, a, rfl⟩ := k
  exact ⟨f, n, r, a, rfl⟩

theorem shadowRead_only (s : State) (die core ctx ha : Nat) : PeekOnly s (shadowRead s die core ctx ha) := by
  unfold shadowRead State.addReq
  dsimp only
  rw [if_pos (.inl rfl)]
  exact ⟨s.nfree, _, _, _, rfl⟩

theorem peekWalk_some {s s1 : State} {die core va : Nat} {w : Word64} (h : peekWalk s die core va = (s1, some w)) : PeekOnly s s1 := by
  unfold peekWalk at h
  split at h
  · simp only [Prod.mk.injEq] at h
    exact ⟨_, _, _, _, h.1.symm⟩
  · split at h
    · split at h
      · cases h; exact .refl s
      · split at h
        · cases h
        · cases h; exact shadowRead_only ..
    · cases h

theorem walkSpan_some {s s1 : State} {die core ctx span : Nat} {w : Word64} (h : walkSpan s die core ctx span = (s1, some w)) :
    PeekOnly s s1 := by
  unfold walkSpan at h
  split at h
  · simp only [Prod.mk.injEq] at h
    exact h.1 ▸ .refl s
  · split at h
    · cases h
    · dsimp only at h
      split at h
      · cases h
      · split at h
        · cases h
        · rename_i h1
          split at h
          · cases h
          · split at h
            · cases h
            · rename_i h2
              simp only [Prod.mk.injEq] at h
              exact h.1 ▸ (peekWalk_some h1).trans (peekWalk_some h2)

theorem seraiSpan_some {s s1 : State} {ctx va : Nat} {w : Word64} (h : seraiSpan s ctx va = (s1, some w)) : PeekOnly s s1 := by
  unfold seraiSpan at h
  split at h
  · cases h
  · exact walkSpan_some h

theorem lineCheck_only (s : State) (ctx line : Nat) : PeekOnly s (s.lineCheck ctx line).1 := by
  unfold State.lineCheck
  split
  · exact ⟨_, s.nextId, s.reqs, s.agenda, rfl⟩
  · exact .refl s

theorem peekValue_some {s s1 : State} {ctx line : Nat} {d : LineData} (h : peekValue s ctx line = (s1, some d)) : PeekOnly s s1 := by
  unfold peekValue at h
  split at h <;> cases h
  rename_i hc
  split at hc
  · cases hc; exact .refl s
  · have h1 : (s.lineCheck ctx line).1 = s1 := by rw [hc]
    exact h1 ▸ lineCheck_only s ctx line

theorem peekHome_bytes {s s1 : State} {ctx ha n : Nat} {bs : List Byte} (h : peekHome s ctx ha n = .bytes s1 bs) : PeekOnly s s1 := by
  unfold peekHome at h
  dsimp only at h
  split at h
  · cases h
  · split at h
    · cases h
    · split at h
      · split at h
        · cases h
        · split at h
          · split at h
            · cases h
            · rename_i hv
              cases h
              exact (peekValue_some hv).trans (shadowRead_only ..)
          · split at h <;> cases h
      · split at h <;> cases h

theorem peekLine_bytes {s s1 : State} {ctx va n : Nat} {bs : List Byte} (h : peekLine s ctx va n = .bytes s1 bs) : PeekOnly s s1 := by
  unfold peekLine at h
  split at h
  · cases h
  · rename_i hs
    split at h
    · cases h
    · dsimp only at h
      split at h
      · cases h; exact seraiSpan_some hs
      · split at h
        · exact (seraiSpan_some hs).trans (peekHome_bytes h)
        · split at h
          · cases h
          · cases h; exact (seraiSpan_some hs).trans ⟨_, _, _, _, rfl⟩

theorem peekFrom_bytes : ∀ (fuel : Nat) {s s1 : State} {ctx va n : Nat} {acc bs : List Byte},
    peekFrom fuel s ctx va n acc = .bytes s1 bs → PeekOnly s s1
  | 0, s, _, _, _, _, _, _, h => by cases h; exact .refl s
  | fuel + 1, s, _, ctx, va, n, _, _, h => by
    unfold peekFrom at h
    split at h
    · cases h; exact .refl s
    · dsimp only at h
      cases hp : peekLine s ctx va (min n (128 - va % 128)) with
      | bytes s2 b =>
        rw [hp] at h
        exact (peekLine_bytes hp).trans (peekFrom_bytes fuel h)
      | again s2 => rw [hp] at h; cases h
      | fail s2 => rw [hp] at h; cases h

/-- A read that answers leaves the module as it was, but for the count of free values and the requests of the serai's own. -/
theorem peekVa_bytes {s s1 : State} {ctx va n : Nat} {bs : List Byte} (h : peekVa s ctx va n = .bytes s1 bs) : PeekOnly s s1 :=
  peekFrom_bytes _ h

end Sys2Proof.Laws
end

