-- ==== Sys2Proof/Tests/Slice0.lean ====
section
/-! SUPPORT. Tests: words written out from the opcode table's encodings, ill-formed instructions that the check refuses, single steps, and the
concrete states that meet the hypotheses of the statements. -/

namespace Sys2Proof.Tests
open Sys2Proof Sys2Proof.Machine

set_option Elab.async false

/-! ### Words (spec/opcode_table.json, R70 to R91): each word is its row's fixed bits with the operand fields set -/

/-- The instruction of a bare slot word. -/
def bare (w : BitVec 32) : Option Instr := (decodeSlot DecCtx.full { w := w, e := 0#8, hdr := false }).toOption

theorem test_words_00 : [0x00000000].map bare =
    [some (.nop)] := by decide

theorem test_words_01 : [0x0528B4A0, 0x0528B4A1, 0x0528B4A2, 0x0528B4A3, 0x0528B4A4, 0x0528B4A5, 0x0528B4A6, 0x0528B4A7, 0x0528B4A8, 0x0528B4A9,
    0x0528B4AA, 0x0528B4AB, 0x0528B4AC, 0x0528B4AD, 0x0528B4AE, 0x0528B4AF].map bare =
    [some (.iadd 2 20 22 37), some (.isub 2 20 22 37), some (.imul
    2 20 22 37), some (.imulhI 2 20 22 37), some (.imulhN 2 20 22 37), some (.iminI 2 20 22 37), some (.imaxI 2 20 22 37), some (.iminN 2 20 22 37), some
    (.imaxN 2 20 22 37), some (.iand 2 20 22 37), some (.ior 2 20 22 37), some (.ixor 2 20 22 37), some (.ishl 2 20 22 37), some (.ishr 2 20 22 37), some
    (.isra 2 20 22 37), some (.irot 2 20 22 37)] := by decide

theorem test_words_02 : [0x0928B000, 0x0928B001, 0x0928B002, 0x0928B003, 0x0928B004, 0x0928B005, 0x0928B4A6, 0x0928B4A7, 0x0928B4A8, 0x0928B4A9,
    0x0928B4AA, 0x0928B4AB, 0x0928B4AC, 0x0928B00D].map bare =
    [some (.iabs 2 20 22), some (.ineg 2 20 22), some (.popc 2 20 22), some (.clz 2 20 22),
    some (.ctz 2 20 22), some (.brev 2 20 22), some (.bfe 2 20 22 37), some (.bfi 2 20 22 37), some (.iaddsI 2 20 22 37), some (.isubsI 2 20 22 37), some
    (.iaddsN 2 20 22 37), some (.isubsN 2 20 22 37), some (.imad 2 20 22 37), some (.mov 2 20 22)] := by decide

theorem test_words_03 : [0x0D28B05A, 0x0D28B15A, 0x0D28B25A, 0x0D28B35A, 0x0D28B41E, 0x0D28B51E, 0x0D28B61E, 0x0D28B75A].map bare =
    [some (.iaddi
    2 20 22 0x5A), some (.iandi 2 20 22 0x5A), some (.iori 2 20 22 0x5A), some (.ixori 2 20 22 0x5A), some (.ishli 2 20 22 0x1E), some (.ishri 2 20 22
    0x1E), some (.israi 2 20 22 0x1E), some (.imuli 2 20 22 0x5A)] := by decide

theorem test_words_04 : [0x11281234, 0x11289234, 0x10291234, 0x10299234].map bare =
    [some (.movk 2 20 0x1234), some (.movh 2 20 0x1234), some
    (.movkS 20 0x1234), some (.movhS 20 0x1234)] := by decide

theorem test_words_05 : [0x1508B4A0, 0x1508B4A1, 0x1508B4A2, 0x1508B4A3, 0x1508B4A4, 0x1508B4A5, 0x1508B4A6, 0x1508B4A7, 0x1508B4A8, 0x1508B4A9,
    0x1508B4AA].map bare =
    [some (.ceq 2 4 22 37), some (.cne 2 4 22 37), some (.cltI 2 4 22 37), some (.cleI 2 4 22 37), some (.cltN 2 4 22 37), some
    (.cleN 2 4 22 37), some (.fceq 2 4 22 37), some (.fcne 2 4 22 37), some (.fclt 2 4 22 37), some (.fcle 2 4 22 37), some (.fcun 2 4 22 37)] := by
    decide

theorem test_words_06 : [0x190A18C0, 0x190A18C1, 0x190A18C2, 0x190A1803, 0x190A1804].map bare =
    [some (.pand 2 5 3 6), some (.por 2 5 3 6), some
    (.pxor 2 5 3 6), some (.pnot 2 5 3), some (.pmov 2 5 3)] := by decide

theorem test_words_07 : [0x1D28B4A0, 0x1D28B4A1, 0x1D28B4A2, 0x1D28B4A3, 0x1D28B4A4, 0x1D28B4A5, 0x1D28B006, 0x1D28B007, 0x1D28B4A8, 0x1D28B009,
    0x1D28B00A, 0x1D28B00B, 0x1D28B00C, 0x1D28B00D, 0x1D28B4AE].map bare =
    [some (.fadd 2 20 22 37), some (.fsub 2 20 22 37), some (.fmul 2 20 22 37),
    some (.ffma 2 20 22 37), some (.fmin 2 20 22 37), some (.fmax 2 20 22 37), some (.fabs 2 20 22), some (.fneg 2 20 22), some (.fdiv 2 20 22 37 0), some
    (.fsqrt 2 20 22 0), some (.ffloor 2 20 22), some (.fceil 2 20 22), some (.ftrunc 2 20 22), some (.fround 2 20 22), some (.fcopysign 2 20 22 37)] := by
    decide

theorem test_words_08 : [0x2128B4A8, 0x2128B4A9, 0x2128B4AA, 0x2128B4AB, 0x2128B4AC, 0x2128B4AD, 0x2128B4AE].map bare =
    [some (.hadd2 2 20 22 37
    true), some (.hsub2 2 20 22 37 true), some (.hmul2 2 20 22 37 true), some (.hfma2 2 20 22 37 true), some (.hmin2 2 20 22 37 true), some (.hmax2 2 20
    22 37 true), some (.hcvt2 2 20 22 37 true)] := by decide

theorem test_words_09 : [0x2528B240, 0x2528B421, 0x2528B122, 0x2528B543].map bare =
    [some (.cvt 2 20 22 18), some (.cvtSat 2 20 22 33), some
    (.cvtEf 2 20 22 9), some (.cvtPack 2 20 22 42)] := by decide

theorem test_words_0A : [0x2928B4A0, 0x2928B4A1, 0x2928B4A2, 0x2928B4A3, 0x2928B4A4, 0x2928B4A5, 0x2928B4A6].map bare =
    [some (.dp4I8 2 20 22 37),
    some (.dp4N8 2 20 22 37), some (.dp8I4 2 20 22 37), some (.dp4E4m3 2 20 22 37), some (.dp4E5m2 2 20 22 37), some (.dp8E2m1 2 20 22 37), some (.fscl 2
    20 22 37)] := by decide

theorem test_words_0B : [0x2D28B4A0, 0x2D28B261, 0x2D28B262, 0x2D28B263, 0x2D28B264, 0x2D282005, 0x2D0E2006, 0x2D0E2007, 0x2D282008, 0x2D28B009,
    0x2D28B00A, 0x2D28B00B, 0x2D28B00C].map bare =
    [some (.shfl 2 20 22 37), some (.shup 2 20 22 19), some (.shdn 2 20 22 19), some (.shx 2 20 22 19),
    some (.bcast 2 20 22 19), some (.ballot 2 20 4), some (.vany 2 7 4), some (.vall 2 7 4), some (.mpfx 2 20 4), some (.redaddI 2 20 22 0), some
    (.redmaxI 2 20 22 0), some (.redaddF 2 20 22 0), some (.redmaxF 2 20 22 0)] := by decide

theorem test_words_0C : [0x3028B4A0, 0x3028B4A1, 0x3028B4A2, 0x3028B4A3, 0x3028B4A4, 0x3028B4A5, 0x3028B4A6, 0x3028B4A7, 0x3028B4A8, 0x3028B4A9,
    0x3028B4AA, 0x3028B4AB, 0x3028B4AC, 0x3128B00D, 0x3028B00E, 0x3028B00F].map bare =
    [some (.sadd 20 22 37), some (.ssub 20 22 37), some (.smul 20
    22 37), some (.sand 20 22 37), some (.sor 20 22 37), some (.sxor 20 22 37), some (.sshl 20 22 37), some (.sshr 20 22 37), some (.ssra 20 22 37), some
    (.smin 20 22 37), some (.smax 20 22 37), some (.rdl 20 22 37), some (.wrl 20 22 37), some (.bcs 2 20 22), some (.spopc 20 22), some (.sclz 20 22)] :=
    by decide

theorem test_words_0D : [0x3428B05A, 0x3428B15A, 0x3428B25A, 0x3428B333, 0x3428B433].map bare =
    [some (.saddi 20 22 0x5A), some (.sandi 20 22
    0x5A), some (.sori 20 22 0x5A), some (.sshli 20 22 0x33), some (.sshri 20 22 0x33)] := by decide

theorem test_words_10 : [0x41123456].map bare =
    [some (.bra 2 1193046)] := by decide

theorem test_words_11 : [0x44123456].map bare =
    [some (.call 1193046)] := by decide

theorem test_words_12 : [0x4800B000, 0x4800B001, 0x4828B4A2, 0x48000003, 0x48000004, 0x49000005, 0x48000006, 0x4856B347, 0x49000008, 0x48015789,
    0x4800000A, 0x4800000B].map bare =
    [some (.ret 22), some (.brx 22), some (.jtab 22 37 20), some (.mark), some (.join), some (.exit 2), some
    (.yield), some (.loop 22 43 2 3), some (.lquit 2), some (.trap 2748), some (.tret), some (.idle)] := by decide

theorem test_words_13 : [0x4C280220, 0x4C2A04C1, 0x4C00B4A2, 0x4C00B4A3, 0x4C00B4A4, 0x4C00B4A5, 0x4C28B006].map bare =
    [some (.rdx 20 17 0), some
    (.wrx 21 38), some (.spinv 22 37), some (.flush 22 37), some (.inv 22 37), some (.hsamp 22 37), some (.xmask 20 22)] := by decide

theorem test_words_18 : [0x6128BD39].map bare =
    [some (.ldG 2 20 11 true 5 3 9 0)] := by decide

theorem test_words_19 : [0x6528BD75].map bare =
    [some (.stG 2 20 11 true 5 7 5 0)] := by decide

theorem test_words_1A : [0x6928BD39].map bare =
    [some (.ldP 2 20 11 true 5 3 9 0)] := by decide

theorem test_words_1B : [0x6D28BD65].map bare =
    [some (.stP 2 20 11 true 5 6 5 0)] := by decide

theorem test_words_1C : [0x7128BD19].map bare =
    [some (.ldB 2 20 11 true 5 1 9 0)] := by decide

theorem test_words_1D : [0x7528BD55].map bare =
    [some (.stB 2 20 11 true 5 5 5 0)] := by decide

theorem test_words_1E : [0x7928BBDE].map bare =
    [some (.atomG 2 20 11 true 7 11 true true 0)] := by decide

theorem test_words_1F : [0x7D28BBD6].map bare =
    [some (.atomP 2 20 11 true 7 10 true true 0)] := by decide

theorem test_words_20 : [0x8128BBCE].map bare =
    [some (.atomB 2 20 11 true 7 9 true true 0)] := by decide

theorem test_words_21 : [0x84001881, 0x84001900, 0x84001A00].map bare =
    [some (.fenceRel 3 129), some (.fenceAcq 3), some (.fenceFull 3)] := by
    decide

theorem test_words_22 : [0x88006800, 0x88006801, 0x88006802, 0x88006CA3, 0x88000004].map bare =
    [some (.barArr 13), some (.barWait 13), some
    (.barSync 13), some (.barCnt 13 37), some (.gbar)] := by decide

theorem test_words_23 : [0x8C08005A, 0x8C08B100].map bare =
    [some (.waitcImm 4 90), some (.waitcReg 4 22)] := by decide

theorem test_words_24 : [0x9028B4A0, 0x9028B4A1, 0x9028B002].map bare =
    [some (.put 20 22 37), some (.get 20 22 37), some (.sig 20 22)] := by
    decide

theorem test_words_28 : [0xA000B4A0, 0xA050B4A1, 0xA050B4A2, 0xA050B4A3, 0xA0500004, 0xA0000005].map bare =
    [some (.mload 22 37), some (.mmul 40
    22 37), some (.mmulz 40 22 37), some (.mst 40 22 37), some (.mclr 40), some (.mbatch)] := by decide

theorem test_words_29 : [0xA40002D5].map bare =
    [some (.setrcp 725)] := by decide

theorem test_words_2A : [0xA800B000, 0xA800B001, 0xA800B002, 0xA800B003, 0xA8280004].map bare =
    [some (.jobCpy 22), some (.jobGth 22), some
    (.jobCol 22), some (.jobMc 22), some (.jobq 20)] := by decide

theorem test_words_2C : [0xB0000000, 0xB0000001, 0xB028B4A2, 0xB000B003, 0xB0281924].map bare =
    [some (.wbrec), some (.wbend), some (.wbseal 20 22
    37), some (.wbdrop 22), some (.ldarg 20 201)] := by decide

/-! ### Words with a header (R69 to R72, R135, R141, R148) -/

/-- The instruction of a slot word under an extension byte. -/
def ext (w : BitVec 32) (e : BitVec 8) : Option Instr := (decodeSlot DecCtx.full { w := w, e := e, hdr := true }).toOption

theorem test_words_ext : ext 0x1C145988 0x03 = some (.fdiv 0 10 11 12 3) ∧ ext 0x0528B4A0 0xE0 = some (.iadd 2 84 86 101) ∧
    ext 0x0D28B05A 0x1F = some (.iaddi 2 20 22 0x1F5A) ∧ ext 0x11281234 0x11 = some (.movk 2 20 0x89234) ∧
    ext 0x60124402 0x24 = some (.ldG 0 9 36 false 4 0 2 4) ∧ ext 0xA000B802 0x00 = some (.mmulz 0 23 0) := by decide

theorem test_worked_words : bare 0x040C1880 = some (.iadd 0 6 3 4) ∧ bare 0x8C080000 = some (.waitcImm 4 0) ∧ bare 0x40800009 = some (.bra 1 9) ∧
    bare 0x4C0A0000 = some (.rdx 5 0 0) ∧ bare 0x4806A447 = some (.loop 20 3 2 4) ∧ bare 0x6014B430 = some (.ldG 0 10 11 false 4 3 0 0) ∧
    bare 0x640CB470 = some (.stG 0 6 11 false 4 7 0 0) ∧ bare 0x4800000A = some .tret ∧ bare 0xA4000011 = some (.setrcp 17) := by decide

theorem test_bundle_limits : (decodeBundle DecCtx.full 0x040C1880 0x040C1880 0 0).toOption = none ∧
    (decodeBundle DecCtx.full 0x040C1880 0x04101880 0 0).toOption.map (fun b => b.slots.length) = some 4 ∧
    (decodeBundle DecCtx.full 0xFE000000 0x040C1880 0 0).toOption.map (fun b => (b.proof, b.slots.length)) = some (true, 3) ∧
    (decodeBundle DecCtx.full 0x040C1880 0xFC000000 0 0).toOption = none := by decide

/-! ### Ill-formed instructions: one for each check of WellFormed -/

/-- A small launch of the control profile. -/
def smallCtx : DecCtx := { prof := .control, regs := 8, bars := 2, nargs := 3 }

theorem smoke_wellFormed : ([.iadd 0 1 2 3, .ldG 3 4 5 true 5 3 9 1, .loop 1 0 0 7, .rdx 100 0x017 0, .cvtEf 0 2 3 9] : List Instr).all
    (wellFormed DecCtx.full) = true := by decide

theorem smoke_illFormed : ([.yieldExpiry 0 0, .ishli 0 1 2 32, .sshli 1 2 64, .cvt 0 1 2 12, .cvt 0 1 2 8, .cvt 0 1 3 10, .cvtSat 0 1 2 2, .cvtEf 0 1 2 9,
    .cvtEf 0 2 2 10, .cvtPack 0 1 2 7, .loop 1 0 0 0, .loop 1 0 2 6, .rdx 5 0x300 0, .rdx 5 0 1, .rdx 64 0 0, .wrx 5 0x300, .ldG 0 1 2 false 7 0 0 0,
    .ldG 0 1 2 false 4 13 0 0, .ldG 0 1 2 false 5 0 0 0, .stG 0 1 2 false 1 0 0 0, .stB 0 1 2 false 3 0 0 0, .atomG 0 1 2 false 12 0 false false 0,
    .atomG 0 1 2 false 0 0 true false 0, .fenceRel 0 1, .fenceRel 1 0, .fenceAcq 5, .fenceFull 0, .waitcImm 7 0, .waitcReg 7 1, .ldarg 1 255,
    .ldG 0 1 2 false 4 5 0 0, .stG 0 1 2 false 4 1 0 0, .atomG 0 1 2 false 0 1 false false 0, .ldP 0 1 2 false 4 4 0 0, .ldB 0 1 2 false 4 3 0 0]
    : List Instr).all (fun i => !wellFormed DecCtx.full i) = true := by decide

theorem smoke_illFormed_small : ([.iadd 0 8 1 2, .ldG 0 7 1 false 5 0 0 0, .barArr 2, .barCnt 3 1, .ldarg 1 3, .ldB 0 1 2 false 4 0 0 0, .mst 0 1 2, .wbrec]
    : List Instr).all (fun i => !wellFormed smallCtx i) = true ∧ wellFormed { smallCtx with prof := .executive } (.exit 1) = false := by decide

/-! ### A string at its bundle -/

/-- A module whose core 0 of die 0 holds one band of one lane string. -/
def w0 : State := State.reset.withFetchWord 32 0
/-- That string. -/
def t0 : Str := w0.strs.headD { band := 0, num := 0 }
/-- A string at its bundle, its registers latched. -/
def bunOf' (t : Str) : Bun := { lat := t, mask := 0xFFFFFFFF#32 }
/-- The module with a string at its bundle. -/
def at' (t : Str) : State := { w0 with strs := [t], bun := some (bunOf' t) }

theorem issuing (t : Str) : Issuing (at' t) t [] (bunOf' t) := ⟨rfl, rfl, rfl, rfl⟩

/-- The head string after an instruction. -/
def after (i : Instr) (t : Str) : Option Str :=
  match exec i (at' t) with
  | .next s => s.strs.head?
  | _ => none

/-- v[1] and v[2] of lane 0 (and of no other lane) hold two words, v[3] a third. -/
def lanes (a b d : Word32) : Str := { t0 with v := (([(32, a), (64, b), (96, d)] : SMap Word32).filter (fun x => x.2 != 0#32)) }

/-- v[3] of lane 0 after an instruction on v[1] and v[2]. -/
def v3 (i : PReg → VReg → VReg → VReg → Instr) (a b : Word32) (d : Word32 := 0) : Option Word32 :=
  (after (i 0 3 1 2) (lanes a b d)).map (fun t => readV t 3 0)
/-- The same for a unary form. -/
def u3 (i : PReg → VReg → VReg → Instr) (a : Word32) : Option Word32 := (after (i 0 3 1) (lanes a 0 0)).map (fun t => readV t 3 0)

/-! ### Single steps: expected values worked out by hand from the rules -/

theorem test_int : v3 .iadd 0xFFFFFFFF 2 = some 1 ∧ v3 .isub 1 2 = some 0xFFFFFFFF ∧ v3 .imulhI 0x80000000 2 = some 0xFFFFFFFF ∧
    v3 .imulhN 0x80000000 2 = some 1 ∧ v3 .iminI 0x80000000 1 = some 0x80000000 ∧ v3 .iminN 0x80000000 1 = some 1 ∧ v3 .ishl 1 32 = some 0 ∧
    v3 .ishl 1 64 = some 1 ∧ v3 .isra 0x80000000 40 = some 0xFFFFFFFF ∧ v3 .irot 0x80000001 1 = some 3 := by decide +kernel

theorem test_bits : u3 .iabs 0x80000000 = some 0x80000000 ∧ u3 .clz 0 = some 32 ∧ u3 .ctz 0x80 = some 7 ∧ u3 .brev 1 = some 0x80000000 ∧
    v3 .bfe 0xABCD1234 0x0810 = some 0xCD ∧ v3 .bfi 0xFF 0x0404 0x12345678 = some 0x123456F8 ∧ v3 .iaddsI 0x7FFFFFFF 1 = some 0x7FFFFFFF ∧
    v3 .isubsN 1 2 = some 0 ∧ v3 .imad 3 4 5 = some 17 := by decide +kernel

theorem test_float : v3 .fadd 0x3F800000 0x40000000 = some 0x40400000 ∧ v3 .fmul 0x40400000 0x40400000 = some 0x41100000 ∧
    v3 .ffma 0x40000000 0x40400000 0x3F800000 = some 0x40E00000 ∧ v3 .fsub 0x7F800000 0x7F800000 = some 0x7FC00000 ∧
    v3 .fmin 0x7FC00000 0x3F800000 = some 0x3F800000 ∧ u3 .ffloor 0xBF000000 = some 0xBF800000 := by decide +kernel

theorem test_inactive_lane : (after (.iadd 1 3 1 2) { lanes 5 6 7 with pr := [(1, 0xFFFFFFFE#32)] }).map (fun t => (readV t 3 0, readV t 3 1)) =
    some (7#32, 0#32) := by decide +kernel

theorem test_source_is_destination : (after (.iadd 0 1 1 1) (lanes 5 0 0)).map (fun t => readV t 1 0) = some 10#32 := by decide +kernel

/-- s[1] and s[2] hold two words. -/
def sregs (a b : Word64) : Str := { t0 with sr := (([(1, a), (2, b)] : SMap Word64).filter (fun x => x.2 != 0#64)) }
/-- s[3] after an instruction on s[1] and s[2]. -/
def s3 (i : SReg → SReg → SReg → Instr) (a b : Word64) : Option Word64 := (after (i 3 1 2) (sregs a b)).map (fun t => readS t 3)

theorem test_scalar : s3 .sadd 0xFFFFFFFFFFFFFFFF 2 = some 1 ∧ s3 .sshl 1 64 = some 0 ∧ s3 .ssra 0x8000000000000000 70 = some 0xFFFFFFFFFFFFFFFF := by decide +kernel

theorem test_s0_takes_no_write : (after (.sadd 0 1 2) (sregs 5 6)).map (fun t => readS t 0) = some 0#64 := by decide +kernel

theorem test_step_movk : (match step (State.reset.withFetchWord 32 0x100F1234) with
    | .next s => s.strs.head?.map (fun t => (readS t 7, t.slotA.map (fun p => p.pc)))
    | _ => none) = some (0x1234#64, some 16#64) := by decide +kernel

theorem test_step_bra_back : (match step (State.reset.withFetchWord 32 0x40000000) with
    | .next s => s.strs.head?.map (fun t => t.slotA.map (fun p => p.pc))
    | _ => none) = some (some 0#64) := by decide +kernel

theorem test_step_opcode_without_handler : (match step (State.reset.withFetchWord 32 0xD0000000) with
    | .next s => s.bands.map (fun b => b.place)
    | _ => []) = [.killed 0] := by decide +kernel


/-! ### Witnesses: for each statement with hypotheses, states and operands that meet them

Lane instructions: any state whose run list has a head; lanes 0 and 31 active under p0, lane 0 inactive and lane 31 active under p1. -/

/-- v[1] of lanes 0 and 31, v[2] of lane 0, and p[1] without lane 0. -/
def tw : Str := { t0 with v := [(32, 0x7F800000#32), (63, 5#32), (64, 0x7F800000#32)], pr := [(1, 0xFFFFFFFE#32)] }

/-- The head of the state, as every lane, predicate and scalar statement asks for it. -/
theorem wit_IntegerLanes : (at' tw).strs = tw :: [] ∧ (activeMask ((at' tw).bunOf tw) 0).getLsbD 0 = true ∧
    (activeMask ((at' tw).bunOf tw) 0).getLsbD 31 = true ∧ (activeMask ((at' tw).bunOf tw) 1).getLsbD 0 = false ∧
    (activeMask ((at' tw).bunOf tw) 1).getLsbD 31 = true := ⟨rfl, by decide +kernel⟩

theorem wit_ImmediatesAndConstants : (at' tw).strs = tw :: [] ∧ (31#13).toNat < 32 ∧ (0#13).toNat < 32 := ⟨rfl, by decide, by decide⟩

theorem wit_Compares : (at' tw).strs = tw :: [] ∧ fpTraps ((at' tw).bunOf tw).lat (laneFlags ((at' tw).bunOf tw) 0 (from2 1 2 (fun (A _ : Word32) =>
    if (fp32.dec A.toNat).isSnan then flNV else 0#5))) = 0#5 := ⟨rfl, by decide +kernel⟩

/-- Infinity minus infinity sets NV, which has no trap enabled. -/
theorem wit_FloatAndPackedArithmetic : (at' tw).strs = tw :: [] ∧
    laneFlags ((at' tw).bunOf tw) 0 (fun t => from2 1 2 (fun A B => (fSub fp32 (modeIn t) (fp32.dec A.toNat) (fp32.dec B.toNat)).fl) t) = flNV ∧
    fpTraps ((at' tw).bunOf tw).lat (laneFlags ((at' tw).bunOf tw) 0
      (fun t => from2 1 2 (fun A B => (fSub fp32 (modeIn t) (fp32.dec A.toNat) (fp32.dec B.toNat)).fl) t)) = 0#5 ∧
    fpTraps ((at' tw).bunOf tw).lat (laneFlags ((at' tw).bunOf tw) 1 (fun t => from2 1 2 (fun A B =>
      (fMul (packFmt true) (modeIn t) ((packFmt true).dec (A.toNat % 65536)) ((packFmt true).dec (B.toNat % 65536))).fl) t)) = 0#5 :=
  ⟨rfl, by decide +kernel⟩

theorem wit_ConversionsAndBlocks : (at' tw).strs = tw :: [] ∧
    fpTraps ((at' tw).bunOf tw).lat (laneFlags ((at' tw).bunOf tw) 0 (from1 1 (fun A => (toInteger .rne false (-2 ^ 31) (2 ^ 31 - 1) A.toNat).2))) = 0#5 ∧
    ([0, 1, 2, 3, 4, 5, 6, 7, 8, 9, 10, 11].map (fun c => selCode (BitVec.ofNat 6 c)) = [0, 1, 2, 3, 4, 5, 6, 7, 8, 9, 10, 11]) ∧
    ((31#6).toNat < 32 ∧ 32 ≤ (60#6).toNat ∧ (60#6).toNat % 4 = 0 ∧ 32 ≤ (61#6).toNat ∧ (61#6).toNat % 4 = 1 ∧ 32 ≤ (34#6).toNat ∧ (34#6).toNat % 4 = 2) :=
  ⟨rfl, by decide +kernel, by decide, by decide⟩

theorem wit_NarrowResult : (at' tw).strs = tw :: [] ∧ fpTraps ((at' tw).bunOf tw).lat (laneFlags ((at' tw).bunOf tw) 0
    (fun _ l => (groupBlock ((at' tw).bunOf tw).lat (activeMask ((at' tw).bunOf tw) 0) 1 (16 * (l / 16)) true true).fl)) = 0#5 := ⟨rfl, by decide +kernel⟩

theorem wit_DotProductsShufflesVotes : (at' tw).strs = tw :: [] ∧ fpTraps ((at' tw).bunOf tw).lat (laneFlags ((at' tw).bunOf tw) 0
    (fun t => from3 1 2 3 (fun A B D => (dotFp e4m3 4 8 (modeIn t) A.toNat B.toNat D.toNat).fl) t)) = 0#5 := ⟨rfl, by decide +kernel⟩

theorem wit_ScalarsAndLanes : (at' tw).strs = tw :: [] ∧ (at' { tw with lanes := 1 }).strs = { tw with lanes := 1 } :: [] := ⟨rfl, rfl⟩

/-- With active lanes, a division of infinities; and with none, under p2, which is clear. -/
theorem wit_LongLatencyLanes : Issuing (at' tw) tw [] (bunOf' tw) ∧ activeMask (bunOf' tw) 0 ≠ 0#32 ∧
    fpTraps tw (laneFlags (bunOf' tw) 0 (fun t l => (fDiv fp32 (modeIn t) (fp32.dec (readV t 1 l).toNat) (fp32.dec (readV t 2 l).toNat)).fl)) = 0#5 ∧
    activeMask (bunOf' tw) 2 = 0#32 := ⟨issuing tw, by decide +kernel⟩

/-! Traps and control flow. -/

/-- `tw` with the NV trap enabled and bench bounds 64 to 256. -/
def tf : Str := { tw with stat := 0x20000#64, benchb := 64#64, benchl := 256#64, v := [(32, 0x7F800000#32), (64, 0xFF800000#32), (65, 66#32)] }

/-- The flags with an enabled trap that some lane results set together. -/
def enabled (t : Str) (g : PReg) (fl : Bun → Nat → Flags) : Flags := laneFlags (bunOf' t) g (fun _ l => fl (bunOf' t) l) &&& fen t

/-- A signalling NaN in v[1] of lane 0. -/
def tn : Str := { tf with v := [(32, 0x7F800001#32), (64, 0x3F800000#32), (96, 0x7F817F81#32)] }

/-- A sum, a product; of a signalling NaN an ordered compare, a pair of halves, a conversion, a block, a reduction. -/
theorem wit_FpTrap : Issuing (at' tf) tf [] (bunOf' tf) ∧ tm0 tf = false ∧
    (enabled tf 0 (fun bu l => (from2 1 2 (fun A B => fAdd fp32 (modeIn bu.lat) (fp32.dec A.toNat) (fp32.dec B.toNat)) bu.lat l).fl) ≠ 0#5 ∧
      enabled tf 0 (fun bu l => (from2 1 3 (fun A B => fMul fp32 (modeIn bu.lat) (fp32.dec A.toNat) (fp32.dec B.toNat)) bu.lat l).fl) ≠ 0#5) ∧
    Issuing (at' tn) tn [] (bunOf' tn) ∧ tm0 tn = false ∧
    (enabled tn 0 (fun bu => from2 1 2 (fun A B => if (fp32.dec A.toNat).isNan || (fp32.dec B.toNat).isNan then flNV else 0#5) bu.lat) ≠ 0#5 ∧
      enabled tn 0 (fun bu l => (from2 3 2 (fun A B => fAdd (packFmt false) (modeIn bu.lat) ((packFmt false).dec (A.toNat % 65536)) ((packFmt false).dec (B.toNat % 65536))) bu.lat l).fl) ≠ 0#5 ∧
      enabled tn 0 (fun bu => from1 1 (fun A => (toInteger .rne false (-2 ^ 31) (2 ^ 31 - 1) A.toNat).2) bu.lat) ≠ 0#5 ∧
      enabled tn 0 (fun bu l => (groupBlock bu.lat (activeMask bu 0) 1 (16 * (l / 16)) true false).fl) ≠ 0#5 ∧
      enabled tn 0 (fun bu _ => (treeOf bu.lat (activeMask bu 0) 1 (fun x y => minMax fp32 false x y)).fl) ≠ 0#5) :=
  ⟨issuing tf, by decide +kernel, ⟨by decide +kernel, by decide +kernel⟩, issuing tn, by decide +kernel⟩

/-- Lane 1 alone at address 66, which is no multiple of 4; lane 2 alone at address 0, below the bounds. -/
theorem wit_AccessTraps :
    (let t := { tf with pr := [(1, 2#32)] }
     Issuing (at' t) t [] (bunOf' t) ∧ lanesOf (activeMask (bunOf' t) 1) = 1 :: [] ∧ (laneAddr t 1 true 0 4 1).toNat % 4 ≠ 0) ∧
    (let t := { tf with pr := [(1, 4#32)] }
     Issuing (at' t) t [] (bunOf' t) ∧ lanesOf (activeMask (bunOf' t) 1) = 2 :: [] ∧ (laneAddr t 1 true 0 4 2).toNat % 4 = 0 ∧
       (laneAddr t 1 true 0 4 2).toNat < t.benchb.toNat) ∧
    (let t := { tf with pr := [(1, 4#32)], v := [(66, 256#32)] }
     lanesOf (activeMask (bunOf' t) 1) = 2 :: [] ∧ (laneAddr t 1 true 0 4 2).toNat % 4 = 0 ∧ t.benchl.toNat < (laneAddr t 1 true 0 4 2).toNat + 4) ∧
    (let t := { tf with pr := [(1, 4#32)], v := [(66, 252#32)] }
     lanesOf (activeMask (bunOf' t) 1) = 2 :: [] ∧ (laneAddr t 1 true 0 8 2).toNat % 8 ≠ 0) ∧
    (let t := { tf with pr := [(1, 4#32)], v := [(66, 256#32)] }
     (laneAddr t 1 true 0 8 2).toNat % 8 = 0 ∧ t.benchl.toNat < (laneAddr t 1 true 0 8 2).toNat + 8) :=
  ⟨⟨issuing _, by decide +kernel, by decide +kernel⟩, ⟨issuing _, by decide +kernel⟩,
   by decide +kernel, ⟨by decide +kernel, by decide +kernel⟩, by decide +kernel, by decide +kernel⟩

/-- A full divergence stack. -/
def full256 : Str := { tw with stack := List.replicate 256 (.path 0#64 1#32) }

/-- p2 taken by no lane, p0 by all, p1 by some; with slot B empty, or full with a stack that has room, or that has none. -/
theorem wit_Branches : Issuing (at' tw) tw [] (bunOf' tw) ∧ noTear (at' tw) (bunOf' tw) (tw.wbOpen && !(guardTaint (bunOf' tw) 1).isEmpty) ∧
    activeMask (bunOf' tw) 2 = 0#32 ∧
    (activeMask (bunOf' tw) 0 ≠ 0#32 ∧ (bunOf' tw).mask &&& ~~~(activeMask (bunOf' tw) 0) = 0#32) ∧
    (activeMask (bunOf' tw) 1 ≠ 0#32 ∧ (bunOf' tw).mask &&& ~~~(activeMask (bunOf' tw) 1) ≠ 0#32 ∧ ((slotOf tw true).isSome || suspended tw true) = false) ∧
    (let t := { tw with slotB := some { pc := 0#64, mask := 1#32 } }
     activeMask (bunOf' t) 1 ≠ 0#32 ∧ (bunOf' t).mask &&& ~~~(activeMask (bunOf' t) 1) ≠ 0#32 ∧ ((slotOf t true).isSome || suspended t true) = true ∧
       t.stack.length < 256) ∧
    (let t := { full256 with slotB := some { pc := 0#64, mask := 1#32 } }
     Issuing (at' t) t [] (bunOf' t) ∧ activeMask (bunOf' t) 1 ≠ 0#32 ∧ (bunOf' t).mask &&& ~~~(activeMask (bunOf' t) 1) ≠ 0#32 ∧
       ((slotOf t true).isSome || suspended t true) = true ∧ 256 ≤ t.stack.length) :=
  ⟨issuing tw, by unfold noTear; decide +kernel, by decide +kernel, ⟨by decide +kernel, by decide +kernel⟩, by decide +kernel,
   by decide +kernel,
   ⟨issuing _, by decide +kernel⟩⟩

theorem wit_CallsReturns : Issuing (at' tw) tw [] (bunOf' tw) ∧ noTear (at' tw) (bunOf' tw) (tw.wbOpen && tagS tw 3 != .plan) := ⟨issuing tw, by unfold noTear; decide +kernel⟩

/-- A rejoin record that expects lanes 0 to 15, of which `arr` have arrived. -/
def rej (arr : Word32) : Str := { tw with stack := [.rejoin arr 0#32 0xFFFF#32] }
/-- The state with that string, its path holding `m`. -/
def atMask (t : Str) (m : Word32) : State := { w0 with strs := [t], bun := some { bunOf' t with mask := m } }

theorem issuingMask (t : Str) (m : Word32) : Issuing (atMask t m) t [] { bunOf' t with mask := m } := ⟨rfl, rfl, rfl, rfl⟩

/-- A path record above a rejoin record that expects lanes 0 to 15. -/
def under (arr : Word32) : Str := { tw with stack := [.path 16#64 0xF000000#32, .rejoin arr 0#32 0xFFFF#32] }

/-- `mark` with room and with none; `join` without a record, completing one, with lanes that pass, and with none; the same under a path record. -/
theorem wit_MarksJoins : Issuing (at' tw) tw [] (bunOf' tw) ∧ tw.stack.length < 256 ∧ (∀ r ∈ tw.stack, ∃ pc m, r = .path pc m) ∧
    (Issuing (at' full256) full256 [] (bunOf' full256) ∧ 256 ≤ full256.stack.length) ∧
    (rej 0xFF).stack = [] ++ .rejoin 0xFF#32 0#32 0xFFFF#32 :: [] ∧ (under 0xFF).stack = [.path 16#64 0xF000000#32] ++ .rejoin 0xFF#32 0#32 0xFFFF#32 :: [] ∧
    (∀ r ∈ [Rec.path 16#64 0xF000000#32], ∃ pc m, r = .path pc m) ∧ suspended (under 0xFF) false = false ∧
    ∀ t ∈ [rej 0xFF, under 0xFF], Issuing (at' t) t [] (bunOf' t) ∧ (0xFF#32 ||| (0xFFFFFFFF#32 &&& 0xFFFF#32)) = 0xFFFF#32 ∧
      (Issuing (atMask t 0xF0000#32) t [] { bunOf' t with mask := 0xF0000#32 } ∧ 0xFF#32 ≠ 0xFFFF#32 ∧ 0xF0000#32 &&& 0xFFFF#32 = 0#32) ∧
      (Issuing (atMask t 0xF0100#32) t [] { bunOf' t with mask := 0xF0100#32 } ∧ 0xFF#32 ||| (0xF0100#32 &&& 0xFFFF#32) ≠ 0xFFFF#32 ∧
        0xFF#32 ||| (0xF0100#32 &&& 0xFFFF#32) ≠ 0xFF#32 ∧ 0xF0100#32 &&& ~~~0xFFFF#32 ≠ 0#32) ∧
      (Issuing (atMask t 0x100#32) t [] { bunOf' t with mask := 0x100#32 } ∧ 0xFF#32 ||| (0x100#32 &&& 0xFFFF#32) ≠ 0xFFFF#32 ∧
        0xFF#32 ||| (0x100#32 &&& 0xFFFF#32) ≠ 0xFF#32 ∧ 0x100#32 &&& ~~~0xFFFF#32 = 0#32) :=
  ⟨issuing tw, by decide +kernel, fun r h => absurd h (by decide +kernel +revert), ⟨issuing _, by decide +kernel⟩, rfl, rfl,
   fun r h => ⟨_, _, List.mem_singleton.mp h⟩, by decide +kernel,
   fun t _ => ⟨issuing t, by decide, ⟨issuingMask t _, by decide, by decide⟩, ⟨issuingMask t _, by decide, by decide, by decide⟩, issuingMask t _, by decide, by decide, by decide⟩⟩

/-- `exit` of no lane, with traps masked, with an empty stack, and of the last lanes with a path on the stack. -/
theorem wit_Exits : Issuing (at' tw) tw [] (bunOf' tw) ∧ noTear (at' tw) (bunOf' tw) (tw.wbOpen && !(guardTaint (bunOf' tw) 0).isEmpty) ∧
    activeMask (bunOf' tw) 2 = 0#32 ∧ (activeMask (bunOf' tw) 0 ≠ 0#32 ∧ tm0 tw = false ∧ tw.stack = []) ∧
    (let t := { tw with stat := 0x40000#64 }
     Issuing (at' t) t [] (bunOf' t) ∧ activeMask (bunOf' t) 0 ≠ 0#32 ∧ tm0 t = true) ∧
    (let t := { tw with stack := [.path 16#64 1#32] }
     Issuing (at' t) t [] (bunOf' t) ∧ activeMask (bunOf' t) 0 ≠ 0#32 ∧ tm0 t = false ∧ (bunOf' t).mask &&& ~~~(activeMask (bunOf' t) 0) = 0#32 ∧
       suspended t false = false ∧ t.stack = .path 16#64 1#32 :: [] ∧ ∀ r ∈ ([] : List Rec), ∃ pc m, r = .path pc m) :=
  ⟨issuing tw, by unfold noTear; decide +kernel, by decide +kernel, by decide +kernel,
   ⟨issuing _, by decide +kernel, by decide +kernel⟩,
   ⟨issuing _, by decide +kernel, by decide +kernel, by decide +kernel, by decide +kernel, rfl, fun r h => absurd h (by simp)⟩⟩

/-- The stack after `exit g`, as R42 counts the lanes that leave, and whether its top record was completed. -/
def dropped (t : Str) (gone : Word32) : List Rec × Bool :=
  let drop := fun (r : Rec) => match r with
    | .path pc m => Rec.path pc m
    | .rejoin arr j e => if arr = e &&& ~~~gone ∧ e &&& ~~~gone ≠ 0#32 then .path ((at' t).baseOf t + ((j.zeroExtend 64 + 1#64) <<< 4)) (e &&& ~~~gone) else .rejoin arr j (e &&& ~~~gone)
  (t.stack.map drop, t.stack.head?.any (fun (r : Rec) => match r, drop r with | .rejoin _ _ _, .path _ _ => true | _, _ => false))

/-- Lanes 1 to 31 leave by p1 and lane 0 stays, the top record expecting lane 0 from now on, which has arrived, or lanes 0 and 1; and all
lanes leave, with a record that is then empty over a path, or over nothing. -/
theorem wit_ExitsOverRecords :
    (let t := { tw with stack := [.rejoin 1#32 3#32 0xFF#32] }
     Issuing (at' t) t [] (bunOf' t) ∧ noTear (at' t) (bunOf' t) (t.wbOpen && !(guardTaint (bunOf' t) 1).isEmpty) ∧ activeMask (bunOf' t) 1 ≠ 0#32 ∧ tm0 t = false ∧
       (bunOf' t).mask &&& ~~~activeMask (bunOf' t) 1 ≠ 0#32 ∧ dropped t (activeMask (bunOf' t) 1) = ([.path 64#64 1#32], true) ∧
       ((slotOf t true).isNone && !suspended t true) = true ∧ ({ t with slotB := some { pc := 0#64, mask := 1#32 } } : Str).slotB.isNone = false) ∧
    (let t := { tw with stack := [.rejoin 0#32 3#32 0xFF#32] }
     Issuing (at' t) t [] (bunOf' t) ∧ (bunOf' t).mask &&& ~~~activeMask (bunOf' t) 1 ≠ 0#32 ∧ (dropped t (activeMask (bunOf' t) 1)).2 = false) ∧
    (let t := { tw with stack := [.rejoin 0#32 3#32 0xFF#32, .path 16#64 1#32] }
     Issuing (at' t) t [] (bunOf' t) ∧ (bunOf' t).mask &&& ~~~activeMask (bunOf' t) 0 = 0#32 ∧ suspended t false = false ∧
       (dropped t (activeMask (bunOf' t) 0)).1 = [.rejoin 0#32 3#32 0#32, .path 16#64 1#32]) ∧
    (let t := { tw with stack := [.rejoin 0#32 3#32 0xFF#32] }
     (bunOf' t).mask &&& ~~~activeMask (bunOf' t) 0 = 0#32 ∧ (dropped t (activeMask (bunOf' t) 0)).1 = [.rejoin 0#32 3#32 0#32]) :=
  ⟨⟨issuing _, by unfold noTear; decide +kernel, by decide +kernel, by decide +kernel, by decide +kernel, by decide +kernel, by decide +kernel, rfl⟩,
   ⟨issuing _, by decide +kernel, by decide +kernel⟩, ⟨issuing _, by decide +kernel⟩, by decide +kernel, by decide +kernel⟩

/-- A bundle of slot A, and one of slot B. -/
theorem wit_NopYieldIdle : (Issuing (at' tw) tw [] (bunOf' tw) ∧ (bunOf' tw).slotB = false) ∧
    Issuing { at' tw with bun := some { bunOf' tw with slotB := true } } tw [] { bunOf' tw with slotB := true } := ⟨⟨issuing tw, rfl⟩, rfl, rfl, rfl, rfl⟩

/-- A loop already active; a count of 0 and a count of 3 with Q + K1 = 7; `lquit` outside a body, and inside one. -/
theorem wit_LoopsStartAndQuit :
    (let t := { tw with loop := { act := true } }
     Issuing (at' t) t [] (bunOf' t) ∧ t.loop.act = true) ∧
    (let t := { tw with sr := [(1, 0x500000003#64)] }
     Issuing (at' t) t [] (bunOf' t) ∧ t.loop.act = false ∧ noTear (at' t) (bunOf' t) (t.wbOpen && tagS t 1 != .plan) ∧
       ((readS t 2).extractLsb' 0 32).toNat = 0 ∧ ((readS t 1).extractLsb' 0 32).toNat ≠ 0 ∧ (3#3 : BitVec 3) ≠ 0#3 ∧ (3#3).toNat + (4#3).toNat ≤ 7) ∧
    (Issuing (at' tw) tw [] (bunOf' tw) ∧ inBody tw false ((at' tw).idxOf tw 0#64).toNat = false) ∧
    (let t := { tw with loop := { act := true, n1 := 2, base := 0 } }
     let bu := { bunOf' t with pc := 16#64 }
     Issuing { at' t with bun := some bu } t [] bu ∧ inBody t false (({ at' t with bun := some bu } : State).idxOf t 16#64).toNat = true ∧
       noTear { at' t with bun := some bu } bu (t.wbOpen && !(guardTaint bu 1).isEmpty) ∧ activeMask bu 2 = 0#32 ∧ activeMask bu 1 ≠ 0#32) :=
  ⟨⟨issuing _, rfl⟩, ⟨issuing _, rfl, by unfold noTear; decide +kernel, by decide +kernel, by decide +kernel, by decide, by decide⟩,
   ⟨issuing _, by decide +kernel⟩, ⟨rfl, rfl, rfl, rfl⟩, by decide +kernel, by unfold noTear; decide +kernel, by decide +kernel, by decide +kernel⟩

/-- The module with the bale of eight bundles, so that a handler may stand at bundle 1. -/
def atBale (t : Str) : State := { at' t with bales := w0.bales.map (fun (b : Bale) => { b with len := 8 }) }
/-- The band of the string. -/
def bd0 : Band := w0.bands.headD { id := 0, launch := 0, index := 0, ctx := 0, die := 0, prof := .lane }

theorem issuingBale (t : Str) : Issuing (atBale t) t [] (bunOf' t) := ⟨rfl, rfl, rfl, rfl⟩

/-- The entry of span 0 in context 0's fixed map. -/
def ent0 : Word64 := 0x8000070000000000#64

/-- A table of two entries at address 64, lane 0 taking index 1 (and 2, which is out of range). -/
def tj (i : Word32) : Str := { t0 with v := [(32, i)], sr := [(2, 64#64), (3, 2#64)] }

theorem wit_JumpTables :
    (let t := tj 2
     Issuing (at' t) t [] (bunOf' t) ∧ (lanesOf (bunOf' t).mask).find? (fun l => decide ((readV t 1 l).toInt < 0) || decide (((readS t 3).toNat : Int) ≤ (readV t 1 l).toInt)) = some 0) ∧
    (let t := tj 0xFFFFFFFF
     (lanesOf (bunOf' t).mask).find? (fun l => decide ((readV t 1 l).toInt < 0) || decide (((readS t 3).toNat : Int) ≤ (readV t 1 l).toInt)) = some 0) ∧
    (let t := tj 1
     Issuing (at' t) t [] (bunOf' t) ∧ (lanesOf (bunOf' t).mask).find? (fun l => decide ((readV t 1 l).toInt < 0) || decide (((readS t 3).toNat : Int) ≤ (readV t 1 l).toInt)) = none ∧
       (bunOf' t).mask ≠ 0#32 ∧ noTear (at' t) (bunOf' t) (t.wbOpen && (lanesOf (bunOf' t).mask).any (fun l => tagV t 1 l != .plan)) ∧
       sortNats ((lanesOf (bunOf' t).mask).map (fun l => (readV t 1 l).toNat)) = [0, 1] ∧ t.jt = none ∧ fullPath t [2] = none) ∧
    (let s1 := (jtabCheck (at' (tj 1)) (tj 1) 64#64 [0, 1] []).1
     jtabCheck (at' (tj 1)) (tj 1) 64#64 [0, 1] [] = (s1, .ok [(0, ent0)]) ∧ case6 s1 (tj 1) [(0, ent0)] [{ sp := .glob, a := 64, n := 4 }, { sp := .glob, a := 68, n := 4 }] = false) ∧
    (let t := { tj 1 with jt := some (false, [(0, 5), (1, 5)]) }
     Issuing (at' t) t [] (bunOf' t) ∧ t.stack.length ≤ 256 ∧
       ∀ l, l < 32 → (([(0, 5), (1, 5)] : List (Nat × Nat)).find? (fun y => y.1 == (readV t 1 l).toNat)).map (fun y => y.2) = some 5) ∧
    (let vals : List (Nat × Nat) := [(0, 5), (1, 6)]
     let tgt := fun (t : Str) (l : Nat) => ((vals.find? (fun z => z.1 == (readV t 1 l).toNat)).map (fun z => z.2)).getD 0
     let t := { tj 1 with jt := some (false, vals) }
     let t2 := { t with slotB := some { pc := 0#64, mask := 1#32 } }
     let t3 := { t2 with stack := List.replicate 256 (.path 0#64 1#32) }
     (∀ u ∈ [t, t2, t3], Issuing (at' u) u [] (bunOf' u) ∧ u.jt = some (false, vals)) ∧
       (∀ u ∈ [t, t2, t3], (lanesOf (bunOf' u).mask).find? (fun l => decide ((readV u 1 l).toInt < 0) || decide (((readS u 3).toNat : Int) ≤ (readV u 1 l).toInt)) = none ∧
         sortNats ((lanesOf (bunOf' u).mask).map (tgt u)) = 5 :: 6 :: []) ∧
       ((slotOf t true).isSome || suspended t true) = false ∧ ((slotOf t2 true).isSome || suspended t2 true) = true ∧ t2.stack.length + 1 ≤ 256 ∧
       ((slotOf t3 true).isSome || suspended t3 true) = true ∧ 256 < t3.stack.length + 1) :=
  ⟨⟨issuing _, by decide +kernel⟩, by decide +kernel,
   ⟨issuing _, by decide +kernel, by decide +kernel, by unfold noTear; decide +kernel, by decide +kernel⟩,
   ⟨Prod.ext rfl rfl, by decide +kernel⟩, ⟨issuing _, by decide +kernel, by decide +kernel⟩,
   fun u hu => ⟨issuing u, by simp only [List.mem_cons, List.not_mem_nil, or_false] at hu; rcases hu with rfl | rfl | rfl <;> rfl⟩, by decide +kernel⟩

/-- A string with a handler at bundle 1. -/
def th : Str := { t0 with xtvec := 16#64 }

theorem wit_TrapEntersHandler : (atBale th).str? th.band 0 = some th ∧ (atBale th).band? th.band = some bd0 ∧ bd0.prof ≠ .executive ∧ tm0 th = false ∧
    (rollStr th []).xtvec ≠ 0#64 ∧ inBale (atBale th) bd0.bale (rollStr th []).xtvec = true ∧
    (atBale th).ops.filter (fun (o : Op) => undoneBy th.band 0 th.rp.seq o && !o.sent) = [] ∧
    slotOf (rollStr th []) (rollStr th []).slotA.isNone = some { pc := 0#64, mask := 0xFFFFFFFF#32 } := by decide +kernel

/-- Killed because its traps are masked, and because it has no handler. -/
theorem wit_TrapKills : ((at' { th with stat := 0x40000#64 }).str? th.band 0 = some { th with stat := 0x40000#64 } ∧
    (at' th).band? th.band = some bd0 ∧ bd0.prof ≠ .executive ∧ bd0.place = .resident 0 ∧ tm0 { th with stat := 0x40000#64 } = true) ∧
    (at' t0).str? t0.band 0 = some t0 ∧ (rollStr t0 []).xtvec = 0#64 := by decide +kernel

theorem wit_TrapRaisesBreak : Issuing (atBale th) th [] (bunOf' th) ∧ (atBale th).band? th.band = some bd0 ∧ bd0.prof ≠ .executive ∧ tm0 th = false ∧
    (rollStr th []).xtvec ≠ 0#64 ∧ inBale (atBale th) bd0.bale (rollStr th []).xtvec = true ∧
    slotOf (rollStr th []) (rollStr th []).slotA.isNone = some { pc := 0#64, mask := 0xFFFFFFFF#32 } :=
  ⟨issuingBale th, by decide +kernel⟩

/-- A string in its handler, entered with all lanes at depth `h`. -/
def tr (c : Word64) (h : Nat) : Str := { t0 with stat := 0x40000#64, inTrap := true, xtcause := c, hdepth := h, stack := [.path 0#64 1#32] }

theorem wit_TrapReturn : (Issuing (at' t0) t0 [] (bunOf' t0) ∧ tm0 t0 = false) ∧
    (let t := tr 0x100000000 1
     Issuing (at' t) t [] (bunOf' t) ∧ tm0 t = true ∧ (bunOf' t).mask ≠ t.xtcause.extractLsb' 32 32) ∧
    (let t := tr 0xFFFFFFFF00000000 0
     Issuing (at' t) t [] (bunOf' t) ∧ tm0 t = true ∧ t.hdepth < t.stack.length) ∧
    (let t := tr 0xFFFFFFFF00000000 1
     Issuing (at' t) t [] (bunOf' t) ∧ tm0 t = true ∧ (bunOf' t).mask = t.xtcause.extractLsb' 32 32 ∧ t.stack.length ≤ t.hdepth) :=
  ⟨⟨issuing _, by decide +kernel⟩, ⟨issuing _, by decide +kernel, by decide +kernel⟩, ⟨issuing _, by decide +kernel, by decide +kernel⟩,
   ⟨issuing _, by decide +kernel⟩⟩

/-- xtvec of a string without system rights, xlane of a lane string, the clock, and xspan with system rights. -/
theorem wit_ReadingSystemRegisters : Issuing (at' t0) t0 [] (bunOf' t0) ∧ (0x001#10 : BitVec 10) ≠ 0x041#10 ∧ (0x001#10 : BitVec 10) ≠ 0x017#10 ∧
    sysLong (0x001#10).toNat = false ∧ (at' t0).profOf t0 = .lane ∧ sysLong (0x042#10).toNat = true ∧ (0x042#10 : BitVec 10) ≠ 0x041#10 ∧
    modeOf { t0 with stat := 0x10#64 } = true ∧ (at' t0).band? t0.band = some bd0 ∧ bd0.prof = .lane ∧ bd0.prof ≠ .executive :=
  ⟨issuing t0, by decide, by decide, by decide +kernel, by decide +kernel, by decide +kernel, by decide, by decide +kernel⟩

/-- The launch, the bale, the context, the site and the core of the string's band; the band's place; a span selector whose context has a base. -/
theorem wit_SystemRegisterFields : (at' t0).band? t0.band = some bd0 ∧ bd0.prof = .lane ∧ bd0.place = .resident 0 ∧ ((at' t0).launch? bd0.launch).isSome = true ∧
    ((at' t0).bale? bd0.bale).isSome = true ∧ ((at' t0).site? bd0.die).isSome = true ∧ ((at' t0).core? bd0.die 0).isSome = true ∧
    ((at' t0).ctx? bd0.ctx).isSome = true ∧ ((at' t0).ctx? t0.spanSel.toNat).map (fun (c : Ctx) => c.spanBase.extractLsb' 52 12) = some 0#12 ∧
    ({ bd0 with prof := .control } : Band).prof = .control := by decide +kernel

theorem wit_WritingSystemRegisters : Issuing (at' t0) t0 [] (bunOf' t0) ∧ (at' t0).band? t0.band = some bd0 ∧ bd0.prof = .lane ∧
    (0x020 ≤ (0x020#10).toNat ∧ (0x023#10).toNat ≤ 0x023) ∧ (0x024 ≤ (0x024#10).toNat ∧ (0x027#10).toNat ≤ 0x027) ∧
    (0x010 ≤ (0x010#10).toNat ∧ (0x01A#10).toNat ≤ 0x01A) ∧
    (let t := { t0 with stat := 0x10#64, sr := [(1, 0x5000000000020000#64)] }
     let s := { at' t with ctxs := { id := 0x500 } :: (at' t).ctxs }
     Issuing s t [] (bunOf' t) ∧ modeOf t = true ∧ (readS t 1).extractLsb' 52 12 ≠ 0#12 ∧ (readS t 0).extractLsb' 52 12 = 0#12 ∧
       s.ctx? ((readS t 1).extractLsb' 52 12).toNat = some { id := 0x500 } ∧ (0 : Nat) ≠ 0x500) ∧
    ({ bd0 with prof := .executive } : Band).prof = .executive := ⟨issuing t0, by decide +kernel, by decide +kernel, by decide, by decide, by decide, ⟨⟨rfl, rfl, rfl, rfl⟩, by decide +kernel⟩, rfl⟩

/-- With user rights and with system rights, in context 0, which is not confidential. -/
theorem wit_Privileged : (Issuing (at' t0) t0 [] (bunOf' t0) ∧ modeOf t0 = false) ∧
    (let t := { t0 with stat := 0x10#64 }
     Issuing (at' t) t [] (bunOf' t) ∧ modeOf t = true) ∧
    (at' t0).band? t0.band = some bd0 ∧ bd0.prof ≠ .executive ∧ (at' t0).ctx? bd0.ctx = some { id := 0, pool := 268435456 } :=
  ⟨⟨issuing _, by decide +kernel⟩, ⟨issuing _, by decide +kernel⟩, by decide +kernel⟩

/-- A string whose s[1] and s[2] give the range of a `flush`. -/
def tr2 (x n : Word64) : Str := { t0 with sr := [(1, x), (2, n)] }

theorem wit_FlushInv : (Issuing (at' (tr2 64 128)) (tr2 64 128) [] (bunOf' (tr2 64 128)) ∧ (readS (tr2 64 128) 1).toNat % 128 ≠ 0) ∧
    (readS (tr2 0 129) 2).toNat % 128 ≠ 0 ∧ 2 ^ 24 < (readS (tr2 0 0x1000080) 2).toNat ∧
    Issuing (at' (tr2 128 0x1000000)) (tr2 128 0x1000000) [] (bunOf' (tr2 128 0x1000000)) ∧
    ((readS (tr2 128 0x1000000) 1).toNat = 128 ∧ (readS (tr2 128 0x1000000) 2).toNat ≤ 2 ^ 24 ∧ 128 + 0x1000000 ≤ 2 ^ 48 ∧ (0x1000000 % 128 = 0)) ∧
    (let s1 := (checkSpans (at' (tr2 128 128)) (tr2 128 128) (fun _ => none) (spansOf 128 128) []).1
     checkSpans (at' (tr2 128 128)) (tr2 128 128) (fun _ => none) (spansOf 128 128) [] = (s1, .ok [(0, ent0)]) ∧
       s1.site? (s1.seat (tr2 128 128)).1 = some { die := 0 }) :=
  ⟨⟨issuing _, by decide +kernel⟩, by decide +kernel, by decide +kernel, issuing _, by decide +kernel, ⟨Prod.ext rfl rfl, by decide +kernel⟩⟩

/-! Accesses: lane 0 alone at address 64; and no lane under p2. -/

/-- Base s[1] = 64, bench bounds 64 to 256, system and local addresses alike; p1 holds lane 0. -/
def ta : Str := { t0 with sr := [(1, 64#64)], pr := [(1, 1#32)], benchb := 64#64, benchl := 256#64 }

theorem ta_lanes : accessLanes (bunOf' ta) 1 1 false 0 4 = [(0, 64#64)] := by decide +kernel

/-- The state that the checks of a global access of lane 0 leave: its span's translation is in the core's span cache. -/
def sg (need : Word64 → Option Bad) : State := (checkLanes (at' ta) ta (bunOf' ta).lat .glob 4 need [(0, 64#64)] {}).1

/-- What those checks give: the address with its span's entry above it. -/
def cg : Checked := { lanes := [(0, atSpan 64 ent0)], ents := [(spanKey (0, ent0), ent0)] }

theorem wit_LoadsIssue : Issuing (at' ta) ta [] (bunOf' ta) ∧ activeMask (bunOf' ta) 2 = 0#32 ∧ activeMask (bunOf' ta) 1 ≠ 0#32 ∧
    AccessOk (at' ta) ta (bunOf' ta) .glob 4 needR true false (accessLanes (bunOf' ta) 1 1 false 0 4) (sg needR) cg ∧
    AccessOk (at' ta) ta (bunOf' ta) .pantry 4 needR true false (accessLanes (bunOf' ta) 1 1 false 0 4) (at' ta) { lanes := [(0, 64)] } ∧
    AccessOk (at' ta) ta (bunOf' ta) .bench 4 needR true false (accessLanes (bunOf' ta) 1 1 false 0 4) (at' ta) { lanes := [(0, 64)] } ∧
    case6 (sg needR) ta cg.ents (laneFeet .glob 4 cg.lanes) = false ∧ case6 (at' ta) ta [] (laneFeet .pantry 4 [(0, 64)]) = false ∧ case6 (at' ta) ta [] (laneFeet .bench 4 [(0, 64)]) = false :=
  ⟨issuing ta, by decide +kernel, by decide +kernel, ⟨by rw [ta_lanes]; exact Prod.ext rfl rfl, by decide +kernel, by decide +kernel⟩,
   ⟨by rw [ta_lanes]; rfl, by decide +kernel, by decide +kernel⟩, ⟨by rw [ta_lanes]; rfl, by decide +kernel, by decide +kernel⟩,
   by decide +kernel⟩

theorem wit_StoresAreWithheld : Issuing (at' ta) ta [] (bunOf' ta) ∧ activeMask (bunOf' ta) 2 = 0#32 ∧ activeMask (bunOf' ta) 1 ≠ 0#32 ∧ ta.buf = [] ∧
    AccessOk (at' ta) ta (bunOf' ta) .glob 4 needW false true (accessLanes (bunOf' ta) 1 1 false 0 4) (sg needW) cg ∧
    AccessOk (at' ta) ta (bunOf' ta) .pantry 4 needW false true (accessLanes (bunOf' ta) 1 1 false 0 4) (at' ta) { lanes := [(0, 64)] } ∧
    AccessOk (at' ta) ta (bunOf' ta) .bench 4 needW false true (accessLanes (bunOf' ta) 1 1 false 0 4) (at' ta) { lanes := [(0, 64)] } ∧
    noTear (sg needW) (bunOf' ta) true ∧ noTear (at' ta) (bunOf' ta) true :=
  ⟨issuing ta, by decide +kernel, by decide +kernel, by decide +kernel, ⟨by rw [ta_lanes]; exact Prod.ext rfl rfl, by decide +kernel, by decide +kernel⟩,
   ⟨by rw [ta_lanes]; rfl, by decide +kernel, by decide +kernel⟩, ⟨by rw [ta_lanes]; rfl, by decide +kernel, by decide +kernel⟩,
   by unfold noTear; decide +kernel, by unfold noTear; decide +kernel⟩

/-- The string with a store to line 0 withheld, older than the one that issues. -/
def tbuf : Str := { ta with buf := [{ id := 1, ops := [], seq := 3, pc := 0#64, kind := .store .bench 1 0 0 false [{ a := 128, v := 1#8, seq := 3 }] }] }
/-- The module with that string, its issue numbers past the store. -/
def wBuf : State := { at' tbuf with nseq := 9 }

theorem wit_StoresBesideOthers : Issuing wBuf tbuf [] (bunOf' tbuf) ∧ activeMask (bunOf' tbuf) 1 ≠ 0#32 ∧ tbuf.buf.length = 1 ∧
    AccessOk wBuf tbuf (bunOf' tbuf) .bench 4 needW false true [(0, 64#64)] wBuf { lanes := [(0, 64)] } ∧ noTear wBuf (bunOf' tbuf) false ∧
    (∀ e ∈ tbuf.buf, ∀ sp line c o r bs, e.kind = .store sp line c o r bs → ∀ x ∈ bs, x.seq ≠ wBuf.nseq) :=
  ⟨⟨rfl, rfl, rfl, rfl⟩, by decide +kernel, rfl, ⟨rfl, by decide +kernel, by decide +kernel⟩, by unfold noTear; decide +kernel,
   by intro e he sp line c o r bs hk x hx; simp only [tbuf, List.mem_singleton] at he; subst he; cases hk; simp only [List.mem_singleton] at hx; subst hx; decide +kernel⟩

theorem wit_AtomicsIssue : Issuing (at' ta) ta [] (bunOf' ta) ∧ activeMask (bunOf' ta) 2 = 0#32 ∧ activeMask (bunOf' ta) 1 ≠ 0#32 ∧ ta.buf = [] ∧
    relsDone (sg (needA 0)) ta.band 0 0 = true ∧ (noTear (sg (needA 0)) (bunOf' ta) true ∧ noTear (at' ta) (bunOf' ta) true) ∧
    AccessOk (at' ta) ta (bunOf' ta) .glob 4 (needA 0) true true (accessLanes (bunOf' ta) 1 1 false 0 4) (sg (needA 0)) cg ∧
    AccessOk (at' ta) ta (bunOf' ta) .glob 4 (needA 11) false true (accessLanes (bunOf' ta) 1 1 false 0 4) (sg (needA 11)) cg ∧
    AccessOk (at' ta) ta (bunOf' ta) .pantry 4 (needA 0) true true (accessLanes (bunOf' ta) 1 1 false 0 4) (at' ta) { lanes := [(0, 64)] } ∧
    AccessOk (at' ta) ta (bunOf' ta) .bench 4 (needA 0) true true (accessLanes (bunOf' ta) 1 1 false 0 4) (at' ta) { lanes := [(0, 64)] } :=
  ⟨issuing ta, by decide +kernel, by decide +kernel, by decide +kernel, by decide +kernel, by unfold noTear; decide +kernel,
   ⟨by rw [ta_lanes]; exact Prod.ext rfl rfl, by decide +kernel, by decide +kernel⟩, ⟨by rw [ta_lanes]; exact Prod.ext rfl rfl, by decide +kernel, by decide +kernel⟩,
   ⟨by rw [ta_lanes]; rfl, by decide +kernel, by decide +kernel⟩, ⟨by rw [ta_lanes]; rfl, by decide +kernel, by decide +kernel⟩⟩

/-- A withheld `sig`, and one outstanding operation of path 2 and of path 4. -/
def tb : Str := { t0 with buf := [{ id := 1, ops := [], seq := 0, pc := 0#64, kind := .sig 0 0#64 }], outst := [{ o := 1, path := 2, back := false }, { o := 2, path := 4, back := false }] }

theorem wit_Fences : (Issuing (at' t0) t0 [] (bunOf' t0) ∧ t0.buf = [] ∧ accessesDone (at' t0) t0.band t0.num 0 = true ∧
      (at' t0).narrower t0.band t0.num 1 = false ∧ claimAll (at' t0) t0.band t0.num 0 1 = true ∧ noTearHeld (at' t0) (bunOf' t0)) ∧
    (Issuing (at' tb) tb [] (bunOf' tb) ∧ tb.buf ≠ []) ∧
    (let bu := { bunOf' t0 with seq := 2 }
     let s := { at' t0 with bun := some bu, ops := [{ id := 1, b := t0.band, n := 0, seq := 1, path := some 2, pc := 0#64, kind := .load .glob 4 1 [(0, 64)] }] }
     Issuing s t0 [] bu ∧ drainOver s t0.band t0.num 4 bu.seq = false ∧ (4#6 : BitVec 6) ≠ 0#6) :=
  ⟨⟨issuing _, by decide +kernel, by decide +kernel, by decide +kernel, by decide +kernel, .inl (by decide +kernel)⟩, ⟨issuing _, by decide +kernel⟩, ⟨rfl, rfl, rfl, rfl⟩, by decide +kernel⟩

theorem wit_CounterWaits : Issuing (at' tb) tb [] (bunOf' tb) ∧ (pathCount tb 2 ≤ (1#8).toNat ∧ (0#8).toNat < pathCount tb 2) ∧
    (pathCount tb 4 ≤ (1#8).toNat ∧ 4 ≤ (4#3).toNat ∧ (4#3).toNat ≤ 6 ∧ (0#8).toNat < pathCount tb 4) ∧
    noTear (at' tb) (bunOf' tb) (tb.wbOpen && tagS tb 1 == .data) ∧ (readS tb 1).toNat < pathCount tb 2 ∧ noTearHeld (at' tb) (bunOf' tb) ∧
    (let t := { tb with sr := [(1, 1#64)] }
     Issuing (at' t) t [] (bunOf' t) ∧ pathCount t 2 ≤ (readS t 1).toNat ∧ pathCount t 4 ≤ (readS t 1).toNat) :=
  ⟨issuing _, by decide +kernel, by decide +kernel, by unfold noTear; decide +kernel, by decide +kernel, .inl (by decide +kernel), issuing _, by decide +kernel, by decide +kernel⟩

/-! Barriers, verbs, the bracket, matrix and job forms. -/

/-- The module with its band changed. -/
def atBand (f : Band → Band) (t : Str) : State := { at' t with bands := w0.bands.map f }

theorem issuingBand (f : Band → Band) (t : Str) : Issuing (atBand f t) t [] (bunOf' t) := ⟨rfl, rfl, rfl, rfl⟩

/-- The band with one state in each of its barrier slots. -/
def barBand (y : Bar) (b : Band) : Band := { b with bars := List.replicate 16 y, nstr := 2 }

/-- The generation with which `bar.wait` compares slot `k`: the token's, else that of its wait's begin, else the present one. -/
def waitsFor (t : Str) (k : Nat) (y : Bar) : BitVec 16 := (smGet none t.tok k).getD ((waitGen (bunOf' t).lat (bunOf' t).slotB (bunOf' t).pc k).getD y.gen)

/-- The first of two arrivals, the arrival that completes, a second arrival in one generation, tokens of an earlier and of this generation, and
no token, the wait having begun in an earlier generation, and beginning now. -/
theorem wit_BandBarriers :
    (let y : Bar := { exp := 2 }
     Issuing (atBand (barBand y) t0) t0 [] (bunOf' t0) ∧ (atBand (barBand y) t0).band? t0.band = some (barBand y bd0) ∧ (barBand y bd0).bars[15]? = some y ∧
       t0.num < 32 ∧ t0.buf = [] ∧ (accessesDone (atBand (barBand y) t0) t0.band t0.num 0 = true ∧ (atBand (barBand y) t0).narrower t0.band t0.num 1 = false) ∧ y.arr.getLsbD t0.num = false ∧ y.cnt + 1 < y.exp ∧
       1 ≤ (barBand y bd0).nstr) ∧
    (let y : Bar := { exp := 2, cnt := 1, arr := 2#32, gen := 0xFFFF#16 }
     Issuing (atBand (barBand y) t0) t0 [] (bunOf' t0) ∧ (barBand y bd0).bars[0]? = some y ∧ y.arr.getLsbD t0.num = false ∧ y.exp ≤ y.cnt + 1) ∧
    (let y : Bar := { exp := 2, cnt := 1, arr := 1#32, gen := 3#16 }
     Issuing (atBand (barBand y) t0) t0 [] (bunOf' t0) ∧ (barBand y bd0).bars[0]? = some y ∧ y.arr.getLsbD t0.num = true ∧ noTearHeld (atBand (barBand y) t0) (bunOf' t0)) ∧
    (let y : Bar := { exp := 2, gen := 3#16 }
     let t := { t0 with tok := [(0, some 2#16), (1, some 3#16)], barG := [(false, 0#64, 2, 2#16)] }
     Issuing (atBand (barBand y) t) t [] (bunOf' t) ∧ noTearHeld (atBand (barBand y) t) (bunOf' t) ∧ waitsFor t 0 y ≠ y.gen ∧ waitsFor t 1 y = y.gen ∧
       (waitGen t false 0#64 2 = some 2#16 ∧ waitsFor t 2 y ≠ y.gen) ∧ waitsFor t 3 y = y.gen) :=
  ⟨⟨issuingBand _ _, by decide +kernel⟩,
   ⟨issuingBand _ _, by decide +kernel⟩, ⟨issuingBand _ _, by decide +kernel, by decide +kernel, .inl (by decide +kernel)⟩,
   issuingBand _ _, .inl (by decide +kernel), by decide +kernel⟩

/-- The launch of the string's band. -/
def ln0 : Launch := w0.launches.headD { id := 0, q := 0, sq := 0, ctx := 0, bale := 0, code := 1 }
/-- A second string of the band. -/
def t1 : Str := { t0 with num := 1 }

/-- `gbar` with a second live string left, and alone in the only band of the launch. -/
theorem wit_LaunchBarrier :
    (let s := { at' t0 with strs := [t0, t1] }
     Issuing s t0 [t1] (bunOf' t0) ∧ s.band? t0.band = some bd0 ∧ s.launch? bd0.launch = some ln0 ∧ ln0.gbarCnt = bd0.gbarCnt ∧ t0.buf = [] ∧
       (accessesDone s t0.band t0.num 0 = true ∧ s.narrower t0.band t0.num 3 = false) ∧ (t1 ∈ s.strs ∧ t1.band = t0.band ∧ t1.ended = false ∧ t1.num ≠ t0.num ∧ t1.num ∉ bd0.gbarArr)) ∧
    (Issuing (at' t0) t0 [] (bunOf' t0) ∧ (accessesDone (at' t0) t0.band t0.num 0 = true ∧ (at' t0).narrower t0.band t0.num 3 = false) ∧
      (∀ u ∈ (at' t0).strs, u.band = t0.band → u.ended = false → u.num = t0.num ∨ u.num ∈ bd0.gbarArr) ∧
      (∀ x ∈ (at' t0).bands, x.id = t0.band → x = bd0) ∧ bd0.place ≠ .ended ∧
      (∀ x ∈ (at' t0).bands, x.launch = bd0.launch → x.id ≠ t0.band → x.place = .ended ∨ x.gbarCnt = ln0.gbarCnt + 1) ∧
      (ln0.x * ln0.y * ln0.z ≤ ln0.next ∧ ({ ln0 with stopped := true } : Launch).stopped = true)) :=
  ⟨⟨⟨rfl, rfl, rfl, rfl⟩, by decide +kernel⟩,
   issuing _, by decide +kernel⟩

/-- s[1], s[2] and s[3] of a verb, with bench bounds 0 to 131,072. -/
def tv (d a b : Word64) : Str := { t0 with sr := [(1, d), (2, a), (3, b)].filter (fun x => x.2 != 0#64), benchl := 131072#64 }

theorem wit_RemoteAlign : (Issuing (at' (tv 4 0 8)) (tv 4 0 8) [] (bunOf' (tv 4 0 8)) ∧ (readS (tv 4 0 8) 1).toNat % 8 ≠ 0) ∧ (readS (tv 0 0 0) 3).toNat = 0 ∧
    65536 < (readS (tv 0 0 65544) 3).toNat := ⟨⟨issuing _, by decide +kernel⟩, by decide +kernel, by decide +kernel⟩

/-- What a check that passes gives. -/
def okOf {ε α : Type} : Except ε α → Option α
  | .ok x => some x
  | .error _ => none

/-- `put` and `get` of 65,536 bytes between bench and die 3's pantry, `sig` there. -/
theorem wit_RemoteVerbs :
    (let t := tv (402653184) 0 65536
     Issuing (at' t) t [] (bunOf' t) ∧ fullPath t [3] = none ∧
       ((readS t 1).toNat % 8 = 0 ∧ (readS t 2).toNat % 8 = 0 ∧ (readS t 3).toNat ≠ 0 ∧ (readS t 3).toNat % 8 = 0 ∧ (readS t 3).toNat ≤ 65536) ∧
       okOf (resolvePantry (at' t) t (readS t 1) 65536) = some 402653184 ∧ (okOf (checkLocal (at' t) t t (readS t 2) 65536 needR).2 = some [] ∧ (checkLocal (at' t) t t (readS t 2) 65536 needR).1 = at' t) ∧
       watchAny (at' t) t t [(0, .bench, true, false, 0, 65536), (0, .pantry, false, true, 402653184, 65536)] = none ∧ noTear (at' t) (bunOf' t) true ∧
       okOf (resolvePantry (at' t) t (readS t 1) 8) = some 402653184 ∧ watchAny (at' t) t t [(0, .pantry, false, true, 402653184, 8)] = none) ∧
    (let t := tv 0 (402653184) 65536
     Issuing (at' t) t [] (bunOf' t) ∧ fullPath t [3] = none ∧ okOf (resolvePantry (at' t) t (readS t 2) 65536) = some 402653184 ∧
       (okOf (checkLocal (at' t) t t (readS t 1) 65536 needW).2 = some [] ∧ (checkLocal (at' t) t t (readS t 1) 65536 needW).1 = at' t) ∧
       watchAny (at' t) t t [(0, .bench, false, true, 0, 65536), (0, .pantry, true, false, 402653184, 65536)] = none ∧ noTear (at' t) (bunOf' t) true ∧
       case6 (at' t) t [] [{ sp := .pantry, a := 402653184, n := 65536 }] = false) :=
  ⟨⟨issuing _, by decide +kernel, by decide +kernel, by decide +kernel, by decide +kernel, by decide +kernel, by unfold noTear; decide +kernel, by decide +kernel, by decide +kernel⟩,
   issuing _, by decide +kernel, by decide +kernel, by decide +kernel, by decide +kernel, by unfold noTear; decide +kernel, by decide +kernel⟩

theorem wit_WaybillBracket : Issuing (at' t0) t0 [] (bunOf' t0) ∧ (at' t0).band? t0.band = some bd0 ∧ (at' t0).launch? bd0.launch = some ln0 ∧ fullPath t0 [6] = none ∧
    (let s1 := (checkGlobal (at' t0) t0 0 (readS t0 2) 8 needR).1
     checkGlobal (at' t0) t0 0 (readS t0 2) 8 needR = (s1, .ok (0, ent0)) ∧ watchAny s1 t0 t0 [(0, .glob, true, false, 0, 8)] = none ∧
       noTear s1 (bunOf' t0) (sealOf (readS t0 2) (readS t0 3) (tagS t0 2)).isNone ∧ case6 s1 t0 [(0, ent0)] [{ sp := .glob, a := 0, n := 8 }] = false) :=
  ⟨issuing _, by decide +kernel, by decide +kernel, by decide +kernel, Prod.ext rfl rfl, by decide +kernel, by unfold noTear; decide +kernel, by decide +kernel⟩

/-- A string that sees the BF16 recipe, s[1] = 0 and s[2] = 16. -/
def tm : Str := { t0 with rcp := { seen := 0x011#10 }, sr := [(2, 16#64)], benchl := 524288#64 }
/-- A band that has loaded a B of K = 16. -/
def loadedBand (b : Band) : Band := { b with bdesc := some { k := 16, fmt := 1, elem := 0, scale := 0 } }
/-- An operation of a band to tile 0. -/
def mop0 (b i : Nat) : MOp := { id := i, b := b, n := 0, minor := 4, tile := 0, rcp := 0#10, sa := 0#64, sb := 0#64, msat := false }

theorem wit_MatrixInstructions : Issuing (atBand loadedBand tm) tm [] (bunOf' tm) ∧ (atBand loadedBand tm).band? tm.band = some (loadedBand bd0) ∧
    (mopCheck (loadedBand bd0) 0 524288 0 0 0x011#10 0#64 16#64 = none ∧ mopCheck (loadedBand bd0) 0 524288 1 47 0x011#10 0#64 0#64 = none ∧
      mopCheck (loadedBand bd0) 0 524288 2 0 0x011#10 0#64 0#64 = none ∧ mopCheck (loadedBand bd0) 0 524288 3 47 0x011#10 0#64 0#64 = none ∧
      mopCheck (loadedBand bd0) 0 524288 4 47 0x011#10 0#64 0#64 = none) ∧
    (mopCheck (loadedBand bd0) 0 524288 0 0 0x011#10 8#64 16#64 = some (.align, 0) ∧ mopCheck (loadedBand bd0) 0 524288 1 48 0x011#10 0#64 0#64 = some (.accRange, 48) ∧
      mopCheck (loadedBand bd0) 0 524288 2 0 0x000#10 0#64 0#64 = some (.recipe, 0) ∧ mopCheck (loadedBand bd0) 0 524288 3 0 0x011#10 524288#64 0#64 = some (.benchBound, 0) ∧
      mopCheck (loadedBand bd0) 0 524288 4 127 0x011#10 0#64 0#64 = some (.accRange, 127)) ∧
    noTear (atBand loadedBand tm) (bunOf' tm) (tm.wbOpen && (tagS tm 1 == .data || tagS tm 2 == .data)) ∧ (bandMops (atBand loadedBand tm) tm.band).length < 64 ∧
    tileBusy (atBand loadedBand tm) tm.band .lane 0 = false ∧ fullPath tm [5] = none ∧
    (let s := { atBand loadedBand tm with mops := [mop0 tm.band 1] }
     Issuing s tm [] (bunOf' tm) ∧ tileBusy s tm.band .lane 0 = true) ∧
    (let s := { atBand loadedBand tm with mops := (List.range 64).map (mop0 tm.band) }
     Issuing s tm [] (bunOf' tm) ∧ 64 ≤ (bandMops s tm.band).length) :=
  ⟨issuingBand _ _, by decide +kernel, by decide +kernel, by decide +kernel, by unfold noTear; decide +kernel, by decide +kernel, by decide +kernel, by decide +kernel,
   ⟨⟨rfl, rfl, rfl, rfl⟩, by decide +kernel⟩, ⟨rfl, rfl, rfl, rfl⟩, by decide +kernel⟩

theorem wit_MatrixCauses :
    (let f := fun (b : Band) => { b with prof := Profile.array }
     Issuing (atBand f tm) tm [] (bunOf' tm) ∧ (atBand f tm).band? tm.band = some (f bd0) ∧ (f bd0).prof = .array ∧ (f bd0).ntiles ≤ (48#7).toNat ∧
       ((45#7).toNat < (f bd0).ntiles ∧ (f bd0).ntiles ≤ (45#7).toNat + 3) ∧ (44#7).toNat + 3 < (f bd0).ntiles ∧ rcpOk t0.rcp.seen = false ∧
       Issuing (atBand f t0) t0 [] (bunOf' t0)) ∧
    (let t := { tm with sr := [(1, 8#64)] }
     rcpOk t.rcp.seen = true ∧ (readS t 2).extractLsb' 0 4 = 0#4 ∧ (readS t 1).toNat % 16 ≠ 0) :=
  ⟨⟨issuingBand _ _, by decide +kernel, by decide +kernel, by decide +kernel, by decide +kernel, by decide +kernel, by decide +kernel, issuingBand _ _⟩,
   by decide +kernel⟩

/-- A job of the band. -/
def job0 (i : Nat) : Job := { id := i, b := t0.band, n := some 0, card := [], cardAt := 64, mn := 0, pc := 0#64 }

theorem wit_JobForms : (Issuing (at' ta) ta [] (bunOf' ta) ∧ (at' ta).band? ta.band = some bd0 ∧ (readS ta 1).toNat % 64 = 0 ∧ ta.benchb.toNat ≤ (readS ta 1).toNat ∧
      (readS ta 1).toNat + 64 ≤ ta.benchl.toNat ∧ case6 (at' ta) ta [] [{ sp := .bench, a := 64, n := 64 }] = false ∧ cardBusy (at' ta) ta 0xFFFFFFFF#32 64 0 = false ∧
      (coreJobs (at' ta) bd0.die (bd0.place.core?.getD 0)).length < 64 ∧ fullPath ta [4] = none ∧ ta.buf = [] ∧ (at' ta).rels = []) ∧
    (let t := { ta with sr := [(1, 65#64)] }
     Issuing (at' t) t [] (bunOf' t) ∧ (readS t 1).toNat % 64 ≠ 0) ∧
    (let t := { ta with sr := [(1, 256#64)] }
     Issuing (at' t) t [] (bunOf' t) ∧ (readS t 1).toNat % 64 = 0 ∧ t.benchl.toNat < (readS t 1).toNat + 64 ∧ (readS t 0).toNat < t.benchb.toNat) ∧
    (let s := { at' ta with jobs := (List.range 64).map job0 }
     Issuing s ta [] (bunOf' ta) ∧ 64 ≤ (coreJobs s bd0.die (bd0.place.core?.getD 0)).length) ∧
    (Instr.jobq 63).major = some 0x2A ∧ (0xA8000000#32 >>> 26 = 0x2A#32) ∧ (1#3 : BitVec 3) ≠ 0#3 :=
  ⟨⟨issuing _, by decide +kernel⟩,
   ⟨issuing _, by decide +kernel⟩, ⟨issuing _, by decide +kernel⟩, ⟨⟨rfl, rfl, rfl, rfl⟩, by decide +kernel⟩, by decide, by decide, by decide⟩

/-! Events of strings and bands. -/

/-- A computed result of the string's operation 1, on path 2. -/
def opc (u : Bool) : Op := { id := 1, b := t0.band, n := 0, seq := 0, path := some 2, pc := 0#64, kind := .calc [5#64], fin := true, undone := u }
/-- The module with operations. -/
def atOps (os : List Op) (t : Str) : State := { at' t with ops := os }

/-- The result of an undone operation; of one with slots left, and with none, to a v register and to an s register. -/
theorem wit_ResultsArrive :
    ((atOps [opc true] t0).str? t0.band 0 = some t0 ∧ (atOps [opc true] t0).op? 1 = some (opc true) ∧ (opc true).fin = true ∧ (opc true).undone = true) ∧
    (let w : Owed := { o := 1, left := 3, dst := .v 7 1 0x80000001#32 }
     let t := { t0 with owed := [w] }
     (atOps [opc false] t).str? t.band 0 = some t ∧ (atOps [opc false] t).op? 1 = some (opc false) ∧ t.owed = [w] ∧ w.val = none ∧ w.logged = true ∧ 0 < w.left) ∧
    (let w : Owed := { o := 1, left := 0, dst := .v 7 1 0x80000001#32 }
     let t := { t0 with owed := [w] }
     (atOps [opc false] t).str? t.band 0 = some t ∧ t.owed = [w] ∧ w.left = 0 ∧ (lanesOf 0x80000001#32)[1]? = some 31) ∧
    (let w : Owed := { o := 1, left := 0, dst := .s 0 }
     let t := { t0 with owed := [w] }
     (atOps [opc false] t).str? t.band 0 = some t ∧ t.owed = [w] ∧ w.left = 0) := by decide +kernel

/-- The oldest operation of path 2, for which a `waitc` of 0 waits, or a bundle that found the counter full; and one behind an older. -/
theorem wit_ReturnsArrive :
    (let t := { t0 with outst := [{ o := 1, path := 2, back := false }], wait := .path 2 0 }
     (atOps [opc false] t).op? 1 = some (opc false) ∧ (opc false).fin = true ∧ (atOps [opc false] t).str? (opc false).b (opc false).n = some t ∧
       t.outst = { o := 1, path := 2, back := false } :: [] ∧ t.wait = .path 2 0 ∧ pathCount t 2 = 1 ∧
       (∀ u ∈ [{ t with holdA := .full 2 }, { t with holdB := .full 2 }], u.holdA = .full 2 ∨ u.holdB = .full 2)) ∧
    (let y : Outst := { o := 9, path := 2, back := false }
     let t := { t0 with outst := [y, { o := 1, path := 2, back := false }] }
     (atOps [opc false] t).str? (opc false).b (opc false).n = some t ∧ y.path = 2 ∧ y.o ≠ 1 ∧ y.back = false) := by decide +kernel

/-- The bale of the string's band. -/
def bl0 : Bale := w0.bales.headD { id := 0, ctx := 0, code := 1, base := 0#64, len := 1, segs := [] }

/-- A string that does not record; a core that copies a segment of the bale. -/
theorem wit_StringTimers : (at' tb).str? tb.band 0 = some tb ∧ (tb.wbStrict = false ∧ openGets (at' tb) tb.band 0 = []) ∧
    (let c : Core := { die := 0, num := 0, frames := [], copies := [{ meas := bl0.meas, seg := 0 }] }
     let s := { at' t0 with cores := [c] }
     s.core? 0 0 = some c ∧ s.bale? bd0.bale = some bl0 ∧ c.copies.any (Frame.same { meas := bl0.meas, seg := 0 }) = true ∧
       c.frames.any (Frame.same { meas := bl0.meas, seg := 0 }) = false ∧ c.frames.length ≤ 4) ∧
    ({ t0 with rcp := { new := 1#10, left := 1 } } : Str).rcp.left = 1 := by decide +kernel

theorem wit_Preemption : (at' t0).band? t0.band = some bd0 ∧ bd0.place = .resident 0 ∧ (at' t0).str? t0.band 0 = some t0 ∧ t0.ended = false ∧ bd0.preempt = false ∧
    bd0.prof ≠ .executive ∧ liveStrs (at' t0) t0.band = [t0] ∧ t0.num = 0 ∧ t0.stop = .none ∧ longWait (at' t0) t0 = false ∧
    (∀ st ∈ [Stop.asked, .deferred, .late], (at' { t0 with stop := st }).str? t0.band 0 = some { t0 with stop := st }) := by decide +kernel

/-- A pre-empted band that has stopped, and one that has not; a band whose string waits for a barrier, with work queued for its core; a saved band. -/
theorem wit_SavesAndRestores :
    (let s := atBand (fun b => { b with preempt := true }) { t0 with stop := .stopped }
     (s.band? t0.band).isSome = true ∧ saveReady s t0.band = true) ∧
    (let s := atBand (fun b => { b with preempt := true }) { t0 with stop := .asked }
     s.band? t0.band = some { bd0 with preempt := true } ∧ bd0.place = .resident 0 ∧ saveReady s t0.band = false) ∧
    (let t := { t0 with wait := .bar 0 0#16 false }
     let s := { at' t with cores := [{ die := 0, num := 0, bandQ := [99] }] }
     s.band? t0.band = some bd0 ∧ swapReady s t0.band = true ∧ ∀ u ∈ liveStrs s t0.band, u.buf = []) ∧
    (let s := { atBand (fun b => { b with place := .saved true }) t0 with sites := [{ die := 0, st := .admitted }] }
     s.band? t0.band = some { bd0 with place := .saved true } ∧ (s.site? bd0.die).any (fun (x : Site) => x.st == .admitted) = true ∧ (s.core? bd0.die 0).isSome = true ∧
       roomOn s bd0.die 0 { bd0 with place := .saved true } = true ∧ (s.ctx? bd0.ctx).any (fun (c : Ctx) => c.frozen) = false ∧ (s.ctx? bd0.ctx).isSome = true ∧
       (∀ t ∈ s.strs, t.band = t0.band → t.late = []) ∧ areaFaults s { bd0 with place := .saved true } = []) ∧
    (let bd := { bd0 with place := .saved true, area := some (7, osPages) }
     let s := { atBand (fun _ => bd) t0 with sites := [{ die := 0, st := .admitted }], lineFault := [((7 * 2 ^ 38 + osPages * 65536) / 128, 0, false)] }
     let u := { s with lineFault := [((7 * 2 ^ 38 + osPages * 65536) / 128, 1, true), ((7 * 2 ^ 38 + osPages * 65536) / 128 + 1, 2, false)] }
     s.band? t0.band = some bd ∧ roomOn s bd.die 0 bd = true ∧ areaFaults s bd = [(0, false)] ∧ areaFaults u bd = [(1, true), (2, false)]) := by decide +kernel

/-- Die 0 admitted, its band waiting at the dispatcher, and its band queued on core 0. -/
def wStart (p : Place) (q : List Nat) : State :=
  { atBand (fun b => { b with place := p }) t0 with strs := [], bun := none, sites := [{ die := 0, st := .admitted }], cores := [{ die := 0, num := 0, bandQ := q }] }

theorem wit_BandsStart :
    (let s := wStart .waiting []
     let bd := { bd0 with place := Place.waiting }
     (s.site? 0).any (fun (x : Site) => x.st == .admitted) = true ∧ bd.die = 0 ∧ s.band? bd.id = some bd ∧ s.launch? bd.launch = some ln0 ∧ (s.bale? bd.bale).isSome = true ∧
       (ln0.replay && !bd.plain) = false ∧ makeFor s 0 = s ∧ firstBand s (s.bands.filter (wanted s 0)) = some bd ∧ bd.place = .waiting ∧
       (nextCores s 0).find? (fun c => roomOn s 0 c bd) = some 0) ∧
    (let s := wStart (.queued 0) [bd0.id]
     let bd := { bd0 with place := Place.queued 0 }
     s.band? bd.id = some bd ∧ s.core? 0 0 = some { die := 0, num := 0, bandQ := [bd.id] } ∧ bd.place = .queued 0 ∧ roomOn s 0 0 bd = true) := by decide +kernel

/-- A second band in the queue of core 1. -/
def bd9 : Band := { bd0 with id := 9, index := 3, place := .queued 1 }
/-- Core 0 with an empty queue in a stealing launch; core 1's queue empty, with one band, and with two. -/
def wSteal (q : List Nat) : State :=
  { wStart (.queued 1) [] with launches := [{ ln0 with steal := true }], bands := [{ bd0 with place := .queued 1 }, bd9], cores := [{ die := 0, num := 0 }, { die := 0, num := 1, bandQ := q }] }

theorem wit_WorkStealing : (let s := wSteal []
     let c : Core := { die := 0, num := 0 }
     s.core? 0 0 = some c ∧ c.backoff = false ∧ c.bandQ = [] ∧ { ln0 with steal := true } ∈ s.launches ∧ ln0.complete = false ∧
       2 ≤ (s.cores.filter (fun (x : Core) => x.die == 0)).length ∧ (stealVictim 0 0 2 64 c.lfsr).2 = 1 ∧ s.core? 0 1 = some { die := 0, num := 1 }) ∧
    (wSteal [bd0.id]).core? 0 1 = some { die := 0, num := 1, bandQ := [bd0.id] } ∧ (wSteal [bd0.id]).band? bd0.id = some { bd0 with place := .queued 1 } ∧
    (let s := wSteal [9, bd0.id]
     s.core? 0 1 = some { die := 0, num := 1, bandQ := [9, bd0.id] } ∧ s.band? 9 = some bd9 ∧ s.band? bd0.id = some { bd0 with place := .queued 1 } ∧ bd0.index < bd9.index ∧ bd0.id ≠ 9) := by decide +kernel

/-! Packets, launches, replay, the engines. -/

/-- 64 bytes that hold these fields: offset, width, value. -/
def bytes64 (fs : List (Nat × Nat × Nat)) : List Byte :=
  (List.range 64).map (fun i => BitVec.ofNat 8 ((fs.map (fun f => if f.1 ≤ i ∧ i < f.1 + f.2.1 then f.2.2 / 256 ^ (i - f.1) else 0)).sum))

/-- Bytes that a read has met. -/
def peeked : Peek → Option (List Byte)
  | .bytes _ bs => some bs
  | _ => none

/-- Queue 1, which may use every die, with one packet. -/
def qOf (bs : List Byte) : Queue := { q := 1, mask := 0x3FF#10, log2 := 4, st := .on, pkts := [{ sq := 1, bytes := bs }], lastSq := 1 }
/-- The module with that packet; die 0 is admitted. -/
def wPkt (bs : List Byte) : State := { w0 with strs := [], queues := [qOf bs], sites := [{ die := 0, st := .admitted }], bales := w0.bales.map (fun (b : Bale) => { b with nargs := 2 }) }
/-- A launch of one lane band with its arguments in host memory, and its record there. -/
def launchPkt (die : Nat) : List Byte := bytes64 [(0, 2, 1), (2, 1, 1), (5, 1, 1), (6, 1, 1), (12, 4, 1), (16, 4, 1), (20, 4, 1), (30, 2, die), (32, 8, 2 ^ 47), (40, 8, 2 ^ 47 + 256)]

/-- A launch packet that is sound; with a signal address of 0, with a bad field, for a die that is not admitted. -/
theorem wit_LaunchPacket :
    (let s := wPkt (launchPkt 1)
     let x := qOf (launchPkt 1)
     s.pkt? 1 1 = some (x, { sq := 1, bytes := launchPkt 1 }) ∧ (s.ctx? x.ctx).any (fun (c : Ctx) => c.frozen) = false ∧ ctxEnding s x.ctx = false ∧ behindSignal s x 1 = false ∧ behindLaunch s x { sq := 1, bytes := launchPkt 1 } = false ∧
       signalOk (launchPkt 1) = true ∧ badLaunch s x (launchPkt 1) = false ∧ (s.baleFor x.ctx (field (launchPkt 1) 2 1)).map (fun (b : Bale) => b.nargs) = some 2 ∧
       (maskDies x (launchPkt 1)).filter (fun d => (s.site? d).any (fun (y : Site) => y.st == .admitted)) = [0] ∧
       fits [] { id := 0, launch := 0, index := 0, ctx := 0, die := 0, prof := codeProf 1, nstr := 1, regs := 8, nbars := 0, benchBytes := 0, ntiles := 0 } = true ∧
       (peeked (peekVa s x.ctx (field (launchPkt 1) 32 8) 16)).isSome = true ∧ field (launchPkt 1) 3 1 / 4 % 2 = 0) ∧
    (let b := bytes64 [(0, 2, 1)]
     (wPkt b).pkt? 1 1 = some (qOf b, { sq := 1, bytes := b }) ∧ behindSignal (wPkt b) (qOf b) 1 = false ∧ signalOk b = false) ∧
    (let b := bytes64 [(0, 2, 1), (40, 8, 2 ^ 47)]
     (wPkt b).pkt? 1 1 = some (qOf b, { sq := 1, bytes := b }) ∧ signalOk b = true ∧ badLaunch (wPkt b) (qOf b) b = true) ∧
    (let b := launchPkt 2
     (wPkt b).pkt? 1 1 = some (qOf b, { sq := 1, bytes := b }) ∧ signalOk b = true ∧ badLaunch (wPkt b) (qOf b) b = false ∧
       (maskDies (qOf b) b).filter (fun d => ((wPkt b).site? d).any (fun (y : Site) => y.st == .admitted)) = []) := by decide +kernel

/-- A launch packet behind another that has not been served, one behind a signal, and two launch packets of different priorities. -/
theorem wit_PacketsWait :
    (let y : Pkt := { sq := 1, bytes := launchPkt 1 }
     let p : Pkt := { sq := 2, bytes := launchPkt 1 }
     let x := { qOf (launchPkt 1) with pkts := [y, p], lastSq := 2 }
     let s := { wPkt (launchPkt 1) with queues := [x] }
     s.pkt? 1 2 = some (x, p) ∧ p.done = false ∧ behindLaunch s x p = true ∧ behindLaunch s x { p with bytes := launchPkt 1 |>.set 4 1#8 } = false) ∧
    (let b := bytes64 [(0, 2, 2), (40, 8, 256)]
     let x := { qOf b with pkts := [{ sq := 1, bytes := b }, { sq := 2, bytes := launchPkt 1 }], lastSq := 2 }
     behindSignal { wPkt b with queues := [x] } x 2 = true) ∧
    ctxEnding { wPkt (launchPkt 1) with bands := [{ bd0 with place := .killed 0 }], launches := [{ ln0 with atOnce := true }] } 0 = true := by decide +kernel

/-- Signals and drops, sound and with a byte that must be zero. -/
theorem wit_SignalPackets :
    (let b := bytes64 [(0, 2, 2), (40, 8, 256)]
     (wPkt b).pkt? 1 1 = some (qOf b, { sq := 1, bytes := b }) ∧ signalOk b = true ∧ badSignal (qOf b) b false = false ∧
       ∀ y ∈ (qOf b).pkts, y.sq < 1 → pktDone (wPkt b) 1 y = true) ∧
    (let b := bytes64 [(0, 2, 2), (40, 8, 256), (2, 1, 1)]
     (wPkt b).pkt? 1 1 = some (qOf b, { sq := 1, bytes := b }) ∧ signalOk b = true ∧ badSignal (qOf b) b false = true ∧ badSignal (qOf b) b true = true) ∧
    (let b := bytes64 [(0, 2, 3), (40, 8, 256), (52, 4, 7)]
     signalOk b = true ∧ badSignal (qOf b) b true = false) := by decide +kernel

/-- The largest status, count, flags and sequence number, to host memory. -/
theorem wit_CompletionRecord : (0xFFFFFFFF < 2 ^ 32 ∧ 0xFFFF < 2 ^ 16 ∧ 0xFF < 2 ^ 8 ∧ 2 ^ 64 - 1 < 2 ^ 64 ∧ (2 ^ 47 + 16) % 16 = 0) ∧
    seraiSpan (at' t0) 0 ((2 ^ 47 + 16) / 128 * 128) = (at' t0, some (0xC000070000000000#64)) ∧ entW 0xC000070000000000#64 = true := by decide +kernel

/-- The launch of `w0` with its band ended, and with the launch as `f` makes it. -/
def wEnd (f : Launch → Launch) : State := { w0 with strs := [], bands := [{ bd0 with place := .ended }], launches := [f ln0] }

theorem wit_LaunchesComplete :
    ((wEnd id).launch? ln0.id = some ln0 ∧ ln0.complete = false ∧ launchOver (wEnd id) ln0 = true ∧ ln0.recording = false) ∧
    (let l := { ln0 with recording := true, handle := 3 }
     let s := wEnd (fun _ => l)
     s.launch? l.id = some l ∧ l.complete = false ∧ launchOver s l = true ∧ l.recording = true ∧ l.torn = false ∧ l.status = 0 ∧ (waybillOf s l).recs.length ≤ 65536 ∧
       ((s.waybills.filter (fun (v : Waybill) => v.die == (waybillOf s l).die && !v.spilled)).map waybillSize).sum + waybillSize (waybillOf s l) ≤ 8388608) ∧
    (let l := { ln0 with complete := true }
     (wEnd (fun _ => l)).launch? l.id = some l ∧ launchOver (wEnd (fun _ => l)) l = true) := by decide +kernel

/-- A killed band with an entry still on its way, one of an idempotent launch, and one of another. -/
theorem wit_BandsSettle :
    (let bd := { bd0 with place := Place.killed 0 }
     let s := { w0 with bands := [bd], launches := [{ ln0 with idem := true, retry := 1 }] }
     s.band? bd.id = some bd ∧ bd.place = .killed 0 ∧ bd.replayAt = none ∧ s.launch? bd.launch = some { ln0 with idem := true, retry := 1 } ∧ bandBusy s bd.id = false ∧
       bd.relaunches < 1 ∧ ln0.stopped = false ∧ ln0.atOnce = false ∧ (s.ctx? bd.ctx).any (fun (x : Ctx) => x.frozen) = false) ∧
    (let bd := { bd0 with place := Place.killed 0 }
     let s := { w0 with bands := [bd], rels := [(bd.id, 0, { id := 1, ops := [], seq := 0, pc := 0#64, kind := .sig 0 0#64 })] }
     s.band? bd.id = some bd ∧ bandBusy s bd.id = true) ∧
    (let bd := { bd0 with place := Place.killed 0 }
     let s := { w0 with bands := [bd] }
     s.band? bd.id = some bd ∧ bandBusy s bd.id = false ∧ s.launch? bd.launch = some ln0 ∧ ln0.idem = false) := by decide +kernel

/-- A copy card of one row of 8 bytes within the bench. -/
def copyCard : List Byte := bytes64 [(0, 1, 1), (2, 1, 4), (3, 1, 0x22), (4, 4, 0x10001), (8, 8, 64), (16, 4, 8), (32, 8, 128), (40, 4, 8), (56, 4, 8), (60, 4, 8)]

/-- A replaying launch whose waybill holds one record of band 0. -/
def wRep (img : List Byte) (k g : Nat) : State :=
  let w : Waybill := { ctx := 0, handle := 1, die := 0, code := 1, meas := 0#128, x := 1, y := 1, z := 1, bench := 0, tiles := 0, strings := 1, rcp := 0#10, spangen := 0,
                       keygen := 0, recs := [bytes64 [(8, 4, 1)], img], patches := [], seals := [] }
  { w0 with strs := [], bands := [{ bd0 with replayAt := some k, gbarCnt := g }], launches := [{ ln0 with replay := true, wb := some w }] }
/-- Its band. -/
def bdRep (k g : Nat) : Band := { bd0 with replayAt := some k, gbarCnt := g }

theorem wit_ReplayRecords :
    (let s := wRep [] 0 0
     s.band? bd0.id = some (bdRep 0 0) ∧ (s.launch? bd0.launch).isSome = true ∧ readyReplayers s .replayBandRecord = [(bdRep 0 0, .band)]) ∧
    (let img := bytes64 [(0, 1, 0x21), (4, 4, 64), (8, 4, 0x80000001), (47, 1, 9)]
     readyReplayers (wRep img 1 0) .replayFillRecord = [(bdRep 1 0, .record 0x21 img)]) ∧
    (let img := copyCard
     readyReplayers (wRep img 1 0) .replayJobRecord = [(bdRep 1 0, .record 1 img)] ∧ cardError (wRep img 1 0) (bdRep 1 0) 0 img = none) ∧
    (let img := bytes64 [(0, 1, 1)]
     readyReplayers (wRep img 1 0) .replayJobRecord = [(bdRep 1 0, .record 1 img)] ∧ cardError (wRep img 1 0) (bdRep 1 0) 0 img ≠ none) ∧
    (let img := bytes64 [(0, 1, 0x14), (1, 1, 5)]
     readyReplayers (wRep img 1 0) .replayMatrixRecord = [(bdRep 1 0, .record 0x14 img)] ∧
       mopCheck (bdRep 1 0) 0 (bdRep 1 0).benchBytes (field img 0 1 - 0x10) (field img 1 1) (BitVec.ofNat 10 (field img 2 2)) 0#64 0#64 = none) ∧
    (let img := bytes64 [(0, 1, 0x13), (1, 1, 48)]
     readyReplayers (wRep img 1 0) .replayMatrixRecord = [(bdRep 1 0, .record 0x13 img)] ∧
       mopCheck (bdRep 1 0) 0 (bdRep 1 0).benchBytes (field img 0 1 - 0x10) (field img 1 1) (BitVec.ofNat 10 (field img 2 2)) 0#64 0#64 ≠ none) ∧
    (let img := bytes64 [(0, 1, 0x20), (1, 1, 4)]
     readyReplayers (wRep img 1 0) .replayWaitRecord = [(bdRep 1 0, .record 0x20 img)]) := by decide +kernel

/-- A GBAR record that the band has not reached, and one that is complete; faulted bands of an idempotent and of another launch. -/
theorem wit_ReplayGbarAndFault :
    (let img := bytes64 [(0, 1, 0x22)]
     (readyReplayers (wRep img 1 0) .replayGbarRecord = [(bdRep 1 0, .record 0x22 img)] ∧ (bdRep 1 0).gbarCnt = gbarsBefore (wRep img 1 0) (bdRep 1 0)) ∧
       (let s := { wRep img 1 1 with launches := (wRep img 1 1).launches.map (fun (l : Launch) => { l with gbarCnt := 1 }) }
        readyReplayers s .replayGbarRecord = [(bdRep 1 1, .record 0x22 img)] ∧ (bdRep 1 1).gbarCnt ≠ gbarsBefore s (bdRep 1 1))) ∧
    (∀ idem ∈ [true, false], let bd := { bd0 with replayAt := some 1, replayFault := true }
      let s := { w0 with strs := [], bands := [bd], launches := [{ ln0 with idem := idem }] }
      s.band? bd.id = some bd ∧ s.launch? bd.launch = some { ln0 with idem := idem } ∧ bd.place = .resident 0 ∧ bandBusy s bd.id = false ∧ ln0.stopped = false ∧ ln0.atOnce = false ∧
        (s.ctx? bd.ctx).any (fun (x : Ctx) => x.frozen) = false) := by decide +kernel

/-- The first operation of a core's queue. -/
def mopW (minor : Nat) (d : Option BDesc) (st : Bool) : MOp := { mop0 bd0.id 1 with minor := minor, tile := 47, bd := d, started := st }
/-- The module with that operation. -/
def wMop (m : MOp) : State := { w0 with mops := [m] }

/-- The B descriptor of a BF16 matrix of K = 16. -/
def desc16 : BDesc := { k := 16, fmt := 1, elem := 0, scale := 0 }

/-- Operations that have started: one that is no product; a product that has met the bench as it stands, and one that met another. -/
theorem wit_MatrixRetires :
    (mulOp (mopW 0 (some desc16) true) = false ∧ (coreMops (wMop (mopW 0 (some desc16) true)) 0 0).find? (fun (x : MOp) => x.started) = some (mopW 0 (some desc16) true)) ∧
    (∀ b ∈ [[], [(0, 1#8)]], let m := { mopW 1 (some desc16) true with snaps := [b] }
      (wMop m).band? m.b = some bd0 ∧ ((wMop m).core? 0 0).isSome = true ∧ (coreMops (wMop m) 0 0).find? (fun (x : MOp) => x.started) = some m ∧ mulOp m = true ∧
        m.bd = some desc16) ∧
    bd0.bench = [] ∧ bd0.bench ≠ [(0, 1#8)] := by decide +kernel

theorem wit_MatrixUnit : (∀ m ∈ [mopW 0 (some { k := 16, fmt := 1, elem := 0, scale := 0 }) false, mopW 1 (some { k := 16, fmt := 1, elem := 0, scale := 0 }) false,
      mopW 2 (some { k := 16, fmt := 1, elem := 0, scale := 0 }) false, mopW 3 none false, mopW 4 none false],
      (wMop m).band? m.b = some bd0 ∧ ((wMop m).core? 0 0).isSome = true ∧ mopReady (wMop m) 0 0 = some m) ∧
    (mopW 3 none false).sb.extractLsb' 0 4 = 0#4 ∧ (mopW 3 none false).sb.extractLsb' 8 24 = 0#24 ∧
    (coreMops (wMop (mopW 4 none true)) 0 0).find? (fun (x : MOp) => x.started) = some (mopW 4 none true) := by decide +kernel

theorem wit_Accumulation : ([FVal.fin false 1 0, .nan false true 23 0].any FVal.isNan = true ∨ (fp32.dec (0#32).toNat).isNan = true) ∧
    (FVal.inf true, FVal.fin false 0 0) ∈ [FVal.inf true].zip [FVal.fin false 0 0] ∧ (FVal.inf true).isInf = true ∧ (FVal.fin false 0 0).isZero = true ∧
    (2 ^ 31 - 1 < (0x7FFFFFFF#32).toInt + ([((1 : Int), (1 : Int))].map (fun p => p.1 * p.2)).sum) ∧
    ((0x80000001#32).toInt + ([((1 : Int), (-1 : Int))].map (fun p => p.1 * p.2)).sum < -(2 ^ 31 - 1)) ∧
    (-(2 ^ 31 - 1) ≤ (0x7FFFFFFF#32).toInt + ([] : List (Int × Int)).length) := by decide +kernel

/-- A job of that card. -/
def jobW (ph row : Nat) (st : Bool) : Job := { job0 1 with card := copyCard, ph := ph, row := row, started := st }
/-- The module with some jobs. -/
def wJob (js : List Job) : State := { w0 with jobs := js, sites := [{ die := 0, st := .admitted }] }

theorem wit_EngineCopies :
    (let j := jobW 0 0 false
     (wJob [j]).job? 1 = some j ∧ (wJob [j]).band? j.b = some bd0 ∧ j.started = false ∧ depsDone (wJob [j]) j.deps = true ∧
       strClear (wJob [j]) j.b (j.n.getD 32) j.seq (j.rd ++ j.wr) = true ∧ cardError (wJob [j]) bd0 j.mn j.card = none ∧ cardKind j.card = 1 ∧ copyFits j = true ∧
       cardError (wJob [{ j with card := bytes64 [(0, 1, 9)] }]) bd0 j.mn (bytes64 [(0, 1, 9)]) = some (1, 9) ∧ j.err = none) ∧
    (let j := jobW 0 0 true
     (wJob [j]).job? 1 = some j ∧ (j.region 0).sp = 2 ∧ (j.region 2).sp = 2 ∧ j.started = true ∧ j.err = none ∧ jobOut (wJob [j]) 1 = false ∧ j.row < rowCount j.card) ∧
    ((wJob [jobW 1 0 true]).job? 1 = some (jobW 1 0 true) ∧ jobOut (wJob [jobW 1 0 true]) 1 = false) ∧
    (let j := jobW 4 1 true
     (wJob [j]).job? 1 = some j ∧ j.err = none ∧ jobOut (wJob [j]) 1 = false ∧ j.id = 1 ∧ j.n = some 0) := by decide +kernel

/-- A multicast send of 8 bytes to band 0 of the launch, and that band's receive. -/
def sendJob : Job := { job0 1 with card := bytes64 [(0, 1, 4), (4, 4, 7), (16, 4, 8)], ph := 2, started := true }
/-- The receive. -/
def recvJob : Job := { job0 2 with card := bytes64 [(0, 1, 5), (3, 1, 0x20), (4, 4, 7), (32, 8, 64), (40, 4, 8)], ph := 5, started := true }
/-- A collective of one member: a reduction of two 32-bit words to the bench. -/
def colJob : Job := { job0 1 with card := bytes64 [(0, 1, 3), (3, 1, 0x22), (16, 4, 8), (40, 4, 8), (56, 4, 2)], ph := 2, started := true }
/-- Its group. -/
def grp : Group := { ctx := 0, id := 0, members := [{ m := 0, die := 0 }] }

/-- A job that has failed, of a string that has not ended. -/
theorem wit_FailedJob : let j := { jobW 4 0 true with err := some (7, 4) }
    (wJob [j]).job? 1 = some j ∧ (wJob [j]).band? j.b = some bd0 ∧ j.started = true ∧ j.todo = [] ∧ jobOut (wJob [j]) 1 = false ∧ j.n = some 0 ∧
      (wJob [j]).str? j.b 0 = some t0 ∧ t0.ended = false := by decide +kernel

/-- The bands of the send's target, its receives, the one that it fills, the oldest that waits for it. -/
def bandsAt (s : State) : List Band := s.bands.filter (fun (b : Band) => b.launch == ln0.id && b.index == 0)
/-- Its receives. -/
def mineAt (s : State) : List Job := s.jobs.filter (fun (r : Job) => cardKind r.card == 5 && (bandsAt s).any (fun (b : Band) => b.id == r.b))
/-- The receive that it is filling. -/
def fillingAt (s : State) : Option Job := (mineAt s).find? (fun (r : Job) => r.ph == 3 && r.inst == 1)
/-- The oldest that waits. -/
def oldestAt (s : State) : Option Job := (mineAt s).find? (fun (r : Job) => waitsFill s r && cardW0 r.card == cardW0 sendJob.card)

/-- A receive of the right length that waits, or that a send which is gone has begun to fill, and one of another length; one that this send
fills, with bytes left and with none; no receive, the band live or ended; a die that is not ADMITTED, with no band and with a saved one. -/
theorem wit_MulticastFills :
    (let base := wJob [sendJob]
     base.job? 1 = some sendJob ∧ base.band? sendJob.b = some bd0 ∧ sendJob.ph = 2 ∧ sendJob.filled.contains 0 = false ∧ base.launch? bd0.launch = some ln0 ∧
       0 < ln0.x * ln0.y * ln0.z ∧ bandDie ln0 0 = 0 ∧ (base.site? 0).any (fun (st : Site) => st.st == .admitted) = true) ∧
    (∀ r ∈ [recvJob, { recvJob with ph := 3, inst := 9 }], let s := wJob [sendJob, r]
      s.job? 1 = some sendJob ∧ s.job? r.id = some r ∧ fillingAt s = none ∧ oldestAt s = some r ∧ (r.ph = 5 ∨ r.ph = 3) ∧ (r.region 2).len = inBytes sendJob.card) ∧
    (let r := { recvJob with card := bytes64 [(0, 1, 5), (3, 1, 0x20), (4, 4, 7), (32, 8, 64), (40, 4, 16)] }
     let s := wJob [sendJob, r]
     fillingAt s = none ∧ oldestAt s = some r ∧ s.job? r.id = some r ∧ (r.region 2).len ≠ inBytes sendJob.card) ∧
    (∀ td ∈ [[], [(0, 64)]], let r := { recvJob with ph := 3, inst := 1, data := [7#8], todo := td }
      let s := wJob [sendJob, r]
      fillingAt s = some r ∧ s.job? r.id = some r ∧ (r.region 2).sp = 2 ∧ s.band? r.b = some bd0) ∧
    (let s := wJob [sendJob]
     fillingAt s = none ∧ oldestAt s = none ∧ (∀ b ∈ bandsAt s, b.place ≠ .ended) ∧ bandsAt s = [bd0]) ∧
    (let s := { wJob [sendJob] with bands := [bd0, { bd0 with id := 99, place := .ended }] }
     s.band? sendJob.b = some bd0 ∧ fillingAt s = none ∧ oldestAt s = none ∧ ∃ b ∈ bandsAt s, b.place = .ended) ∧
    (let s := { wJob [sendJob] with sites := [{ die := 0, st := .isolated }] }
     (s.site? (bandDie ln0 0)).any (fun (st : Site) => st.st == .admitted) = false ∧ ∀ b ∈ bandsAt s, b.place ≠ .ended ∧ ∀ c, b.place ≠ .saved c) ∧
    (let s := { wJob [sendJob] with bands := [bd0, { bd0 with id := 99, place := .saved true }], sites := [{ die := 0, st := .isolated }] }
     s.band? sendJob.b = some bd0 ∧ ∃ b ∈ bandsAt s, b.place = .ended ∨ ∃ c, b.place = .saved c) :=
  ⟨by decide +kernel, by decide +kernel, by decide +kernel, by decide +kernel, by decide +kernel,
   ⟨by decide +kernel, by decide +kernel, by decide +kernel, { bd0 with id := 99, place := .ended }, by decide +kernel, rfl⟩,
   ⟨by decide +kernel, fun b h => by have := List.mem_singleton.mp (show b ∈ [bd0] from h); subst this; exact ⟨by decide +kernel, fun c => by decide +kernel +revert⟩⟩,
   by decide +kernel, { bd0 with id := 99, place := .saved true }, by decide +kernel, .inr ⟨true, rfl⟩⟩

theorem wit_EngineGroups :
    (let s := { wJob [colJob] with groups := [grp] }
     s.job? 1 = some colJob ∧ s.group? 0 0 = some grp ∧ grp.members ≠ [] ∧
       (grp.members.zipIdx.filterMap (fun x => memberSent s 0 0 0 grp x.1 x.2)).map (fun x => (x.1, x.2.1, x.2.2.length)) = [(0, 2, 8)] ∧
       (instJobs s 0 0 0).filter (fun (x : Job) => x.ph == 2) = [colJob] ∧ (colJob.region 2).sp = 2) := by decide +kernel

/-! Homes, dies, the fabric, management, the host. -/

/-- Page 0 of context 5, resident at frame 1 of domain 0. -/
def pg5 : Page := { ctx := 5, page := 0, frame := 1 }
/-- The module with context 5, some requests, and operation 1 of the string. -/
def wReq (rs : List Req) (op : Op) (ps : List Page) : State := { w0 with ctxs := w0.ctxs ++ [{ id := 5 }], pages := ps, reqs := rs, ops := [op] }
/-- A load of 4 bytes of which one piece is out. -/
def opl : Op := { id := 1, b := t0.band, n := 0, seq := 3, path := some 2, pc := 0#64, kind := .load .glob 4 7 [(0, 64)], left := 1, sent := true }
/-- A request for line 0 of context 5. -/
def rq (k : ReqKind) (o e : Option Nat) : Req := { id := 7, who := .str t0.band 0, kind := k, op := o, entry := e, die := 0, ctx := 5, line := 0 }
/-- A read of 4 bytes, and a write. -/
def rdK : ReqKind := .read [(0, 64), (1, 65), (2, 66), (3, 67)]

/-- What Arrives asks, as one decidable proposition. -/
def arriving (s : State) (r : Req) (p : Page) : Prop :=
  s.req? 7 = some r ∧ (r.home = s.dev ∧ s.dev < 16) ∧ r.arr = 0 ∧ (s.ctx? r.ctx).bind (fun (c : Ctx) => c.sampler) = none ∧
    homeRefusal s r = none ∧ (s.page? r.ctx (r.line / 512) = some p ∧ p.v = true ∧ p.mov = false ∧ p.lock = 0#8 ∧ p.storing = none ∧ p.putting = none) ∧
    s.dataTo r.die r.ctx r.line = false ∧ (∀ x ∈ s.sites, ∀ c ∈ x.lines, c.ctx = r.ctx → c.line = r.line → c.wb = false ∨ c.arr = 0) ∧
    (s.txn? r.ctx r.line = none ∧ ∀ x ∈ s.reqs, x.id ≠ 7 → x.arr = 0 ∨ x.ctx ≠ r.ctx ∨ x.line ≠ r.line ∨ x.home ≠ r.home ∨ x.pdie.isSome = true)

theorem arrives_of (s : State) (r : Req) (p : Page) (h : arriving s r p) : Arrives s 7 r p :=
  ⟨h.1, h.2.1, h.2.2.1, h.2.2.2.1, h.2.2.2.2.1, h.2.2.2.2.2.1, h.2.2.2.2.2.2.1, h.2.2.2.2.2.2.2.1, h.2.2.2.2.2.2.2.2⟩

/-- Requests of a string and of a job go back to a die; the host's does not. -/
theorem wit_Replies : fromDies (rq rdK (some 1) none) ∧ fromDies { rq rdK none none with who := .job 1 } ∧
    ¬fromDies { rq rdK none none with who := .host 64, die := 15 } ∧ dieTakes { w0 with sites := [{ die := 0, st := .quiescing }] } 0 = true ∧
    dieTakes { w0 with sites := [{ die := 0, st := .isolated }] } 0 = false :=
  ⟨⟨.inl ⟨_, _, rfl⟩, by decide⟩, ⟨.inr ⟨_, rfl⟩, by decide⟩, fun h => h.2 rfl, by decide +kernel, by decide +kernel⟩

/-- The same page in host memory, at frame 2 of it. -/
def pgH : Page := { pg5 with hostres := true, frame := 2 }

/-- Reads, writes and atomics of a page in host memory, which is no window; a reply that has come back to its die. -/
theorem wit_HostPages :
    (∀ k ∈ [rdK, .write [{ a := 64, v := 1#8, seq := 0 }], .rmw 0 false [{ lane := 0, a := 64, x := 1#64, y := 0#64 }]],
      Arrives (wReq [rq k (some 1) none] opl [pgH]) 7 (rq k (some 1) none) pgH ∧ (wReq [rq k (some 1) none] opl [pgH]).dir? 5 0 = none ∧
      (wReq [rq k (some 1) none] opl [pgH]).lineErr 5 0 = none ∧ locOf pgH 0 = .host 131072 ∧ (wReq [rq k (some 1) none] opl [pgH]).window? 131072 = none) ∧
    (let r := { rq rdK (some 1) none with back := some [(0, 7#8)] }
     let s := { wReq [r] opl [] with sites := [{ die := 0, st := .admitted }] }
     s.req? 7 = some r ∧ dieTakes s r.die = true ∧ loadOf s r 1 opl) ∧
    (let r := { rq rdK (some 1) none with back := some [(0, 7#8)] }
     (wReq [r] opl []).req? 7 = some r ∧ dieTakes (wReq [r] opl []) r.die = false) :=
  ⟨fun k hk => ⟨arrives_of _ _ _ (by unfold arriving; simp only [List.mem_cons, List.not_mem_nil, or_false] at hk; rcases hk with rfl | rfl | rfl <;> decide +kernel),
      by rfl, by rfl, by decide +kernel, by rfl⟩,
   ⟨by decide +kernel, by decide +kernel, rfl, rfl, by decide +kernel, rfl, rfl, _, _, _, _, rfl⟩, by decide +kernel, by decide +kernel⟩

theorem wit_HomePerforms :
    (let s := wReq [rq rdK (some 1) none] opl [pg5]
     Arrives s 7 (rq rdK (some 1) none) pg5 ∧ s.dir? 5 0 = none ∧ s.lineErr 5 0 = none ∧ locOf pg5 0 = .gran 65536 ∧ loadOf s (rq rdK (some 1) none) 1 opl) ∧
    (Arrives (wReq [rq (.write [{ a := 64, v := 1#8, seq := 0 }]) none none] opl [pg5]) 7 (rq (.write [{ a := 64, v := 1#8, seq := 0 }]) none none) pg5) ∧
    (let k : ReqKind := .rmw 0 false [{ lane := 0, a := 64, x := 1#64, y := 0#64 }]
     Arrives (wReq [rq k none none] opl [pg5]) 7 (rq k none none) pg5 ∧ sharedWord [{ lane := 0, a := 64, x := 1#64, y := 0#64 }] = false) :=
  ⟨⟨arrives_of _ _ _ (by unfold arriving; decide +kernel), by decide +kernel, by decide +kernel, by decide +kernel, ⟨rfl, rfl, by decide +kernel, rfl, rfl, _, _, _, _, rfl⟩⟩,
   arrives_of _ _ _ (by unfold arriving; decide +kernel), arrives_of _ _ _ (by unfold arriving; decide +kernel), by decide +kernel⟩

/-- A page that is absent, with a pinned request and with one that takes a ticket. -/
theorem wit_AbsentPage :
    (let r := rq rdK (some 1) none
     let s := wReq [r] opl []
     s.req? 7 = some r ∧ r.home = s.dev ∧ s.dev < 16 ∧ r.arr = 0 ∧ (s.ctx? r.ctx).bind (fun (c : Ctx) => c.sampler) = none ∧ homeRefusal s r = none ∧
       s.page? r.ctx (r.line / 512) = none ∧ r.who = .str t0.band 0 ∧ r.entry = none ∧ r.op.isSome = true ∧ r.pinned = false ∧
       s.ticketFor r.ctx (r.line / 512) = some { slot := 0, used := true, ctx := 5, page := 0 } ∧ s.waitsAtHome r = false) ∧
    (let r := rq (.write [{ a := 64, v := 1#8, seq := 0 }]) none (some 3)
     let s := wReq [r] opl []
     s.req? 7 = some r ∧ homeRefusal s r = none ∧ s.waitsAtHome r = true ∧ r.pinned = false ∧
       s.ticketFor r.ctx (r.line / 512) = some { slot := 0, used := true, ctx := 5, page := 0 }) ∧
    (let r := { rq rdK (some 1) none with pinned := true }
     (wReq [r] opl []).req? 7 = some r ∧ r.pinned = true) := by decide +kernel

/-- A verb for die 0's pantry, with the die absent and with it admitted. -/
theorem wit_PantryVerb :
    (let r := { rq rdK (some 1) none with pdie := some 0 }
     let s := { wReq [r] opl [] with sites := [{ die := 0, st := .admitted }] }
     s.req? 7 = some r ∧ r.pdie = some 0 ∧ s.site? 0 = some { die := 0, st := .admitted } ∧ (wReq [r] opl []).site? 0 = some { die := 0 } ∧
       r.arr = 0 ∧ r.op = some 1 ∧ s.op? 1 = some opl ∧ r.who = .str t0.band 0 ∧ r.die ≠ 15 ∧ sharedWord [{ lane := 0, a := 64, x := 1#64, y := 0#64 }] = false) := by decide +kernel

/-- The same home with a directory entry for line 0. -/
def wDir (e : DirEnt) : State := { wReq [rq rdK (some 1) none] opl [pg5] with dir := [e] }
/-- Line 0 owned by die `o`, with some sharers. -/
def ent (st : CState) (o : Nat) (sh : BitVec 10) : DirEnt := { ctx := 5, line := 0, st := st, owner := o, sharers := sh }

theorem wit_DirectoryRequests : Arrives (wReq [rq rdK (some 1) none] opl [pg5]) 7 (rq rdK (some 1) none) pg5 ∧ (rq rdK (some 1) none).die < 10 ∧
    (snoopPeers (wReq [rq rdK (some 1) none] opl [pg5]) 0 0).length < 16 ∧
    moesi { wReq [rq rdK (some 1) none] opl [pg5] with sites := [{ die := 0, cls := some .moesi }] } (rq rdK (some 1) none) = true ∧
    moesi (wReq [rq rdK (some 1) none] opl [pg5]) (rq rdK (some 1) none) = false ∧
    ((wDir (ent .M 9 0#10)).dir? 5 0 = some (ent .M 9 0#10) ∧ (ent .M 9 0#10).st.owns = true ∧ (ent .M 9 0#10).owner ≠ 0 ∧ (ent .M 9 0#10).owner < 16 ∧
      (ent .M 9 0#10).holders.filter (fun x => x != 0) ≠ []) ∧
    ((wDir (ent .S 0 1#10)).dir? 5 0 = some (ent .S 0 1#10) ∧ (ent .S 0 1#10).holders.filter (fun x => x != 0) = []) :=
  ⟨arrives_of _ _ _ (by unfold arriving; decide +kernel), by decide +kernel⟩

/-- Line 0 held by die 9 as a sharer, with the page in granary or in host memory. -/
theorem wit_DirectoryRequests_shared : Arrives (wDir (ent .S 0 1#10)) 7 (rq rdK (some 1) none) pg5 ∧ (ent .S 0 1#10).st.owns = false ∧
    ((ent .S 0 512#10).holders.filter (fun x => x != 0) ≠ [] ∧ Arrives (wDir (ent .S 0 512#10)) 7 (rq rdK (some 1) none) pg5) ∧
    Arrives (wReq [rq rdK (some 1) none] opl [pgH]) 7 (rq rdK (some 1) none) pgH ∧ (rq rdK (some 1) none).who = .str t0.band 0 :=
  ⟨arrives_of _ _ _ (by unfold arriving; decide +kernel), by decide +kernel, ⟨by decide +kernel, arrives_of _ _ _ (by unfold arriving; decide +kernel)⟩,
   arrives_of _ _ _ (by unfold arriving; decide +kernel), rfl⟩

theorem wit_DirectoryRequests_entry : Arrives (wDir (ent .M 9 0#10)) 7 (rq rdK (some 1) none) pg5 := arrives_of _ _ _ (by unfold arriving; decide +kernel)

/-- A modified line of zeros at die 0. -/
def cl (st : CState) : CLine := { ctx := 5, line := 0, st := st, data := List.replicate 128 0#8 }
/-- The module with that line, a directory entry that names die 0, and transactions. -/
def wLine (st : CState) (xs : List Txn) : State := { wReq [rq rdK (some 1) none] opl [pg5] with sites := [{ die := 0, st := .admitted, lines := [cl st] }], dir := [ent st 0 1#10], txns := xs }

theorem wit_DirectoryMessages :
    (∀ st ∈ [CState.M, .O], let s := wLine st []
      s.lineAt 0 5 0 = some (cl st) ∧ (cl st).keep = false ∧ s.txn? 5 0 = none ∧ s.dir? 5 0 = some (ent st 0 1#10) ∧ st.owns = true) ∧
    (∀ k ∈ [TxnKind.gets, .getm, .recall], let x : Txn := { ctx := 5, line := 0, kind := k, r := 7, await := [0] }
      let s := wLine .M [x]
      s.lineAt 0 5 0 = some (cl .M) ∧ s.txn? 5 0 = some x ∧ x.await.contains 0 = true ∧ x.ro = false ∧ s.req? 7 = some (rq rdK (some 1) none) ∧ (s.dir? 5 0).isSome = true) ∧
    (let x : Txn := { ctx := 5, line := 0, kind := .recall, r := 0, await := [0] }
     let s := { wReq [] opl [pg5] with txns := [x] }
     s.lineAt 0 5 0 = none ∧ s.txn? 5 0 = some x ∧ x.await = [0] ∧ x.kind = .recall ∧ s.page? 5 0 = some pg5 ∧ pg5.storing = none ∧ pg5.putting = none ∧
       (domainsOf pg5.rmask).length ≤ 1 ∧ (let p := { pg5 with rmask := 0x81#8 }
         let u := { s with pages := [p] }
         u.txn? 5 0 = some x ∧ u.page? 5 0 = some p ∧ p.storing = none ∧ p.putting = none ∧ 1 < (domainsOf p.rmask).length)) ∧
    (let r := { rq rdK (some 1) none with cached := true }
     let s := { wReq [r] opl [pg5] with sites := [{ die := 0, st := .admitted }] }
     s.req? 7 = some r ∧ r.home = s.dev ∧ s.dev < 16 ∧ r.pdie = none ∧ r.who = .str t0.band 0 ∧ r.remote ≠ 3 ∧ (List.replicate 128 9#8).length = 128 ∧ (s.site? r.die).any (fun (y : Site) => y.st == .admitted) = true ∧
       s.lineAt r.die r.ctx r.line = none ∧ r.op = some 1 ∧ r.entry = none ∧ s.op? 1 = some opl ∧ opl.left = 1 ∧ opl.todo = [] ∧ r.back = none ∧ r.kind = rdK) := by decide +kernel

/-- A write-back that comes before an earlier request, or after one that it stood before; one of a page with a replica. -/
theorem wit_WriteBacks :
    (let s := { wLine .M [] with reqs := [] }
     s.lineAt 0 5 0 = some (cl .M) ∧ s.txn? 5 0 = none ∧ s.dir? 5 0 = some (ent .M 0 1#10) ∧ s.reqs = [] ∧ s.page? 5 (0 / 512) = some pg5 ∧ pg5.storing = none ∧
       pg5.putting = none ∧ (domainsOf pg5.rmask).length ≤ 1 ∧ (∀ x ∈ s.sites, ∀ y ∈ x.lines, y.ctx = 5 → y.line = 0 → y = cl .M ∨ y.wb = false ∨ y.arr = 0)) ∧
    (let r := { rq rdK (some 1) none with arr := 2 }
     let s := { wLine .M [] with reqs := [r], nseq := 2 }
     s.lineAt 0 5 0 = some (cl .M) ∧ (cl .M).arr = 0 ∧ r ∈ s.reqs ∧ r.home = s.dev ∧ r.pdie = none ∧ r.arr ≠ 0 ∧ r.arr ≤ s.nseq) ∧
    (let c := { cl .O with arr := 3 }
     let r := { rq rdK (some 1) none with arr := 2 }
     let s := { wLine .O [] with reqs := [r], sites := [{ die := 0, st := .admitted, lines := [c] }] }
     s.lineAt 0 5 0 = some c ∧ c.keep = false ∧ c.arr ≠ 0 ∧ r ∈ s.reqs ∧ r.arr < c.arr) ∧
    (let p := { pg5 with rmask := 0x81#8 }
     let s := { wLine .M [] with reqs := [], pages := [p] }
     s.page? 5 (0 / 512) = some p ∧ p.storing = none ∧ p.putting = none ∧ 1 < (domainsOf p.rmask).length) := by decide +kernel

/-- A load's request that drew a refusal; a released entry's; strings that wait; a ticket slot; a page with a replica. -/
theorem wit_TicketsAndRefusals :
    (let r := rq rdK (some 1) none
     let s := wReq [r] opl []
     s.req? 7 = some r ∧ ((5#32 : BitVec 32) ≠ 0#32 ∨ r.pinned = false) ∧ r.op = some 1 ∧ s.op? 1 = some opl ∧ opl.undone = false ∧ opl.isPut = false ∧ s.str? opl.b opl.n = some t0 ∧
       r.home = s.dev ∧ t0.rp.seq ≤ opl.seq ∧ remembered s r 5#32 = none ∧ t0.wait = .none ∧ s.band? opl.b = some bd0 ∧ bd0.place = .resident 0 ∧
       (s.core? bd0.die 0).map (fun (c : Core) => c.tickets.length) = some 0) ∧
    (∀ who ∈ [Agent.str t0.band 0, .job 1, .host 64], ∀ st ∈ [SiteSt.admitted, .isolated], let r := { rq rdK none none with who := who }
      let s := { wReq [r] opl [] with sites := [{ die := 0, st := st }] }
      s.req? 7 = some r ∧ dieTakes s r.die = (st == .admitted)) ∧
    (let r := { rq rdK (some 1) none with home := 3 }
     let s := { wReq [r] opl [] with links := [{ m := 3, dead := true }], sites := [{ die := 0, st := .admitted }] }
     s.req? 7 = some r ∧ r.home ≠ s.dev ∧ peerDead s r.home = true ∧ dieTakes s r.die = true ∧ r.op = some 1 ∧ s.op? 1 = some opl ∧ r.who = .str t0.band 0) ∧
    (let t := { t0 with wait := Wait.ticket 5#32 }
     let s := { wReq [] opl [] with strs := [t] }
     s.str? t.band 0 = some t ∧ heldAtHome s 5#32 = false ∧ (∀ u ∈ s.strs, u.wait = .ticket 5#32 → u = t) ∧ (s.strs.filter (fun (u : Str) => u.wait == .ticket 5#32)).length = 1) ∧
    ((at' { t0 with wait := .retry }).str? t0.band 0 = some { t0 with wait := .retry }) ∧
    (let x : TSlot := { slot := 16383, used := true, gen := 0xFFF#12, ctx := 5 }
     let s := { wReq [] opl [{ pg5 with v := false }] with tslots := [x] }
     s.tslots.find? (fun (x : TSlot) => x.slot == 16383 && x.used) = some x ∧ x.ctx ≠ 0 ∧ s.page? 5 0 = some { pg5 with v := false } ∧ pg5.mov = false) ∧
    (let p := { pg5 with rmask := 0x81#8 }
     (wReq [] opl [p]).page? 5 0 = some p ∧ (7 ≠ p.prim) ∧ p.rmask.getLsbD 7 = true) := by decide +kernel

/-- Notices that the string's core remembers, for a load and for a `put`; ticket 0 with its band and launch; an access that waits at the home; a
FAILED notice for a string whose traps are masked, and for one with a handler; a page that is absent, with a held access. -/
theorem wit_Notices :
    (∀ code ∈ [0#8, 5#8], ∀ k ∈ [opl.kind, .copy .bench .pantry 0 0 8 false], let r := rq rdK (some 1) none
      let s := { wReq [r] { opl with kind := k } [] with cores := [{ die := 0, num := 0, notices := [(5#32, code, false)] }] }
      s.req? 7 = some r ∧ remembered s r 5#32 = some code ∧ s.op? 1 = some { opl with kind := k } ∧ ({ opl with kind := k } : Op).isPut = (k != opl.kind)) ∧
    (let r := { rq rdK none none with pinned := true }
     let s := wReq [r] opl []
     r.who = .str t0.band 0 ∧ r.pinned = true ∧ r.op = none ∧ remembered s r 5#32 = none ∧ s.band? t0.band = some bd0 ∧ (∀ x ∈ s.bands, x = bd0) ∧ bd0.place ≠ .ended ∧
       (∀ l ∈ s.launches, l = ln0) ∧ ln0.ctx = bd0.ctx ∧ ln0.complete = false ∧ ln0.status = 0) ∧
    heldAtHome (wReq [{ rq rdK none (some 3) with held := some 5#32 }] opl []) 5#32 = true ∧
    (let t := { t0 with wait := Wait.ticket 5#32, stat := 0x40000#64 }
     let s := { wReq [] opl [] with strs := [t] }
     s.str? t.band 0 = some t ∧ heldAtHome s 5#32 = false ∧ (∀ u ∈ s.strs, u.wait = .ticket 5#32 → u = t) ∧ (s.strs.filter (fun (u : Str) => u.wait == .ticket 5#32)).length = 1 ∧
       t.ended = false ∧ s.band? t.band = some bd0 ∧ bd0.place = .resident 0 ∧ bd0.prof ≠ .executive ∧ tm0 t = true) ∧
    (let t := { th with wait := Wait.ticket 5#32 }
     let s := { atBale t with ops := [] }
     let u := rolled s t.band 0 { t with wait := .none, tkLast := 2 }
     s.str? t.band 0 = some t ∧ heldAtHome s 5#32 = false ∧ s.band? t.band = some bd0 ∧ tm0 t = false ∧ u.xtvec ≠ 0#64 ∧ inBale s bd0.bale u.xtvec = true) ∧
    (∀ code ∈ [0x81#8, 0x83#8, 0x84#8], let x : TSlot := { slot := 3, used := true, ctx := 5 }
      let r := { rq rdK none (some 3) with held := some (ticketId 0 3 x.gen) }
      let s := { wReq [r] opl [{ pg5 with v := false }] with tslots := [x] }
      s.tslots.find? (fun (x : TSlot) => x.slot == 3 && x.used) = some x ∧ s.page? 5 0 = some { pg5 with v := false } ∧ (code = 0x81#8 ∨ code = 0x83#8 ∨ code = 0x84#8) ∧
        r ∈ s.reqs ∧ r.home = s.dev ∧ r.pdie = none ∧ s.waitsAtHome r = true ∧ homeRefusal s r = none) := by
  refine ⟨?_, ?_, ?_, ?_, ?_, ?_⟩ <;> decide +kernel

/-- The table of a lane die, with the IEEE CRC-32 of its first 252 bytes, worked out outside, or with another value. -/
def capT (c : Bool) : CapTable :=
  { bytes := (bytes64 [(0, 2, 1), (2, 1, 1), (4, 2, 48), (6, 1, 16), (7, 1, 32), (8, 4, 512), (12, 4, 768), (16, 4, 256), (20, 1, 128), (21, 1, 1), (22, 1, 8), (23, 1, 1),
      (24, 2, 512), (26, 2, 1024), (28, 2, 256), (30, 1, 7), (31, 1, 7), (32, 1, 5), (33, 1, 64), (34, 1, 15), (36, 2, 4)]) ++ List.replicate 188 0#8 ++
      leBytes 4 (if c then 0x0268A4AA else 0), sigOk := true }

/-- The bytes of the table before CHECK. -/
def capBody : List Byte := (capT true).bytes.take 252

/-- CRC-32 goes over a list piece by piece. -/
theorem crc_piece (l : List Byte) (n : Nat) (c : BitVec 32) : l.foldl crcByte c = (l.drop n).foldl crcByte ((l.take n).foldl crcByte c) := by
  rw [← List.foldl_append, List.take_append_drop]

/-- Its value after each 32 bytes, worked out outside. -/
theorem crc_steps : ([(0, 0xFFFFFFFF#32, 0xFCF59FA1#32), (32, 0xFCF59FA1#32, 0xCD72AFA5#32), (64, 0xCD72AFA5#32, 0xE64F4D31#32), (96, 0xE64F4D31#32, 0xD2A94D95#32), (128, 0xD2A94D95#32, 0x35C42655#32), (160, 0x35C42655#32, 0x7530180A#32), (192, 0x7530180A#32, 0xC154A2B3#32), (224, 0xC154A2B3#32, 0xFD975B55#32)] : List (Nat × BitVec 32 × BitVec 32)).all (fun x =>
    ((capBody.drop x.1).take 32).foldl crcByte x.2.1 == x.2.2) = true := by decide +kernel

theorem test_crc : crc32 capBody = 0x0268A4AA#32 := by
  have h := crc_steps
  simp only [List.all_cons, List.all_nil, Bool.and_true, Bool.and_eq_true, beq_iff_eq] at h
  obtain ⟨h0, h1, h2, h3, h4, h5, h6, h7⟩ := h
  unfold crc32
  rw [← List.drop_zero (l := capBody), crc_piece _ 32, h0, List.drop_drop, crc_piece _ 32, h1, List.drop_drop, crc_piece _ 32, h2, List.drop_drop,
    crc_piece _ 32, h3, List.drop_drop, crc_piece _ 32, h4, List.drop_drop, crc_piece _ 32, h5, List.drop_drop, crc_piece _ 32, h6, List.drop_drop,
    crc_piece _ 32, h7, List.drop_drop]
  decide +kernel

theorem cap_ok : capOk 0 (capT true) = true := by
  have h : ¬((capT true).bytes.length ≠ 256 ∨ (crc32 ((capT true).bytes.take 252)).toNat ≠ field (capT true).bytes 252 4) := by
    rw [show crc32 ((capT true).bytes.take 252) = _ from test_crc]
    decide +kernel
  unfold capOk capCause
  rw [if_neg h]
  decide +kernel

theorem cap_bad : capOk 0 (capT false) = false := by
  have h : (capT false).bytes.length ≠ 256 ∨ (crc32 ((capT false).bytes.take 252)).toNat ≠ field (capT false).bytes 252 4 := by
    rw [show (capT false).bytes.take 252 = capBody by decide +kernel, test_crc]
    decide +kernel
  unfold capOk capCause
  rw [if_pos h]
  decide

/-- The module in normal mode with one site. -/
def wSite (x : Site) : State := { w0 with stage := 5, smode := 0, sites := [x], strs := [], bands := [] }

theorem wit_DiesTrainAndAdmit : ((wSite { die := 0, st := .training, trainFail := 2 }).site? 0 = some { die := 0, st := .training, trainFail := 2 }) ∧
    (wSite { die := 0, st := .enumerating }).site? 0 = some { die := 0, st := .enumerating } ∧ capOk 0 (capT true) = true ∧ capOk 0 (capT false) = false ∧
    mayAdmit (wSite { die := 0, st := .enumerating }) 0 = true := ⟨by decide +kernel, by decide +kernel, cap_ok, cap_bad, by decide +kernel⟩

theorem wit_DiesHang :
    (let x : Site := { die := 0, st := .admitted, hbMiss := 2, hbOut := true, lines := [cl .M] }
     let s := { wSite x with dir := [ent .M 0 0#10] }
     s.site? 0 = some x ∧ x.beats = true ∧ noneAwaits s 0 ∧ (∀ q ∈ s.reqs, q.src = 0 → q.die = 0) ∧ s.dir.filter (fun (y : DirEnt) => y.st.owns && y.owner == 0) = [ent .M 0 0#10] ∧ s.lineAt 0 5 0 = some (cl .M) ∧
       s.forfeit.length < 65536) ∧
    (let x : Site := { die := 11, st := .admitted, hbMiss := 1, hbOut := true }
     (wSite x).site? 11 = some x ∧ x.beats = true ∧ x.hbMiss < 2) ∧
    (let x : Site := { die := 0, st := .admitted, cap := some (capT true), gts := 32 }
     (wSite x).site? 0 = some x ∧ x.retraining = none ∧ x.cap = some (capT true) ∧ ((stepsOf (capUsteps (capT true))).filter (fun g => decide (x.gts < g))).head? = some 48 ∧
       ((stepsOf (capUsteps (capT true))).filter (fun g => decide (g < x.gts))).getLast? = some 16) ∧
    (∀ g ∈ [16, 32], ∀ f ∈ [1, 2], let x : Site := { die := 0, st := .admitted, gts := g, retraining := some 16, retrainFail := f }
      (wSite x).site? 0 = some x ∧ x.retraining = some 16 ∧ noneAwaits (wSite x) 0) := by unfold noneAwaits; decide +kernel

/-- A management record of a target, its argument bytes from offset 8. -/
def mrec (tg : Nat) (fs : List (Nat × Nat × Nat)) : MgmtRec := { target := tg, args := ((bytes64 fs).drop 8).take 48, done := 256#64, sq := 1 }
/-- The module with that record's command in progress. -/
def wCmd (s : State) (code : Nat) (r : MgmtRec) : State := { s with mgmtBusy := some (code, r) }

theorem wit_DiesQuiesceReset :
    (∀ st ∈ [SiteSt.admitted, .quiescing, .isolated, .absent, .training, .enumerating, .resetting], ∀ code ∈ [0x0B, 0x0C], let x : Site := { die := 11, st := st }
      let s := wCmd (wSite x) code (mrec 11 [])
      s.site? 11 = some x ∧ s.mgmtBusy = some (code, mrec 11 []) ∧ (mrec 11 []).target = 11 ∧ s.bands.find? (bandOnDie 11) = none ∧ x.lines = [] ∧ dieInvolved s 11 = false ∧
        noneAwaits s 11) ∧
    (let s := wCmd { w0 with sites := [{ die := 0, st := .quiescing }] } 0x0C (mrec 0 [])
     s.site? 0 = some { die := 0, st := .quiescing } ∧ bd0 ∈ s.bands ∧ s.band? bd0.id = some bd0 ∧ bd0.die = 0 ∧ bd0.replayAt = none ∧ bd0.place = .resident 0 ∧
       noneAwaits s 0) := by unfold noneAwaits; decide +kernel

/-- An alarm of die 0 meets context 0, whose band is resident there, and not context 5. -/
theorem wit_Alarms :
    (let s := { w0 with ctxs := w0.ctxs ++ [{ id := 5 }] }
     s.ctx? 0 = some { id := 0, pool := 268435456 } ∧ alarmed s false 0 0 = true ∧ alarmed s false 0 5 = false ∧ alarmed s true 7 0 = true ∧ (s.site? 0).isSome = true ∧
       s.cores.any (fun (k : Core) => k.die == 0) = true) := by decide +kernel

/-- Links in each state that a clause asks for. -/
theorem wit_FabricLinksAndPeers :
    (∀ l ∈ [({ m := 3 } : Link), { m := 3, retraining := true, fails := 1 }, { m := 3, retraining := true, fails := 2 }, { m := 3, retraining := true, skipped := true, hbMiss := 2 }, { m := 3, up := false }, { m := 3, hbMiss := 2 }],
      let s := { w0 with links := [l, { m := 4 }] }
      s.link? 3 = some l ∧ l.dead = false ∧ noneAwaits s (16 + 3) ∧ 3 ≠ s.dev) ∧
    ({ m := 3, retraining := true, fails := 2 } : Link).up = true ∧ ({ m := 3 } : Link).retraining = false := by unfold noneAwaits; decide +kernel

/-- CTX_CREATE of an unused and of a used context, reading its keys in host memory; the two phases of CTX_DESTROY; PREEMPT of the resident band; SPAN_INV. The
premises of LOAD are met up to the table of the object, which is free (log 6). -/
theorem wit_ContextCommands :
    (let r := mrec 5 [(9, 1, 1), (12, 4, 1), (16, 8, 2 ^ 47), (24, 4, 224)]
     let s := wCmd w0 0x01 r
     s.mgmtBusy = some (0x01, r) ∧ s.ctx? r.target = none ∧ (peeked (peekVa s 0 (r.arg 16 8) (r.arg 24 4))).isSome = true ∧
       ((wCmd { w0 with ctxs := [{ id := 5 }] } 0x01 r).ctx? r.target).isSome = true ∧ (∀ q ∈ (wCmd w0 0x101 r).reqs, q.who ≠ .serai 0 r.sq)) ∧
    (let r := mrec 5 []
     let s := wCmd { w0 with ctxs := [{ id := 5 }] } 0x02 r
     (s.ctx? r.target).isSome = true ∧ (s.bands.map (fun (b : Band) => b.id)).Nodup ∧ r.target ≠ 0 ∧ (∀ e ∈ s.dir, e.ctx ≠ r.target) ∧ (∀ x ∈ s.txns, x.ctx ≠ r.target)) ∧
    (let r := mrec 5 [(8, 8, 2 ^ 47), (16, 8, 64)]
     let s := wCmd { w0 with ctxs := [{ id := 5 }] } 0x03 r
     s.ctx? r.target = some { id := 5 } ∧ (peeked (peekVa s 0 (r.arg 8 8) (r.arg 16 8))).isSome = true) ∧
    (let r := mrec 0 []
     let s := wCmd w0 0x04 r
     s.launches.find? (fun (l : Launch) => l.q == r.target && l.sq == r.arg 8 8 && !l.complete) = some ln0 ∧
       s.bands.find? (fun (b : Band) => b.launch == ln0.id && b.index == r.arg 16 4 && (b.place matches .resident _)) = some bd0) := by decide +kernel

/-- PAGE of context 5: an absent page for the host and for the granary; a pinned, a plain and a moving page. -/
theorem wit_PageCommands :
    (let s := wCmd (wReq [] opl []) 0x05 (mrec 5 [(24, 1, 0), (25, 1, 1), (26, 1, 1), (32, 8, 65536)])
     (s.ctx? 5).isSome = true ∧ s.page? 5 0 = none ∧ (mrec 5 [(24, 1, 0), (25, 1, 1), (26, 1, 1), (32, 8, 65536)]).arg 26 1 = 1) ∧
    (let r := mrec 5 [(24, 1, 7), (25, 1, 0x80)]
     let s := wCmd (wReq [] opl []) 0x05 r
     r.target ≠ 0 ∧ r.page = 0 ∧ r.arg 26 1 ≠ 1 ∧ freeFrame s (BitVec.ofNat 8 (r.arg 25 1)) = some 262144 ∧
       (wCmd (wReq [] opl [pg5]) 0x05 r).page? 5 0 = some pg5 ∧ pg5.pin = false ∧ pg5.mov = false ∧ pg5.v = true ∧ pg5.hostres = false ∧
       (freeFrame (wCmd (wReq [] opl [pg5]) 0x05 r) (BitVec.ofNat 8 (r.arg 25 1))).isSome = true ∧
       (wCmd (wReq [] opl [{ pg5 with pin := true }]) 0x05 r).page? 5 0 = some { pg5 with pin := true } ∧
       (let p := { pg5 with mov := true, move := some (7, 0x80#8, false, 262144) }
        (wCmd (wReq [] opl [p]) 0x05 r).page? 5 0 = some p ∧ pageBusy (wCmd (wReq [] opl [p]) 0x05 r) 5 0 = false)) := by decide +kernel

/-- An allocation of two domains on the page, which other masks pass; a page that is to get a replica back. -/
theorem wit_Allocations :
    (∀ ps ∈ [[], [pg5]], let r := mrec 5 [(25, 1, 0x80)]
      let s := { wCmd (wReq [] opl ps) 0x05 r with allocs := [{ ctx := 5, page := 0, mask := 3#8 }] }
      s.mgmtBusy = some (0x05, r) ∧ (s.inAlloc r.target r.page 0x80#8).isSome = false ∧ (s.inAlloc r.target r.page 2#8).isSome = true ∧ (s.ctx? r.target).isSome = true ∧
        s.page? 5 0 = ps.head?) ∧
    (let p := { pg5 with dropped := 0x80#8 }
     let r := mrec 5 [(25, 1, 0x80)]
     let s := wCmd (wReq [] opl [p]) 0x05 r
     s.page? 5 0 = some p ∧ p.pin = false ∧ p.mov = false ∧ p.v = true ∧ p.hostres = false ∧ p.rmask ||| (p.dropped &&& 0x80#8) ≠ p.rmask ∧
       (s.inAlloc r.target r.page (p.rmask ||| (p.dropped &&& 0x80#8))).isSome = true) := by decide +kernel

/-- A command of each code in progress, with its object present or absent as the clause asks. -/
theorem wit_WindowAndLogCommands :
    (let r := mrec 1 [(8, 2, 5), (10, 1, 1), (11, 1, 1), (24, 8, 65536), (32, 1, 0x73)]
     let s := wCmd (wReq [] opl []) 0x07 r
     (∀ e ∈ s.extents, e.n = r.target → e.revoked = true) ∧ (s.ctx? (r.arg 8 2)).isSome = true) ∧
    (let e : Extent := { n := 1, ctx := 5, coherent := true, base := 0, len := 65536, peers := [(3, true, true, true)] }
     let s := wCmd { w0 with extents := [e] } 0x08 (mrec 1 [])
     s.extents.find? (fun (e : Extent) => e.n == 1) = some e ∧ e.revoked = false ∧ s.dir = [] ∧ s.txns = [] ∧ s.reqs = []) ∧
    (let r := mrec 5 [(9, 1, 2), (17, 1, 0x71)]
     let s := wCmd (wReq [] opl []) 0x09 r
     (s.ctx? r.target).isSome = true ∧ s.group? r.target (r.arg 8 1) = none ∧
       ((wCmd { w0 with groups := [{ ctx := 5, id := 0, members := [] }] } 0x0A r).group? r.target (r.arg 8 1)).isSome = true) ∧
    ((mrec 1 [(8, 8, 2 ^ 47), (16, 4, 64)]).target = 1 ∧ 0x1010D % 256 = 0x0D ∧ 0x1010D / 256 % 256 = 1 ∧ 0x10E % 256 = 0x0E ∧ 0x10E / 256 % 256 = 1 ∧
      ∀ q ∈ (wCmd w0 0x1010D (mrec 1 [])).reqs, q.who ≠ .serai 0 1) ∧
    (let r := mrec 5 [(8, 8, 2 ^ 47), (16, 8, 2 ^ 40)]
     let s := wCmd (wReq [] opl []) 0x0F r
     s.ctx? r.target = some { id := 5 } ∧ seraiSpan s 0 (r.arg 8 8) = (s, some 0xC000070000000000#64) ∧ entHome 0xC000070000000000#64 = 16) ∧
    ((mrec 1 [(8, 8, 4096), (16, 8, 4)]).target ≠ 0 ∧ (w0.smode ≠ 1 ∨ { w0 with stage := 5 }.stage = 5) ∧ w0.smode = 1 ∧ w0.stage ≠ 5) := by decide +kernel

/-- A queue window written in start-up and after it; polling slots with a packet to fetch; the aperture mapped and unmapped. -/
def wPoll (q : Nat) : State :=
  { w0 with stage := 5, cores := [{ die := 15, num := 0 }],
            queues := [{ q := q, qbase := 0x800000000000#64, log2 := 4, widx := 16#32, st := .on }] }

/-- Their windows after the sweep. -/
def due (q : Nat) : Queue := { q := q, qbase := 0x800000000000#64, log2 := 4, widx := 16#32, st := .on }

theorem wit_Polling :
    ((wPoll 4095).stage = 5 ∧ 4095 < 4096 ∧ (State.reset.stage ≠ 5)) ∧
    (∀ q ∈ [0, 4095], let s := wPoll q
      (s.core? 15 0).map (fun (c : Core) => c.halted) = some false ∧ (polled s 0 q).queue? q = some (due q) ∧ (due q).st = .on ∧ (due q).widx ≠ (due q).ridx ∧
        (due q).waiting (due q).widx ≤ 2 ^ (due q).log2 ∧ (peeked (peekVa (polled s 0 q) (due q).ctx (nextPkt (due q)) 64)).isSome = true ∧ s.mgmtBusy = none ∧ (due q).pkts = []) ∧
    (wPoll 4095).ctx? (due 4095).ctx = some { id := 0, pool := 268435456 } ∧
    (field (bytes64 [(0, 2, 6), (4, 4, 5)]) 2 2 = 0 ∧ argsOk 6 (mrec 5 []) = true ∧ argsOk 6 (mrec 5 [(8, 1, 1)]) = false) := by decide +kernel

/-- An unmapped unit; units of context 0 at host memory, and at a span that its map lacks. -/
theorem wit_HostAperture :
    (w0.stage ≠ 5 ∧ hostPosted (.read 8) = false ∧ hostPosted (.write [1#8]) = true) ∧
    (let s := { w0 with stage := 5, aperture := [(2 ^ 15 - 1, (1, 0x800000000000#64))] }
     s.stage = 5 ∧ (smGet (0, 0#64) s.aperture 0).1 = 0 ∧ 2 ^ 36 - 64 < 2 ^ 36 ∧ (smGet (0, 0#64) s.aperture ((2 ^ 36 - 64) / 2 ^ 21)).1 = 1 ∧
       (2 ^ 36 - 64) % 2 ^ 21 + hostLen (.read 64) ≤ 2 ^ 21 ∧ (2 ^ 36 - 64) % hostLen (.fetchAdd true 1#64) = 0 ∧
       seraiSpan s 0 (2 ^ 47 + 2 ^ 21 - 64) = (s, some 0xC000070000000000#64) ∧ hostNeed (.fetchAdd true 1#64) 0xC000070000000000#64 = none ∧ hostNeed (.read 64) 0xC000070000000000#64 = none ∧
       (∀ acc ∈ [HostAcc.swap true 1#64, .cas false 1#64 2#64], hostNeed acc 0xC000070000000000#64 = none ∧ (2 ^ 36 - 64) % hostLen acc = 0 ∧ (2 ^ 36 - 64) % 2 ^ 21 + hostLen acc ≤ 2 ^ 21)) ∧
    (let acc := HostAcc.write (List.replicate 192 7#8)
     let s := { w0 with stage := 5, aperture := [(0, (1, 0x800000000000#64))] }
     (smGet (0, 0#64) s.aperture 0).1 = 1 ∧ 64 % 2 ^ 21 + hostLen acc ≤ 2 ^ 21 ∧ hostLen (.read 192) = 192 ∧ seraiSpan s 0 (2 ^ 47 + 64) = (s, some 0xC000070000000000#64) ∧
       hostNeed acc 0xC000070000000000#64 = none ∧ hostPosted acc = true ∧ (2 ^ 47 + 64) / 128 ≠ (2 ^ 47 + 64 + 191) / 128) ∧
    (let s := { w0 with stage := 5, aperture := [(0, (1, 0x400000000#64))] }
     (smGet (0, 0#64) s.aperture 0).1 ≠ 0 ∧ seraiSpan s 0 ((0x400000000#64).toNat + 0) = (s, none)) := by decide +kernel

/-- Die 0 holds a line of context 0 whose first eight bytes are these. -/
def held0 (line n : Nat) : DirEnt × CLine := ({ ctx := 0, line := line, st := .M, owner := 0, sharers := 0#10 }, { ctx := 0, line := line, st := .M, data := leBytes 8 n ++ List.replicate 120 0#8 })
/-- Context 5, whose first span may be read alone; the entries of its tables, at 0x20000 and 0x30000 of context 0, are in die 0's caches. -/
def wTables : State :=
  let ls := [held0 1024 0x8000000000030000, held0 1536 0x8000010000000000]
  { w0 with stage := 5, ctxs := w0.ctxs ++ [({ id := 5, spanBase := 0x20000#64 } : Ctx)], aperture := [(0, (6, 0#64))], dir := ls.map (fun x => x.1),
            sites := [{ die := 0, st := .admitted, lines := ls.map (fun x => x.2) }] }

/-- A posted write and a FetchAdd whose span lacks the right. -/
theorem wit_HostRights : (smGet (0, 0#64) wTables.aperture 0).1 = 6 ∧ (seraiSpan wTables 5 64).2 = some 0x8000010000000000#64 ∧
    (hostNeed (.write [1#8]) 0x8000010000000000#64).isSome = true ∧ (hostNeed (.fetchAdd true 1#64) 0x8000010000000000#64).isSome = true := by decide +kernel

/-! Encodings and the step. -/

/-- The error of a word that the decoder refuses. -/
def errOf {ε α : Type} : Except ε α → Option ε
  | .ok _ => none
  | .error e => some e

theorem wit_Encodings : wellFormed DecCtx.full (.ldG 7 126 63 true 5 3 15 31) = true ∧
    okOf (decodeSlot DecCtx.full { w := 0x040C1880#32, e := 0#8, hdr := false }) = some (.iadd 0 6 3 4) ∧
    ([1, 2, 3, 4, 5, 6, 7, 8, 9, 10, 11, 12, 13, 16, 17, 18, 19, 24, 25, 26, 27, 28, 29, 30, 31, 32, 33, 34, 35, 36, 40, 41, 42, 44] : List Nat).contains (0x3F#6).toNat = false := by decide

/-- An access whose order code its direction or width does not take. -/
theorem wit_IllegalOrder : errOf (decodeSlot DecCtx.full (encode (.ldG 0 1 2 false 4 5 0 0))) = some .illegalOrder ∧
    errOf (decodeSlot DecCtx.full (encode (.stG 0 1 2 false 4 1 0 0))) = some .illegalOrder := by decide

theorem wit_StoreWidths : (let sl := encode (.stG 0 1 2 false 1 0 0 0)
    sl.maj = 0x19#6 ∧ sl.mw = 1#3) ∧ (126#7).toNat % widthRegs 5 = 0 ∧ (124#7).toNat % widthRegs 6 = 0 ∧ (127#7).toNat % widthRegs 4 = 0 := by decide

/-- A canonical state from which a step runs an instruction. -/
theorem wit_StepKeepsMemories : (State.reset.withFetchWord 32 0x040C1880).memoriesWf = true ∧ goesOn (step (State.reset.withFetchWord 32 0x040C1880)) = true := by decide +kernel

/-- The module whose next bundle holds one word, and its string. -/
def wWord (w : Nat) : State := State.reset.withFetchWord 32 w
/-- The string. -/
def tWord (w : Nat) : Str := (wWord w).strs.headD t0
/-- The outcome's state. -/
def nextOf : Host.Outcome State Fault Refusal → Option State
  | .next s => some s
  | _ => none

/-- `iadd v6, v3, v4` completes; `trap 5` ends its bundle. -/
theorem wit_StepRunsDecoded :
    (let s := wWord 0x040C1880
     let t := tWord 0x040C1880
     let p : Path := { pc := 0#64, mask := 0xFFFFFFFF#32 }
     let b : Bundle := { proof := false, boundary := false, slots := [(0, .iadd 0 6 3 4), (1, .nop), (2, .nop), (3, .nop)] }
     let sm := s.modCore 0 0 (fun y => { y with mptr := smPut 0 y.mptr 0 ((t.rslot + 1) % 8) })
     acts s = [.merge 0 0 0] ∧ primary s 0 0 0 = some (t, .slot false) ∧ secondary s 0 0 0 (t, .slot false) = none ∧ slotOf t false = some p ∧
       fetchAt sm t false p = .bundle b ∧
       (nextOf (exec (.iadd 0 6 3 4) ((atIssue sm t false p b).modBun (fun x => { x with islot := 0 })))).map (fun s1 => (s1.stoppedBy, overflowed s1)) =
         some (none, false) ∧ heldBack s t (.slot false) = false) ∧
    (let s := wWord 0x480000A9
     let t := tWord 0x480000A9
     let p : Path := { pc := 0#64, mask := 0xFFFFFFFF#32 }
     let b : Bundle := { proof := false, boundary := false, slots := [(0, .trap 5), (1, .nop), (2, .nop), (3, .nop)] }
     let sm := s.modCore 0 0 (fun y => { y with mptr := smPut 0 y.mptr 0 ((t.rslot + 1) % 8) })
     acts s = [.merge 0 0 0] ∧ primary s 0 0 0 = some (t, .slot false) ∧ secondary s 0 0 0 (t, .slot false) = none ∧
       fetchAt sm t false p = .bundle b ∧ isProofBundle b = false ∧
       (nextOf (exec (.trap 5) ((atIssue sm t false p b).modBun (fun x => { x with islot := 0 })))).map (fun s1 => s1.stoppedBy) = some (some 0)) := by decide +kernel

/-- `waitc` on path 4, whose counter stands at 1: the primary's bundle is tried and waits. -/
theorem wit_HeldBack :
    let t := { tWord 0x8C080000 with outst := [{ o := 1, path := 4, back := false }] }
    let s := { wWord 0x8C080000 with strs := [t] }
    acts s = [.merge 0 0 0] ∧ primary s 0 0 0 = some (t, .slot false) ∧ heldBack s t (.slot false) = true ∧ (nextOf (issueTurn s t (.slot false))).isSome = true := by decide +kernel

theorem wit_loneSlot : loneSlot { proof := false, boundary := false, slots := [(0, .iadd 0 6 3 4), (1, .nop), (2, .nop), (3, .nop)] } 0 (.iadd 0 6 3 4) :=
  ⟨[], [(1, .nop), (2, .nop), (3, .nop)], rfl, by decide, by decide⟩

/-- One event alone, nothing at all, and two acts. -/
theorem wit_StepEvents : acts { State.reset with agenda := [.heartbeat] } = [.event 0 .heartbeat] ∧ acts { State.reset with agenda := [] } = [] ∧
    2 ≤ (acts { State.reset with agenda := [.heartbeat, .moduleReset] }).length ∧ (∀ t ∈ State.reset.strs, t.waitX = none) := by decide +kernel

/-! Premises that the witnesses above leave. -/

/-- A matrix unit whose queue is full, of a string that records nothing; a job form whose card no released atomic still changes, with room and without. -/
theorem wit_UnitsBusy :
    (let s := { atBand loadedBand tm with mops := (List.range 64).map (mop0 tm.band) }
     Issuing s tm [] (bunOf' tm) ∧ 64 ≤ (bandMops s tm.band).length ∧ noTearHeld s (bunOf' tm)) ∧
    (let bu := { bunOf' ta with seq := 2 }
     let s := { at' ta with bun := some bu, ops := [{ id := 1, b := ta.band, n := 0, seq := 1, path := some 3, pc := 0#64, kind := .copy .pantry .bench 0 64 8 false, left := 1, sent := true, foot := [{ sp := .bench, a := 64, n := 8 }] }] }
     Issuing s ta [] bu ∧ case6 s ta [] [{ sp := .bench, a := 64, n := 64 }] = false ∧ cardBusy s ta 0xFFFFFFFF#32 64 2 = true) ∧
    (let s := { at' ta with jobs := (List.range 64).map job0 }
     Issuing s ta [] (bunOf' ta) ∧ cardBusy s ta 0xFFFFFFFF#32 64 0 = false ∧ case6 s ta [] [{ sp := .bench, a := 64, n := 64 }] = false ∧ noTearHeld s (bunOf' ta)) :=
  ⟨⟨⟨rfl, rfl, rfl, rfl⟩, by decide +kernel, .inl (by decide +kernel)⟩, ⟨⟨rfl, rfl, rfl, rfl⟩, by decide +kernel⟩, ⟨rfl, rfl, rfl, rfl⟩, by decide +kernel, by decide +kernel, .inl (by decide +kernel)⟩

/-- Core 0 copies segment 0 of the band's bale, of which it has no frame. -/
theorem wit_SegmentCopy :
    let bl := w0.bales.headD { id := 0, ctx := 0, code := 0, base := 0#64, len := 0, words := [], segs := [] }
    let f : Frame := { meas := bl.meas, seg := 0 }
    let c : Core := { die := 0, num := 0, copies := [f] }
    let s := { at' t0 with cores := [c] }
    s.core? 0 0 = some c ∧ s.bale? bl.id = some bl ∧ c.copies.any f.same = true ∧ c.frames.length ≤ 4 ∧ c.frames.any f.same = false ∧ tb.wbStrict = false := by decide +kernel

/-- Room in the pool of 256 MiB, and none in a pool of 0. -/
theorem wit_SavesRoom :
    (let s := atBand (fun b => { b with preempt := true }) { t0 with stop := .stopped }
     saveReady s t0.band = true ∧ roomFor (makeRoom s 0 (saveSize { bd0 with preempt := true })) 0 (saveSize { bd0 with preempt := true }) = true) ∧
    (let s := { atBand (fun b => { b with preempt := true }) { t0 with stop := .stopped } with ctxs := [{ id := 0, pool := 0 }] }
     saveReady s t0.band = true ∧ roomFor (makeRoom s 0 (saveSize { bd0 with preempt := true })) 0 (saveSize { bd0 with preempt := true }) = false ∧
       (s.ctx? bd0.ctx).any (fun (c : Ctx) => c.quarantined) = false) := by decide +kernel

/-- The launch with nothing of its bands outstanding, untorn or torn; and with a released entry. -/
theorem wit_LaunchQuiet :
    launchQuiet (wEnd id) ln0 = true ∧
    (let l := { ln0 with recording := true, handle := 3 }
     let s := wEnd (fun _ => l)
     launchQuiet s l = true ∧ ((s.waybills.filter (fun (v : Waybill) => !(v.ctx == (waybillOf s l).ctx && v.handle == (waybillOf s l).handle))).filter
       (fun (v : Waybill) => v.die == (waybillOf s l).die && !v.spilled && v.valid)) = []) ∧
    (let s := { wEnd id with rels := [(bd0.id, 0, { id := 1, ops := [], seq := 0, pc := 0#64, kind := .sig 0 0#64 })] }
     s.launch? ln0.id = some ln0 ∧ launchOver s ln0 = true ∧ launchQuiet s ln0 = false) ∧
    (let l := { ln0 with atOnce := true }
     (wEnd (fun _ => l)).launch? l.id = some l ∧ l.atOnce = true) ∧
    (let s := { wEnd id with bands := [bd0], strs := [{ t0 with ended := true }], jobs := [job0 1], launches := [{ ln0 with next := 1 }] }
     s.launch? ln0.id = some { ln0 with next := 1 } ∧ launchReads s { ln0 with next := 1 } = true ∧ launchQuiet s { ln0 with next := 1 } = true) := by decide +kernel

/-- What a copy's phases ask for: nothing left of a row, and a row still to be read or written. -/
theorem wit_EngineJobs :
    (let j := jobW 0 0 false
     let s := wJob [j]
     fenceBefore s j = false ∧ s.claimed j.b 0 [] (j.rd ++ j.wr) = false ∧ engineOn s j = true ∧ j.todo = []) ∧
    (∀ ph ∈ [1, 3], ∀ td ∈ [[], [(0, 64), (1, 65)]], let j := { jobW ph 0 true with todo := td }
      (wJob [j]).job? 1 = some j ∧ (wJob [j]).band? j.b = some bd0 ∧ cardKind j.card = 1 ∧ (j.region 0).sp = 2 ∧ (j.region 2).sp = 2 ∧ j.err = none ∧
        jobOut (wJob [j]) 1 = false ∧ engineOn (wJob [j]) j = true ∧ j.todo = td) ∧
    (let j := jobW 4 1 true
     j.todo = [] ∧ engineOn (wJob [j]) j = true) ∧
    (let s := { wJob [colJob] with groups := [grp] }
     s.group? 0 0 = some grp ∧ grp.broken = false ∧ ∀ m ∈ grp.members, m.m = s.dev) := by decide +kernel

/-- A page of one stack and of two; the words of an atomic; a load that is no `put`. -/
theorem wit_HomePages :
    domainsOf pg5.rmask = [pg5.prim] ∧ (wReq [] opl [pg5]).gran.wf = true ∧
    (∀ z ∈ ([{ lane := 0, a := 64, x := 1#64, y := 0#64 }] : List LaneAtom), z.a % (if false then 8 else 4) = 0) ∧
    (let r := rq (.write [{ a := 64, v := 1#8, seq := 0 }]) none none
     let p := { pg5 with rmask := 0x81#8 }
     let s := wReq [r] opl [p]
     Arrives s 7 r p ∧ s.dir? r.ctx r.line = none ∧ s.lineErr r.ctx r.line = none ∧ locOf p 0 = .gran 65536 ∧ r.cached = false ∧ 1 < (domainsOf p.rmask).length) ∧
    (let s := wReq [rq rdK (some 1) none] opl []
     ((rq rdK (some 1) none).op.bind (fun o => s.op? o)).any Op.isPut = false) ∧
    (∀ k ∈ [ReqKind.write [{ a := 64, v := 1#8, seq := 0 }], .rmw 0 false [{ lane := 0, a := 64, x := 1#64, y := 0#64 }]],
      ∀ st ∈ [SiteSt.admitted, .quiescing], let r := { rq k none none with pdie := some 0, arr := 1 }
      let s := { wReq [r] opl [] with sites := [{ die := 0, st := st }] }
      s.req? 7 = some r ∧ r.arr ≠ 0 ∧ (s.site? 0).map (fun (x : Site) => x.st) = some st ∧ r.pdie = some 0 ∧ r.op = none ∧ (s.site? 0).isSome = true) :=
  ⟨by decide +kernel, by decide +kernel, by decide +kernel, ⟨arrives_of _ _ _ (by unfold arriving; decide +kernel), by decide +kernel⟩,
   by decide +kernel, by decide +kernel⟩

/-- A line of die 1's cache, forwarded to the request of die 0, at the last line of a context's space. -/
theorem wit_Forwards :
    (2 ^ 41 - 1 < 2 ^ 41) ∧
    (let x : Txn := { ctx := 5, line := 0, kind := .gets, r := 7, await := [1] }
     let r := rq rdK (some 1) none
     let s := { wReq [r] opl [pg5] with sites := [{ die := 1, st := .admitted, lines := [cl .M] }], dir := [ent .M 1 0#10], txns := [x] }
     s.lineAt 1 5 0 = some (cl .M) ∧ s.txn? 5 0 = some x ∧ x.await.contains 1 = true ∧ s.dataTo 1 5 0 = false ∧ x.ro = false ∧ s.req? x.r = some r ∧ r.who = .str t0.band 0 ∧
       r.home = s.dev ∧ r.ctx = 5 ∧ r.line = 0 ∧ s.lineAt r.die 5 0 = none) := by decide +kernel

/-- Executive core 0 of die 15 at STAGE 1 and STAGE 4. -/
theorem wit_BringUp : (∀ st ∈ [1, 4], let s := { wPoll 0 with stage := st }
    (s.core? 15 0).isSome = true ∧ s.stage = st) ∧ (∀ y ∈ (wSite { die := 0, st := .admitted, hbMiss := 2, hbOut := true, lines := [cl .M] }).txns, y.fwd = none) := by decide +kernel

/-- A downed link whose port die is there, and a heartbeat in a retraining window that has been skipped before. -/
theorem wit_Links : portUp { w0 with links := [{ m := 3, up := false }] } 3 = true ∧
    (let l : Link := { m := 3, retraining := true, skipped := true, hbMiss := 2 }
     ({ w0 with links := [l] } : State).link? 3 = some l ∧ l.dead = false ∧ l.retraining = true) := by decide +kernel

/-- The later phases of CTX_DESTROY, with nothing of the context left. -/
theorem wit_DestroyPhases :
    (let r := mrec 5 []
     let s := wCmd { w0 with ctxs := [{ id := 5, frozen := true }] } 0x202 r
     unfetched s 5 = none ∧ ctxQuiet (endPackets s 5) 5 = true) ∧
    (let s := wCmd { w0 with ctxs := [{ id := 5, frozen := true }] } 0x302 (mrec 5 [])
     accepted s (fun q => q.ctx == 5) = false) := by decide +kernel

/-- PAGE move of an unpinned page to the host and restore of its replicas; the last phase of each. -/
theorem wit_PageMoves :
    (let r := mrec 5 [(24, 1, 7), (25, 1, 0x80), (26, 1, 1), (32, 8, 65536)]
     let s := wCmd (wReq [] opl [pg5]) 0x05 r
     s.mgmtBusy = some (0x05, r) ∧ r.target ≠ 0 ∧ s.page? 5 r.page = some pg5 ∧ pg5.pin = false ∧ pg5.mov = false ∧ pg5.v = true ∧ r.arg 26 1 = 1 ∧ pg5.hostres = false) := by decide +kernel

/-- A queue's slot in the table of the core that polls it. -/
theorem wit_PollingTables : ∀ q ∈ [0, 4095], let s := { wPoll q with polls := [(0, 0, q)] }
    polls s 0 q = true ∧ s.stage ≠ 1 ∧ s.stage ≠ 4 ∧ s.core? 15 0 = some { die := 15, num := 0 } ∧ (polled s 0 q).queue? q = some (due q) ∧
      (peeked (peekVa (polled s 0 q) (due q).ctx (nextPkt (due q)) 64)).isSome = true := by decide +kernel

/-- The primary of a partition with one ready string. -/
theorem wit_Primary : let s := wWord 0x040C1880
    primary s 0 0 0 = some (tWord 0x040C1880, .slot false) ∧ (s.core? 0 0).isSome = true := by decide +kernel
end Sys2Proof.Tests
end

/-! # Every step keeps the memories canonical (O58; R6, R7)

The invariant is `State.Canonical`. There is one lemma per operation of the model that yields a state, in the order in which the model defines
them: `State.Canonical.f` for an operation, `NextCanonical.execX` for an event or a slot instruction. A proof follows the branches of its
definition and cites the lemmas of the operations called there; no proof opens another operation.

Few operations write a memory, and only their lemmas have content: `writeLoc`, `zeroFrame`, `copyPage` and the erasures (granary and host
memory), `performHost` (host memory), the writes of pantries and benches that deliveries, verbs, engine jobs, the matrix unit and replayed
FILL records make, and the states in which bands and dies start again. They rest on `memPut_wf`, `memWrite_wf`, and the lemmas here on
filtered maps. Every other operation leaves the four memories as they are, or calls these. -/

section
namespace Sys2Proof.Machine
open Sys2Proof

-- Elaborated in parallel, these proofs wait for one another: `split` looks for the equations of matchers among the results of all earlier
-- proofs, and each proof that waits holds a thread with its whole stack. One after another they need a few threads, and little more time.
set_option Elab.async false

/-! ### The invariant, and the state's own changes -/

/-- The memories of a module stand in canonical form. The parts of the state that hold them are arguments, so that a state which differs elsewhere
meets the predicate by the same proof. -/
structure CanonicalMemories (gran host : Memory) (sites : List Site) (bands : List Band) : Prop where
  gran : gran.wf = true
  host : host.wf = true
  pantry : ∀ x ∈ sites, x.pantry.wf = true
  bench : ∀ x ∈ bands, x.bench.wf = true

/-- Every memory of the state stands in canonical form: the invariant of O58. -/
def State.Canonical (s : State) : Prop := CanonicalMemories s.gran s.host s.sites s.bands

/-- Where the outcome goes on, the next state is canonical. -/
def NextCanonical : Host.Outcome State Fault Refusal → Prop
  | .next s => s.Canonical
  | _ => True

/-- `memoriesWf` as a proposition. -/
theorem State.memoriesWf_iff {s : State} : s.memoriesWf = true ↔ s.Canonical := by
  simp only [State.memoriesWf, Bool.and_eq_true, List.all_eq_true]
  constructor
  · rintro ⟨⟨⟨gran, host⟩, pantry⟩, bench⟩
    exact ⟨gran, host, pantry, bench⟩
  · rintro ⟨gran, host, pantry, bench⟩
    exact ⟨⟨⟨gran, host⟩, pantry⟩, bench⟩

theorem NextCanonical.next {s : State} (h : s.Canonical) : NextCanonical (.next s) := h

theorem NextCanonical.ite {c : Prop} [Decidable c] {a b : Host.Outcome State Fault Refusal}
    (ha : NextCanonical a) (hb : NextCanonical b) :
    NextCanonical (if c then a else b) := by
  split
  · exact ha
  · exact hb

theorem State.Canonical.of_next {o : Host.Outcome State Fault Refusal} {s : State} (e : o = .next s) (h : NextCanonical o) :
    s.Canonical := by
  subst e; exact h

theorem State.Canonical.ite {c : Prop} [Decidable c] {a b : State} (ha : a.Canonical) (hb : b.Canonical) :
    (if c then a else b).Canonical := by
  split
  · exact ha
  · exact hb

/-- The state of a result that a branch took apart. -/
theorem State.Canonical.of_eq {α : Type} {p : State × α} {s : State} {x : α} (e : p = (s, x)) (h : p.1.Canonical) :
    s.Canonical := by
  subst e; exact h

/-- Only a change of the bench owes something; a change of any other field of a band leaves `hf` to its default. -/
theorem State.Canonical.modBand {s : State} {b : Nat} {f : Band → Band} (h : s.Canonical)
    (hf : ∀ x : Band, x.bench.wf = true → (f x).bench.wf = true := by exact fun _ hx => hx) : (s.modBand b f).Canonical := by
  refine ⟨h.gran, h.host, h.pantry, fun x hx => ?_⟩
  obtain ⟨y, hy, rfl⟩ := List.mem_map.mp hx
  split
  · exact hf y (h.bench y hy)
  · exact h.bench y hy

/-- Only a change of the pantry owes something. -/
theorem State.Canonical.modSite {s : State} {d : Nat} {f : Site → Site} (h : s.Canonical)
    (hf : ∀ x : Site, x.pantry.wf = true → (f x).pantry.wf = true := by exact fun _ hx => hx) : (s.modSite d f).Canonical := by
  refine ⟨h.gran, h.host, fun x hx => ?_, h.bench⟩
  obtain ⟨y, hy, rfl⟩ := List.mem_map.mp hx
  split
  · exact hf y (h.pantry y hy)
  · exact h.pantry y hy

theorem State.Canonical.foldl {α : Type} {f : State → α → State} {l : List α} {s : State} (h : s.Canonical)
    (hf : ∀ s x, s.Canonical → (f s x).Canonical) : (l.foldl f s).Canonical := by
  induction l generalizing s with
  | nil => exact h
  | cons x xs ih => exact ih (hf s x h)

theorem State.Canonical.band? {s : State} {b : Nat} {bd : Band} (h : s.Canonical) (e : s.band? b = some bd) : bd.bench.wf = true :=
  h.bench bd (List.mem_of_find?_eq_some e)

theorem State.Canonical.site? {s : State} {d : Nat} {st : Site} (h : s.Canonical) (e : s.site? d = some st) : st.pantry.wf = true :=
  h.pantry st (List.mem_of_find?_eq_some e)

/-! ### Tables, rollback, kills and traps (Machine/Ops.lean) -/

theorem State.Canonical.modStr {s : State} {b n : Nat} {f : Str → Str} (h : s.Canonical) :
    (s.modStr b n f).Canonical := h

theorem State.Canonical.modHead {s : State} {f : Str → Str} (h : s.Canonical) :
    (s.modHead f).Canonical := by
  unfold State.modHead
  split <;> exact h

theorem State.Canonical.modBun {s : State} {f : Bun → Bun} (h : s.Canonical) :
    (s.modBun f).Canonical := h

theorem State.Canonical.modCore {s : State} {d c : Nat} {f : Core → Core} (h : s.Canonical) :
    (s.modCore d c f).Canonical := h

theorem State.Canonical.modCtx {s : State} {c : Nat} {f : Ctx → Ctx} (h : s.Canonical) :
    (s.modCtx c f).Canonical := h

theorem State.Canonical.modLaunch {s : State} {l : Nat} {f : Launch → Launch} (h : s.Canonical) :
    (s.modLaunch l f).Canonical := h

theorem State.Canonical.modQueue {s : State} {q : Nat} {f : Queue → Queue} (h : s.Canonical) :
    (s.modQueue q f).Canonical := by
  unfold State.modQueue
  split <;> exact h

theorem State.Canonical.modOp {s : State} {o : Nat} {f : Op → Op} (h : s.Canonical) :
    (s.modOp o f).Canonical := h

theorem State.Canonical.dropOp {s : State} {o : Nat} (h : s.Canonical) :
    (s.dropOp o).Canonical := h

theorem State.Canonical.modReq {s : State} {r : Nat} {f : Req → Req} (h : s.Canonical) :
    (s.modReq r f).Canonical := h

theorem State.Canonical.dropReq {s : State} {r : Nat} (h : s.Canonical) :
    (s.dropReq r).Canonical := h

theorem State.Canonical.modJob {s : State} {j : Nat} {f : Job → Job} (h : s.Canonical) :
    (s.modJob j f).Canonical := h

theorem State.Canonical.post {s : State} {es : List Instr} (h : s.Canonical) :
    (s.post es).Canonical := h

theorem State.Canonical.logErr {s : State} {what x y : Nat} (h : s.Canonical) :
    (s.logErr what x y).Canonical := h

theorem State.Canonical.rollback {s : State} {b n : Nat} (h : s.Canonical) :
    (rollback s b n).Canonical := by
  unfold Machine.rollback
  split
  · exact h
  · exact .modStr h

theorem State.Canonical.killBand {s : State} {b : Nat} (h : s.Canonical) :
    (killBand s b).Canonical := by
  unfold Machine.killBand
  split
  · exact h
  · split
    · exact h
    · exact h
    · exact .post (.modBand h)

theorem State.Canonical.takeTrap {s : State} {b n : Nat} {i : TrapInfo} (h : s.Canonical) :
    (takeTrap s b n i).Canonical := by
  unfold Machine.takeTrap
  split
  · split
    · extract_lets s1 s2
      have h1 : s1.Canonical := .modStr h
      have h2 : s2.Canonical := by
        unfold s2
        split
        · exact .modCore h1
        · exact h1
      exact .logErr h2
    · extract_lets s1
      have h1 : s1.Canonical := .rollback h
      split
      · exact .killBand h1
      · split
        · exact h1
        · exact .ite (.killBand h1) (.modStr h1)
  · exact h

theorem NextCanonical.onHead {s : State} {k : Str → Bun → State} (hk : ∀ t bu, (k t bu).Canonical) :
    NextCanonical (s.onHead k) := by
  unfold State.onHead
  split
  · exact trivial
  · exact .next (hk _ _)

theorem State.Canonical.endBun {s : State} (h : s.Canonical) :
    (s.endBun).Canonical := .modBun h

theorem State.Canonical.raise {s : State} {t : Str} {bu : Bun} {i : TrapInfo} (h : s.Canonical) :
    (s.raise t bu i).Canonical := .endBun (.takeTrap (.modHead h))

theorem State.Canonical.hold {s : State} {bu : Bun} {w : Wait} (h : s.Canonical) :
    (s.hold bu w).Canonical := .endBun (.modBun (.modHead h))

theorem State.Canonical.markJoins {s : State} {ms : List Word32} (h : s.Canonical) :
    (s.markJoins ms).Canonical := .ite h (.modHead h)

/-! ### Flags (Machine/Flags.lean) -/

theorem State.Canonical.setFlags {s : State} {fl : Flags} (h : s.Canonical) :
    (s.setFlags fl).Canonical := .modBun (.modHead h)

theorem State.Canonical.withFlags {s : State} {t : Str} {bu : Bun} {fls : List (Nat × Flags)} {k : State → State}
    (h : s.Canonical)
    (hk : ∀ s1, s1.Canonical → (k s1).Canonical) :
    (s.withFlags t bu fls k).Canonical := .ite (.raise h) (hk _ (.ite h (.setFlags h)))

/-! ### The operand forms of the lane instructions (Machine/Operands.lean) -/

theorem State.Canonical.writeLanes {s : State} {bu : Bun} {g : PReg} {d : Nat} {ls : List Nat} {f : Nat → Word32} {tag : Nat → Tag}
    (h : s.Canonical) :
    (s.writeLanes bu g d ls f tag).Canonical := .ite h (.modHead h)

theorem State.Canonical.writePreds {s : State} {bu : Bun} {g : PReg} {d : Nat} {ls : List Nat} {f : Nat → Bool} {tag : Nat → Tag}
    (h : s.Canonical) :
    (s.writePreds bu g d ls f tag).Canonical := .ite h (.modHead h)

theorem State.Canonical.writeScalar {s : State} {bu : Bun} {d : Nat} {x : Word64} {tag : Tag} (h : s.Canonical) :
    (s.writeScalar bu d x tag).Canonical := .modHead h

theorem NextCanonical.laneOp {s : State} {g : PReg} {d : VReg} {f : Str → Nat → FRes} {tag : Str → Nat → Tag} (h : s.Canonical) :
    NextCanonical (s.laneOp g d f tag) := .onHead fun _ _ => .withFlags h fun _ h1 => .writeLanes h1

theorem NextCanonical.laneInt {s : State} {g : PReg} {d : VReg} {f : Str → Nat → Word32} {tag : Str → Nat → Tag}
    (h : s.Canonical) :
    NextCanonical (s.laneInt g d f tag) := .onHead fun _ _ => .writeLanes h

theorem NextCanonical.lane2 {s : State} {g : PReg} {d a b : VReg} {f : Word32 → Word32 → Word32} (h : s.Canonical) :
    NextCanonical (s.lane2 g d a b f) := .laneInt h

theorem NextCanonical.lane1 {s : State} {g : PReg} {d a : VReg} {f : Word32 → Word32} (h : s.Canonical) :
    NextCanonical (s.lane1 g d a f) := .laneInt h

theorem NextCanonical.lane3 {s : State} {g : PReg} {d a b : VReg} {f : Word32 → Word32 → Word32 → Word32} (h : s.Canonical) :
    NextCanonical (s.lane3 g d a b f) := .laneInt h

theorem NextCanonical.fp2 {s : State} {g : PReg} {d a b : VReg} {f : RMode → Nat → Nat → FRes} (h : s.Canonical) :
    NextCanonical (s.fp2 g d a b f) := .laneOp h

theorem NextCanonical.fp1 {s : State} {g : PReg} {d a : VReg} {f : RMode → Nat → FRes} (h : s.Canonical) :
    NextCanonical (s.fp1 g d a f) := .laneOp h

theorem NextCanonical.fp3 {s : State} {g : PReg} {d a b : VReg} {f : RMode → Nat → Nat → Nat → FRes} (h : s.Canonical) :
    NextCanonical (s.fp3 g d a b f) := .laneOp h

theorem NextCanonical.laneCmp {s : State} {g p : PReg} {a b : VReg} {f : Word32 → Word32 → Bool} {fl : Word32 → Word32 → Flags}
    (h : s.Canonical) :
    NextCanonical (s.laneCmp g p a b f fl) := .onHead fun _ _ => .withFlags h fun _ h1 => .writePreds h1

theorem NextCanonical.lanePred {s : State} {g d : PReg} {srcs : List PReg} {f : List Bool → Bool} (h : s.Canonical) :
    NextCanonical (s.lanePred g d srcs f) := .onHead fun _ _ => .writePreds h

theorem NextCanonical.scalarOp {s : State} {d : SReg} {f : Str → Word64} {tag : Str → Tag} (h : s.Canonical) :
    NextCanonical (s.scalarOp d f tag) := .onHead fun _ _ => .writeScalar h

theorem State.Canonical.oweCalc {s : State} {bu : Bun} {la : Nat} {dst : Dest} {tags : List Tag} {vals : List Word64}
    (h : s.Canonical) :
    (s.oweCalc bu la dst tags vals).Canonical := .post (.modHead h)

theorem NextCanonical.laneLong {s : State} {g : PReg} {d : VReg} {la : BitVec 4} {f : Str → Word32 → Nat → FRes}
    {tag : Str → Word32 → Nat → Tag} (h : s.Canonical) :
    NextCanonical (s.laneLong g d la f tag) :=
  .onHead fun _ _ => .ite (.writeLanes h) (.withFlags h fun _ h1 => .ite (.oweCalc h1) (.modHead (.oweCalc h1)))

/-! ### Save areas, quarantine and fatal context errors (Machine/Contain.lean) -/

theorem State.Canonical.clearFaults {s : State} {a n : Nat} (h : s.Canonical) :
    (clearFaults s a n).Canonical := h

theorem State.Canonical.dropWaybill {s : State} {w : Waybill} (h : s.Canonical) :
    (dropWaybill s w).Canonical := h

theorem State.Canonical.makeRoomIn {fuel : Nat} {s : State} {c n : Nat} (h : s.Canonical) :
    (makeRoomIn fuel s c n).Canonical := by
  induction fuel generalizing s with
  | zero => exact h
  | succ fuel ih =>
    unfold Machine.makeRoomIn
    split
    · exact h
    · split
      · exact h
      · exact ih (.dropWaybill h)

theorem State.Canonical.makeRoom {s : State} {c n : Nat} (h : s.Canonical) :
    (makeRoom s c n).Canonical := .makeRoomIn h

theorem State.Canonical.saveBand {s : State} {b : Nat} (h : s.Canonical) :
    (saveBand s b).Canonical := by
  unfold Machine.saveBand
  split
  · exact h
  · extract_lets s1 s2 _ s3
    have h1 : s1.Canonical := h
    have h2 : s2.Canonical := by
      unfold s2
      split
      · exact .modCore h1
      · exact h1
    have h3 : s3.Canonical := .clearFaults h2
    exact .post (.modBand h3)

theorem State.Canonical.rollBand {s : State} {b : Nat} (h : s.Canonical) :
    (rollBand s b).Canonical := .foldl h fun _ _ h1 => .ite h1 (.rollback h1)

theorem State.Canonical.parkBand {s : State} {b : Nat} (h : s.Canonical) :
    (parkBand s b).Canonical := by
  unfold Machine.parkBand
  split
  · exact h
  · split
    · exact .modBand (.modCore h)
    · split
      · exact .post (.modBand h)
      · exact .ite (.saveBand (.makeRoom (.rollBand h))) (.modBand (.makeRoom (.rollBand h)))
    · exact h

theorem State.Canonical.endLaunches {s : State} {c : Nat} (h : s.Canonical) :
    (endLaunches s c).Canonical := .post h

theorem State.Canonical.quarantine {s : State} {c : Nat} (h : s.Canonical) :
    (quarantine s c).Canonical := by
  unfold Machine.quarantine
  split
  · exact h
  · exact .ite h (.endLaunches (.foldl (.modCtx h) fun _ _ h1 => .parkBand h1))

theorem State.Canonical.contextFatal {s : State} {c : Nat} (h : s.Canonical) :
    (contextFatal s c).Canonical := .endLaunches (.foldl h fun _ _ h1 => .killBand h1)

theorem State.Canonical.violation {s : State} {c : Nat} (h : s.Canonical) :
    (violation s c).Canonical := by
  unfold Machine.violation
  split
  · exact .ite (.quarantine h) h
  · exact h

/-! ### Waybill recording (Machine/Record.lean) -/

theorem State.Canonical.markTear {s : State} {b k : Nat} (h : s.Canonical) :
    (markTear s b k).Canonical := by
  unfold Machine.markTear
  split
  · exact h
  · exact .modLaunch (.modBand h)

theorem State.Canonical.tearAt {s : State} {t : Str} {bu : Bun} {tears : Bool} {k : Nat} {go : State → State} (h : s.Canonical)
    (hgo : ∀ s1, s1.Canonical → (go s1).Canonical) :
    (s.tearAt t bu tears k go).Canonical := .ite (hgo _ h) (.ite (.raise (.markTear h)) (hgo _ (.markTear h)))

theorem State.Canonical.storeRoom {fuel : Nat} {s : State} {die n : Nat} {s' : State} (h : s.Canonical)
    (e : storeRoom fuel s die n = some s') :
    s'.Canonical := by
  induction fuel generalizing s with
  | zero =>
    unfold Machine.storeRoom at e
    split at e
    · obtain rfl := Option.some.inj e
      exact h
    · cases e
  | succ fuel ih =>
    unfold Machine.storeRoom at e
    split at e
    · obtain rfl := Option.some.inj e
      exact h
    · dsimp only at e
      split at e
      · cases e
      · split at e
        · exact ih (by exact h) e
        · cases e

theorem State.Canonical.recordBand {s : State} {b : Nat} (h : s.Canonical) :
    (recordBand s b).Canonical := by
  unfold Machine.recordBand
  split
  · exact h
  · exact .ite h (.ite (.markTear h) (.ite (.markTear h) h))

theorem State.Canonical.addRecord {s : State} {b : Nat} {img : List Byte} {ps : List Patch} (h : s.Canonical) :
    (addRecord s b img ps).Canonical := by
  unfold Machine.addRecord
  split
  · exact h
  · split
    · exact h
    · exact .ite (.markTear (.modBand h)) (.ite (.markTear (.modBand h)) (.ite (.markTear (.modBand h)) (.modBand h)))

theorem State.Canonical.applyFill {s : State} {b : Nat} {f : Fill} (h : s.Canonical) :
    (applyFill s b f).Canonical := .ite h (.foldl (.modBand h) fun _ _ h1 => .addRecord h1)

theorem State.Canonical.recordCmd {s : State} {b : Nat} {openB makes : Bool} {img : List Byte} {ps : List Patch}
    {fillWords readWords writeWords : List Nat} (h : s.Canonical) :
    (recordCmd s b openB makes img ps fillWords readWords writeWords).Canonical := by
  unfold Machine.recordCmd
  split
  · exact h
  · split
    · exact h
    · exact .ite (.markTear h) (.ite (.markTear h) (.ite h (.modBand (.addRecord h))))

/-! ### Control flow (Machine/Flow.lean) -/

theorem State.Canonical.moveTo {s : State} {bu : Bun} {p : Path} (h : s.Canonical) :
    (s.moveTo bu p).Canonical := .modBun (.modHead h)

theorem State.Canonical.moveBy {s : State} {f : Str → Str} (h : s.Canonical) :
    (s.moveBy f).Canonical := .modBun (.modHead h)

theorem NextCanonical.execLoop {a : SReg} {n1 : BitVec 6} {k1 q : BitVec 3} {s : State} (h : s.Canonical) :
    NextCanonical (execLoop a n1 k1 q s) :=
  .onHead fun _ _ => .ite (.raise h) (.tearAt h fun _ h1 => .ite (.moveTo h1) (.moveBy h1))

theorem NextCanonical.execLquit {g : PReg} {s : State} (h : s.Canonical) :
    NextCanonical (execLquit g s) := .onHead fun _ _ => .ite (.raise h) (.tearAt h fun _ h1 => .ite h1 (.modHead h1))

theorem NextCanonical.execBra {g : PReg} {disp : BitVec 23} {s : State} (h : s.Canonical) :
    NextCanonical (execBra g disp s) :=
  .onHead fun _ _ => .tearAt h fun _ h1 => .ite h1 (.ite (.moveTo h1) (.ite (.raise h1) (.moveBy h1)))

theorem NextCanonical.goReg {s : State} {a : SReg} (h : s.Canonical) :
    NextCanonical (s.goReg a) := .onHead fun _ _ => .tearAt h fun _ h1 => .moveTo h1

theorem NextCanonical.execMark {s : State} (h : s.Canonical) :
    NextCanonical (execMark s) := .onHead fun _ _ => .ite (.raise h) (.modHead h)

theorem NextCanonical.execExit {g : PReg} {s : State} (h : s.Canonical) :
    NextCanonical (execExit g s) :=
  .onHead fun _ _ => .tearAt h fun _ h1 => .ite h1 (.ite (.moveBy h1) (.moveBy (.markJoins h1)))

theorem NextCanonical.execTret {s : State} (h : s.Canonical) :
    NextCanonical (execTret s) := .onHead fun _ _ => .ite (.raise h) (.ite (.endBun (.killBand h)) (.moveBy h))

/-! ### Pages, lines, spans and access checks (Machine/Translate.lean) -/

theorem State.Canonical.modPage {s : State} {ctx page : Nat} {f : Page → Page} (h : s.Canonical) :
    (s.modPage ctx page f).Canonical := h

/-- A store to a frame of the granary or to the host's memory: where most writes end. -/
theorem State.Canonical.writeLoc {s : State} {l : Loc} {bs : List Byte} (h : s.Canonical) :
    (s.writeLoc l bs).Canonical := by
  unfold State.writeLoc
  split
  · exact .clearFaults ⟨memWrite_wf _ _ _ h.gran, h.host, h.pantry, h.bench⟩
  · exact ⟨h.gran, memWrite_wf _ _ _ h.host, h.pantry, h.bench⟩

theorem State.Canonical.markZero {s : State} {ctx line : Nat} (h : s.Canonical) :
    (s.markZero ctx line).Canonical := h

theorem State.Canonical.writeHome {s : State} {ctx va : Nat} {bs : List Byte} (h : s.Canonical) :
    (s.writeHome ctx va bs).Canonical := by
  unfold State.writeHome
  split
  · exact .markZero (.foldl (.writeLoc h) fun _ _ h1 => .writeLoc h1)
  · exact h

theorem State.Canonical.toPeer {s : State} {m vc : Nat} {k : FabKind} (h : s.Canonical) :
    (s.toPeer m vc k).Canonical := h

theorem State.Canonical.addReq {s : State} {r : Req} {ev : Nat → List Instr} (h : s.Canonical) :
    (s.addReq r ev).Canonical := .post (.ite h (.toPeer h))

theorem State.Canonical.shadowRead {s : State} {die core ctx ha : Nat} (h : s.Canonical) :
    (shadowRead s die core ctx ha).Canonical := .addReq h

theorem State.Canonical.peekWalk {s : State} {die core va : Nat} (h : s.Canonical) :
    (peekWalk s die core va).1.Canonical := by
  unfold Machine.peekWalk
  split
  · exact h
  · split
    · split
      · exact h
      · split
        · exact .ite (.quarantine h) h
        · exact .shadowRead h
    · exact h

theorem State.Canonical.walkSpan {s : State} {die core ctx span : Nat} (h : s.Canonical) :
    (walkSpan s die core ctx span).1.Canonical := by
  unfold Machine.walkSpan
  split
  · exact h
  · split
    · exact h
    · extract_lets _
      split
      · exact h
      · split
        · rename_i heq
          exact .of_eq heq (.peekWalk h)
        · rename_i s1 _ heq
          have h1 : s1.Canonical := .of_eq heq (.peekWalk h)
          split
          · exact h1
          · split
            · rename_i heq
              exact .of_eq heq (.peekWalk h1)
            · rename_i heq
              exact .of_eq heq (.peekWalk h1)

theorem State.Canonical.lookupSpan {s : State} {die core ctx span : Nat} (h : s.Canonical) :
    (lookupSpan s die core ctx span).1.Canonical := by
  unfold Machine.lookupSpan
  extract_lets hit
  clear_value hit
  split
  · exact .modCore h
  · split
    · rename_i s1 _ heq
      have h1 : s1.Canonical := .of_eq heq (.walkSpan h)
      exact .modCore h1
    · rename_i heq
      exact .of_eq heq (.walkSpan h)

theorem State.Canonical.laneSpan {s : State} {t : Str} {lane span : Nat} (h : s.Canonical) :
    (laneSpan s t lane span).1.Canonical := by
  unfold Machine.laneSpan
  extract_lets _ _ r
  have h1 : r.1.Canonical := .lookupSpan h
  split
  · exact h
  · split
    · exact h1
    · exact .modStr h1

theorem State.Canonical.invalSpans {s : State} {ctx first count : Nat} (h : s.Canonical) :
    (invalSpans s ctx first count).Canonical := .modCtx h

theorem State.Canonical.checkGlobal {s : State} {t : Str} {lane : Nat} {a : Word64} {n : Nat} {need : Word64 → Option Bad}
    (h : s.Canonical) :
    (checkGlobal s t lane a n need).1.Canonical := by
  unfold Machine.checkGlobal
  split
  · exact h
  · split
    · exact h
    · extract_lets r
      have h1 : r.1.Canonical := .laneSpan h
      split
      · exact h1
      · split <;> exact h1

theorem State.Canonical.checkLane {s : State} {t lat : Str} {sp : Space} {n : Nat} {need : Word64 → Option Bad} {lane : Nat} {a : Word64}
    (h : s.Canonical) :
    (checkLane s t lat sp n need lane a).1.Canonical := by
  unfold Machine.checkLane
  split
  · split
    · rename_i heq
      exact .of_eq heq (.checkGlobal h)
    · rename_i heq
      exact .of_eq heq (.checkGlobal h)
  · split
    · exact h
    · split <;> exact h
  · split
    · exact h
    · split <;> exact h

theorem State.Canonical.checkLanes {s : State} {t lat : Str} {sp : Space} {n : Nat} {need : Word64 → Option Bad}
    {ls : List (Nat × Word64)} {c : Checked} (h : s.Canonical) :
    (checkLanes s t lat sp n need ls c).1.Canonical := by
  induction ls generalizing s c with
  | nil => exact h
  | cons x ls ih =>
    unfold Machine.checkLanes
    split
    · rename_i s1 _ heq
      exact .of_eq heq (.checkLane h)
    · rename_i s1 _ heq
      exact ih (.of_eq heq (.checkLane h))
    · rename_i s1 _ _ _ heq
      exact ih (.of_eq heq (.checkLane h))

theorem State.Canonical.checkSpans {s : State} {t : Str} {need : Word64 → Option Bad} {sps : List Nat} {es : List (Nat × Word64)}
    (h : s.Canonical) :
    (checkSpans s t need sps es).1.Canonical := by
  induction sps generalizing s es with
  | nil => exact h
  | cons sp sps ih =>
    unfold Machine.checkSpans
    extract_lets r
    have h1 : r.1.Canonical := .lookupSpan h
    split
    · exact h1
    · split
      · exact ih h1
      · exact h1

theorem State.Canonical.raiseBad {s : State} {t : Str} {bu : Bun} {lane : Nat} {b : Bad} (h : s.Canonical) :
    (s.raiseBad t bu lane b).Canonical := .ite (.violation (.raise h)) (.raise h)

/-! ### System registers, translation and cache operations (Machine/System.lean) -/

theorem State.Canonical.privilege {s : State} {t : Str} {bu : Bun} {detail : Nat} (h : s.Canonical) :
    (s.privilege t bu detail).Canonical := .violation (.raise h)

theorem NextCanonical.execRdx {d : BitVec 7} {idx : BitVec 10} {la : BitVec 4} {s : State} (h : s.Canonical) :
    NextCanonical (execRdx d idx la s) :=
  .onHead fun _ _ => .ite (.privilege h) (.ite (.writeLanes h) (.ite (.oweCalc h) (.writeScalar h)))

theorem NextCanonical.execWrx {d : SReg} {idx : BitVec 10} {s : State} (h : s.Canonical) :
    NextCanonical (execWrx d idx s) := by
  refine .onHead fun _ _ => .ite ?_ ?_
  · exact .ite (.privilege h) (.ite h (.invalSpans (.modCtx (.modHead h))))
  · exact .ite (.modBand h) (.modHead h)

theorem NextCanonical.execSpinv {a b : SReg} {s : State} (h : s.Canonical) :
    NextCanonical (execSpinv a b s) := .onHead fun _ _ => .ite (.privilege h) (.invalSpans h)

theorem NextCanonical.cacheOp {s : State} {a b : SReg} {keep : Bool} (h : s.Canonical) :
    NextCanonical (s.cacheOp a b keep) := by
  unfold State.cacheOp
  refine .onHead (fun _ _ => ?_)
  extract_lets +onlyGivenNames _ _
  split
  · exact .raise h
  · split
    · exact .raise h
    · split
      · rename_i s1 _ heq
        have h1 : s1.Canonical := .of_eq heq (.checkSpans h)
        exact .raiseBad h1
      · rename_i s1 _ heq
        have h1 : s1.Canonical := .of_eq heq (.checkSpans h)
        extract_lets +onlyGivenNames _
        split
        · exact h1
        · extract_lets +onlyGivenNames _ _ s2 s3
          have h2 : s2.Canonical := .modSite h1
          have h3 : s3.Canonical := .post h2
          exact .modHead h3

theorem NextCanonical.execHsamp {a b : SReg} {s : State} (h : s.Canonical) :
    NextCanonical (execHsamp a b s) := .onHead fun _ _ => .ite (.privilege h) (.modCtx h)

/-! ### Loads, stores and atomics as they issue (Machine/Memory.lean) -/

theorem State.Canonical.addOp {s : State} {paths : List Nat} {op : Op} (h : s.Canonical) :
    (s.addOp paths op).1.Canonical := .modHead h

theorem State.Canonical.withhold {s : State} {ops : List Nat} {pc : Word64} {ents : List (Nat × Word64)} {k : EntryKind}
    (h : s.Canonical) :
    (s.withhold ops pc ents k).Canonical := .modHead h

theorem State.Canonical.releaseEntries {s : State} {b n : Nat} (h : s.Canonical) :
    (releaseEntries s b n).Canonical := by
  unfold Machine.releaseEntries
  split
  · exact h
  · exact .modStr (.foldl h fun _ _ h1 => .applyFill h1)

theorem State.Canonical.raiseTorn {s r : State} {b n islot : Nat} {bad : Word64} (h : s.Canonical) :
    (raiseTorn s r b n islot bad).Canonical := .takeTrap (.markTear h)

theorem State.Canonical.release {s : State} {b n : Nat} (h : s.Canonical) :
    (release s b n).Canonical := .ite (.raiseTorn h) (.modStr (.releaseEntries h))

theorem State.Canonical.holdRelease {s : State} {bu : Bun} {w : Wait} (h : s.Canonical) :
    (s.holdRelease bu w).Canonical := .release (.hold h)

theorem State.Canonical.claim {s : State} {b n q scope : Nat} {ofOp : Op → Bool} {ofEntry : Entry → Bool} (h : s.Canonical) :
    (s.claim b n q scope ofOp ofEntry).Canonical := h

theorem State.Canonical.drained {s : State} {bu : Bun} {scope : Nat} {go : State → State} (h : s.Canonical)
    (hgo : ∀ s1, s1.Canonical → (go s1).Canonical) :
    (s.drained bu scope go).Canonical := .ite (hgo _ (.ite h (.claim h))) (.holdRelease h)

theorem State.Canonical.access {s : State} {t : Str} {bu : Bun} {sp : Space} {n : Nat} {need : Word64 → Option Bad} {ld st : Bool}
    {addrs : List (Nat × Word64)} {go : State → Checked → State}
    (h : s.Canonical) (hgo : ∀ s1 c, s1.Canonical → (go s1 c).Canonical) :
    (s.access t bu sp n need ld st addrs go).Canonical := by
  unfold State.access
  split
  · rename_i s1 _ _ heq
    have h1 : s1.Canonical := .of_eq heq (.checkLanes h)
    exact .raiseBad h1
  · rename_i s1 _ heq
    have h1 : s1.Canonical := .of_eq heq (.checkLanes h)
    split
    · exact .raise h1
    · split
      · exact .hold h1
      · exact hgo _ _ h1

theorem NextCanonical.loadOp {s : State} {sp : Space} {g : PReg} {d : VReg} {base : BitVec 6} {vb : Bool} {w : BitVec 3} {ord la : BitVec 4}
    {off : BitVec 5} (h : s.Canonical) :
    NextCanonical (s.loadOp sp g d base vb w ord la off) := by
  refine .onHead fun _ _ => .ite ?_ ?_
  · exact .foldl h fun _ _ h1 => .writeLanes h1
  · exact .access h fun _ _ h1 => .ite (.holdRelease h1) (.modHead (.addOp h1))

theorem State.Canonical.storeLine {s : State} {o : Nat} {pc : Word64} {ents : List (Nat × Word64)} {sp : Space} {colour ord : Nat}
    {remote : Bool} {line : Nat} {bs : List WByte} (h : s.Canonical) :
    (s.storeLine o pc ents sp colour ord remote line bs).Canonical := by
  unfold State.storeLine
  extract_lets _ target
  clear_value target
  split
  · exact .modHead h
  · exact .withhold h

theorem State.Canonical.storeLanes {s : State} {o : Nat} {pc : Word64} {ents : List (Nat × Word64)} {sp : Space} {colour ord : Nat}
    {remote : Bool} {bs : List WByte} (h : s.Canonical) :
    (s.storeLanes o pc ents sp colour ord remote bs).Canonical := .foldl h fun _ _ h1 => .storeLine h1

theorem NextCanonical.storeOp {s : State} {sp : Space} {g : PReg} {d : VReg} {base : BitVec 6} {vb : Bool} {w : BitVec 3} {ord : BitVec 4}
    {colour : BitVec 3} {off : BitVec 5} (h : s.Canonical) :
    NextCanonical (s.storeOp sp g d base vb w ord colour off) := by
  refine .onHead fun _ _ => .ite ?_ ?_
  · exact .tearAt h fun _ h1 => .ite (.modHead h1) h1
  · refine .access h fun _ _ h1 => .tearAt h1 fun _ h2 => ?_
    extract_lets _ r _ _ s1 s2 _
    have h3 : s1.Canonical := .storeLanes (.addOp h2)
    have h4 : s2.Canonical := .storeLanes h3
    exact .ite (.modHead (.modOp h4)) (.modOp h4)

theorem NextCanonical.atomOp {s : State} {sp : Space} {g : PReg} {d : VReg} {base : BitVec 6} {vb : Bool} {op ord : BitVec 4} {sz rt : Bool}
    {off : BitVec 5} (h : s.Canonical) :
    NextCanonical (s.atomOp sp g d base vb op ord sz rt off) := by
  refine .onHead fun _ _ => .ite ?_ ?_
  · exact .tearAt h fun _ h1 => .ite (.foldl h1 fun _ _ h2 => .writeLanes h2) h1
  · refine .access h fun _ _ h1 => .tearAt h1 fun _ h2 => .ite ?_ ?_
    · exact .drained h2 fun _ h3 => .ite (.modHead (.modHead (.addOp h3))) (.modHead (.addOp h3))
    · exact .ite (.modHead (.modOp (.foldl (.addOp h2) fun _ _ h3 => .withhold h3)))
        (.modOp (.foldl (.addOp h2) fun _ _ h3 => .withhold h3))

/-! ### Fences, barriers, verbs and jump tables (Machine/Sync.lean) -/

theorem NextCanonical.execFenceFull {scope : BitVec 6} {s : State} (h : s.Canonical) :
    NextCanonical (execFenceFull scope s) := by
  unfold Machine.execFenceFull
  exact .onHead fun _ _ => .drained h fun _ h1 => h1

theorem State.Canonical.modBar {s : State} {b k : Nat} {f : Bar → Bar} (h : s.Canonical) :
    (s.modBar b k f).Canonical := .modBand h

theorem State.Canonical.barComplete {s : State} {b k : Nat} (h : s.Canonical) :
    (barComplete s b k).Canonical := .modBar h

theorem State.Canonical.barCheck {s : State} {b k : Nat} (h : s.Canonical) :
    (barCheck s b k).Canonical := .ite (.barComplete h) h

theorem State.Canonical.barArrive {s : State} {b n k : Nat} (h : s.Canonical) :
    (barArrive s b n k).Canonical := .barCheck (.modStr (.modBar h))

theorem State.Canonical.arriveAt {s : State} {bu : Bun} {k : Nat} {go : State → State} (h : s.Canonical)
    (hgo : ∀ s1, s1.Canonical → (go s1).Canonical) :
    (s.arriveAt bu k go).Canonical := .drained h fun _ h1 => .ite (.holdRelease h1) (hgo _ (.barArrive h1))

theorem NextCanonical.execBarArr {k : BitVec 4} {s : State} (h : s.Canonical) :
    NextCanonical (execBarArr k s) := by
  unfold Machine.execBarArr
  exact .onHead fun _ _ => .arriveAt h fun _ h1 => h1

theorem NextCanonical.execBarWait {k : BitVec 4} {s : State} (h : s.Canonical) :
    NextCanonical (execBarWait k s) := .onHead fun _ _ => .ite (.modHead h) (.modStr (.holdRelease h))

theorem NextCanonical.execBarSync {k : BitVec 4} {s : State} (h : s.Canonical) :
    NextCanonical (execBarSync k s) := .onHead fun _ _ => .arriveAt h fun _ h1 => .ite (.modBun h1) (.modHead h1)

theorem State.Canonical.wakeSaved {s : State} (h : s.Canonical) :
    (wakeSaved s).Canonical := by
  unfold Machine.wakeSaved
  refine .post ⟨h.gran, h.host, h.pantry, List.forall_mem_map.2 fun x hx => ?_⟩
  split <;> exact h.bench x hx

theorem State.Canonical.stepClocks {s : State} {die : Nat} {ranked : List Nat} (h : s.Canonical) :
    (stepClocks s die ranked).Canonical := .foldl h fun _ _ h1 => .ite h1 (.ite (.modCore h1) (.ite (.modCore h1) h1))

theorem State.Canonical.gbarComplete {s : State} {l : Launch} (h : s.Canonical) :
    (gbarComplete s l).Canonical := by
  unfold Machine.gbarComplete
  extract_lets _ s1 _ s2 s3
  have h1 : s1.Canonical := .modLaunch h
  have h2 : s2.Canonical := .foldl h1 fun _ _ h => .ite (.addRecord h) h
  have h3 : s3.Canonical := .ite h2 (.foldl h2 fun _ _ h => .stepClocks h)
  exact .wakeSaved h3

theorem State.Canonical.gbarCheck {s : State} {l : Nat} (h : s.Canonical) :
    (gbarCheck s l).Canonical := by
  unfold Machine.gbarCheck
  split
  · exact h
  · exact .ite (.gbarComplete h) h

theorem State.Canonical.gbarArrive {s : State} {bd : Band} (h : s.Canonical) :
    (gbarArrive s bd).Canonical := .gbarCheck (.modLaunch (.modBand h))

theorem State.Canonical.gbarBand {s : State} {b : Nat} (h : s.Canonical) :
    (gbarBand s b).Canonical := by
  unfold Machine.gbarBand
  split
  · exact h
  · exact .ite (.gbarArrive h) h

theorem NextCanonical.execGbar {s : State} (h : s.Canonical) :
    NextCanonical (execGbar s) :=
  .onHead fun _ _ => .drained h fun _ h1 => .ite (.gbarBand (.modBand h1)) (.modBun (.gbarBand (.modBand h1)))

theorem NextCanonical.waitc {s : State} {p : BitVec 3} {thr : Str → Nat} {tag : Str → Tag} (h : s.Canonical) :
    NextCanonical (s.waitc p thr tag) :=
  .onHead fun _ _ => .tearAt h fun _ h1 => .ite (.ite (.modBun h1) h1) (.holdRelease h1)

theorem State.Canonical.checkLocal {s : State} {t lat : Str} {a : Word64} {n : Nat} {need : Word64 → Option Bad}
    (h : s.Canonical) :
    (checkLocal s t lat a n need).1.Canonical := by
  unfold Machine.checkLocal
  split
  · split <;> exact h
  · split
    · exact h
    · exact .checkSpans h

theorem State.Canonical.verb {s : State} {t : Str} {bu : Bun} {pan loc cnt : Word64} {isPut : Bool}
    {go : State → Nat → List (Nat × Word64) → State}
    (h : s.Canonical) (hgo : ∀ s1 n ents, s1.Canonical → (go s1 n ents).Canonical) :
    (s.verb t bu pan loc cnt isPut go).Canonical := by
  unfold State.verb
  extract_lets _
  split
  · exact .raise h
  · split
    · exact .raiseBad h
    · split
      · rename_i s1 _ heq
        have h1 : s1.Canonical := .of_eq heq (.checkLocal h)
        exact .raiseBad h1
      · rename_i s1 _ heq
        have h1 : s1.Canonical := .of_eq heq (.checkLocal h)
        extract_lets _
        split
        · exact .raise h1
        · refine .tearAt h1 (fun _ h2 => ?_)
          split
          · exact .hold h2
          · exact hgo _ _ _ h2

theorem NextCanonical.execPut {d a b : SReg} {s : State} (h : s.Canonical) :
    NextCanonical (execPut d a b s) := .onHead fun _ _ => .verb h fun _ _ _ h1 => .modOp (.withhold (.addOp h1))

theorem NextCanonical.execGet {d a b : SReg} {s : State} (h : s.Canonical) :
    NextCanonical (execGet d a b s) := .onHead fun _ _ => .verb h fun _ _ _ h1 => .ite (.holdRelease h1) (.addOp h1)

theorem NextCanonical.execSig {d a : SReg} {s : State} (h : s.Canonical) :
    NextCanonical (execSig d a s) := by
  unfold Machine.execSig
  refine .onHead (fun _ _ => ?_)
  extract_lets _
  split
  · exact .raise h
  · split
    · exact .raiseBad h
    · split
      · exact .raise h
      · refine .tearAt h (fun _ h1 => ?_)
        split
        · exact .hold h1
        · exact .withhold (.addOp h1)

theorem State.Canonical.jtabCheck {s : State} {t : Str} {base : Word64} {is : List Nat} {es : List (Nat × Word64)}
    (h : s.Canonical) :
    (jtabCheck s t base is es).1.Canonical := by
  induction is generalizing s es with
  | nil => exact h
  | cons i is ih =>
    unfold Machine.jtabCheck
    extract_lets _
    split
    · exact h
    · split
      · exact h
      · split
        · rename_i s1 _ heq
          exact .of_eq heq (.checkSpans h)
        · rename_i s1 _ heq
          exact ih (.of_eq heq (.checkSpans h))

theorem NextCanonical.execJtab {a : VReg} {b c : SReg} {s : State} (h : s.Canonical) :
    NextCanonical (execJtab a b c s) := by
  unfold Machine.execJtab
  refine .onHead (fun _ _ => ?_)
  extract_lets _ _ _
  split
  · exact .raise h
  · refine .tearAt h (fun _ h1 => ?_)
    split
    · exact .ite (.raise h1) (.moveBy h1)
    · split
      · rename_i s2 _ heq
        have h2 : s2.Canonical := .of_eq heq (.jtabCheck h1)
        exact .raiseBad h2
      · rename_i s2 _ heq
        have h2 : s2.Canonical := .of_eq heq (.jtabCheck h1)
        extract_lets _
        split
        · exact .hold h2
        · exact .ite (.holdRelease h2) (.addOp (.hold h2))

theorem NextCanonical.execWbseal {d a b : SReg} {s : State} (h : s.Canonical) :
    NextCanonical (execWbseal d a b s) := by
  unfold Machine.execWbseal
  refine .onHead (fun _ _ => ?_)
  extract_lets +onlyGivenNames _ _ _
  split
  · rename_i s1 _ heq
    have h1 : s1.Canonical := .of_eq heq (.checkGlobal h)
    exact .raiseBad h1
  · rename_i s1 _ heq
    have h1 : s1.Canonical := .of_eq heq (.checkGlobal h)
    split
    · exact .raise h1
    · refine .tearAt h1 (fun _ h2 => ?_)
      split
      · exact .hold h2
      · extract_lets +onlyGivenNames _
        split
        · exact .holdRelease h2
        · extract_lets +onlyGivenNames _ r s3
          have h3 : s3.Canonical := .modHead (.addOp h2)
          split
          · exact .ite (.modBun h3) h3
          · exact h3

theorem NextCanonical.execWbdrop {a : SReg} {s : State} (h : s.Canonical) :
    NextCanonical (execWbdrop a s) := by
  unfold Machine.execWbdrop
  refine .onHead (fun _ _ => ?_)
  split
  · exact .hold h
  · exact .withhold (.addOp h)

/-! ### Performing accesses (Machine/Deliver.lean) -/

theorem State.Canonical.sealArrived {s : State} {o : Op} (h : s.Canonical) :
    (sealArrived s o).Canonical := by
  unfold Machine.sealArrived
  split
  · split
    · exact h
    · split
      · exact h
      · extract_lets s1
        have h1 : s1.Canonical := .modBand h
        split
        · exact .ite (.markTear h1) h1
        · exact h1
  · exact h

theorem State.Canonical.forgetOp {s : State} {o : Nat} (h : s.Canonical) :
    (forgetOp s o).Canonical := by
  unfold Machine.forgetOp
  split
  · exact h
  · split
    · exact .dropOp h
    · exact .ite h (.dropOp h)

theorem NextCanonical.execLongLatencyResult {b n o : Nat} {s : State} (h : s.Canonical) :
    NextCanonical (execLongLatencyResult b n o s) := by
  unfold Machine.execLongLatencyResult
  refine .next ?_
  split
  · exact h
  · exact .ite h (.forgetOp (.ite h (.sealArrived (.modOp (.modStr h)))))

theorem NextCanonical.execOperationReturn {o : Nat} {s : State} (h : s.Canonical) :
    NextCanonical (execOperationReturn o s) := by
  unfold Machine.execOperationReturn
  refine .next ?_
  split
  · exact h
  · exact .ite h (.wakeSaved (.forgetOp (.modStr h)))

theorem State.Canonical.sendRelease {s : State} {t : Str} {i : Item} (h : s.Canonical) :
    (s.sendRelease t i).Canonical := .ite h (.claim h)

theorem State.Canonical.modLine {s : State} {die ctx line : Nat} {f : CLine → CLine} (h : s.Canonical) :
    (s.modLine die ctx line f).Canonical := .modSite h

theorem State.Canonical.dropLine {s : State} {die ctx line : Nat} (h : s.Canonical) :
    (s.dropLine die ctx line).Canonical := .modSite h

theorem State.Canonical.makeLine {s : State} {die core : Nat} (h : s.Canonical) :
    (s.makeLine die core).Canonical := by
  unfold State.makeLine
  split
  · exact h
  · extract_lets +onlyGivenNames _
    split
    · exact h
    · extract_lets +onlyGivenNames s1
      have h1 : s1.Canonical := h
      split
      · exact h1
      · exact .ite (.modLine h1) (.ite (.ite (.modLine h1) (.post (.modLine h1))) (.dropLine h1))

theorem State.Canonical.shareLine {s : State} {die core ctx line : Nat} (h : s.Canonical) :
    (s.shareLine die core ctx line).Canonical := by
  unfold State.shareLine
  split
  · exact h
  · exact .ite h (.modLine (.makeLine h))

theorem State.Canonical.cacheLine {s : State} {die core ctx line : Nat} {st : CState} {d : LineData} (h : s.Canonical) :
    (s.cacheLine die core ctx line st d).Canonical := .ite (.modLine (.shareLine h)) (.modSite (.makeLine h))

theorem State.Canonical.requestLine {s : State} {o : Op} {line : Nat} {ps : List (Nat × Nat)} (h : s.Canonical) :
    (requestLine s o line ps).Canonical := .addReq (.modOp h)

theorem State.Canonical.requestPantry {s : State} {o : Op} {line : Nat} {ps : List (Nat × Nat)} (h : s.Canonical) :
    (requestPantry s o line ps).Canonical := .addReq (.modOp h)

theorem State.Canonical.requestPieces {s : State} {o : Op} {ps : List (Nat × Nat)} (h : s.Canonical) :
    (requestPieces s o ps).Canonical := by
  unfold Machine.requestPieces
  split
  · exact h
  · exact .foldl h fun _ _ h1 => .requestPantry h1
  · exact .foldl h fun _ _ h1 => .requestLine h1

theorem State.Canonical.sharePieces {s : State} {o : Op} {ps : List (Nat × Nat)} (h : s.Canonical) :
    (sharePieces s o ps).Canonical := .ite (.foldl h fun _ _ h1 => .shareLine h1) h

theorem State.Canonical.entryDone {s : State} {e : Entry} (h : s.Canonical) :
    (entryDone s e).Canonical := .post h

theorem State.Canonical.opDone {s : State} {o : Op} (h : s.Canonical) :
    (opDone s o).Canonical := by
  unfold Machine.opDone
  extract_lets +onlyGivenNames s1
  have h1 : s1.Canonical := .modOp h
  split
  · exact .post h1
  · exact .post h1
  · exact .post h1
  · exact .post (.ite h1 (.modStr h1))
  · extract_lets +onlyGivenNames s2
    have h2 : s2.Canonical := by
      unfold s2
      split <;> exact h1
    exact .post h2
  · exact .post h1

theorem State.Canonical.mergeLine {s : State} {die core : Nat} {k : Nat × Nat} {bs : List WByte} (h : s.Canonical) :
    (mergeLine s die core k bs).Canonical := .modLine (.shareLine h)

theorem State.Canonical.dropShared {s : State} {die core : Nat} {k : Nat × Nat} (h : s.Canonical) :
    (dropShared s die core k).Canonical := .modSite h

theorem State.Canonical.writeLine {s : State} {r : Req} {prof : Profile} {ents : List (Nat × Word64)} {line : Nat} {bs : List WByte}
    (h : s.Canonical) :
    (writeLine s r prof ents line bs).Canonical := .ite (.addReq h) (.addReq (.dropShared h))

/-- Bytes put into a memory one by one keep its canonical form. -/
theorem foldl_memPut_wf {α : Type} (k : α → Nat) (v : α → Byte) (bs : List α) {m : Memory} (h : m.wf = true) :
    (bs.foldl (fun m b => memPut m (k b) (v b)) m).wf = true :=
  smPut_foldl_wf 0#8 k v bs m h

theorem State.Canonical.writePantry {s : State} {die : Nat} {bs : List WByte} (h : s.Canonical) :
    (writePantry s die bs).Canonical := .modSite h fun _ hx => foldl_memPut_wf _ _ _ hx

theorem State.Canonical.writePieces {s : State} {o : Op} {wr : Space} {ps : List (Nat × Nat)} (h : s.Canonical) :
    (writePieces s o wr ps).Canonical := by
  unfold Machine.writePieces
  extract_lets _ _
  split
  · exact .modBand h fun _ hx => foldl_memPut_wf _ _ _ hx
  · exact .writePantry h
  · exact .foldl h fun _ _ h1 => .mergeLine h1

theorem State.Canonical.sendPieces {s : State} {o : Op} {wr : Space} {ps : List (Nat × Nat)} (h : s.Canonical) :
    (sendPieces s o wr ps).Canonical := by
  unfold Machine.sendPieces
  extract_lets _ _ _
  split
  · exact h
  · exact .foldl h fun _ _ h1 => .addReq (.modOp h1)
  · exact .foldl h fun _ _ h1 => .writeLine (.modOp h1)

theorem State.Canonical.copyWrites {s : State} {o : Op} {wr : Space} {dst len : Nat} (h : s.Canonical) :
    (copyWrites s o wr dst len).Canonical := .sendPieces (.modOp h)

theorem State.Canonical.opPieces {s : State} {i : Nat} (h : s.Canonical) :
    (opPieces s i).Canonical := by
  unfold Machine.opPieces
  split
  · exact h
  · split
    · exact h
    · split
      · exact .ite (.opDone (.modOp h)) (.copyWrites (.modOp h))
      · exact .opDone h

theorem State.Canonical.setEntry {s : State} {i : Nat} {f : Entry → Entry} (h : s.Canonical) :
    (s.setEntry i f).Canonical := h

/-- Read-modify-writes keep the canonical form. -/
theorem rmwMem_wf {op : Nat} {w8 : Bool} {ls : List LaneAtom} {m : Memory} (h : m.wf = true) : (rmwMem op w8 ls m).1.wf = true := by
  induction ls generalizing m with
  | nil => exact h
  | cons x xs ih =>
    unfold rmwMem
    extract_lets _ _ _ m1
    have h1 : m1.wf = true := by
      unfold m1
      split
      · exact h
      · exact memWrite_wf _ _ _ h
    exact ih h1

theorem State.Canonical.rmwHere {s : State} {b die : Nat} {sp : Space} {op : Nat} {w8 : Bool} {ls : List LaneAtom}
    (h : s.Canonical) :
    (rmwHere s b die sp op w8 ls).1.Canonical := by
  unfold Machine.rmwHere
  extract_lets s1 _
  have h1 : s1.Canonical := h
  split
  · split
    · rename_i bd hbd
      exact .modBand h1 fun _ _ => rmwMem_wf (h1.band? hbd)
    · exact h1
  · split
    · rename_i st hst
      exact .modSite h1 fun _ _ => rmwMem_wf (h1.site? hst)
    · exact h1

theorem State.Canonical.atomMore {s : State} {o : Op} {sp : Space} {op : Nat} {w8 : Bool} {lanes : List LaneAtom}
    (h : s.Canonical) :
    (atomMore s o sp op w8 lanes).Canonical := .opPieces (.modOp (.rmwHere h))

theorem State.Canonical.copyMore {s : State} {o : Op} (h : s.Canonical) :
    (copyMore s o).Canonical := by
  unfold Machine.copyMore
  extract_lets _ _ s1 _ _ _ s2
  have h1 : s1.Canonical := h
  have h2 : s2.Canonical := .modOp h1
  split
  · exact .opPieces (.sendPieces (.writePieces h2))
  · exact .opPieces (.requestPieces (.modOp (.sharePieces h2)))

theorem State.Canonical.opMore {s : State} {o : Op} (h : s.Canonical) :
    (opMore s o).Canonical := by
  unfold Machine.opMore
  split
  · exact .atomMore h
  · exact .ite (.opPieces (.modOp h)) (.copyMore h)
  · exact .copyMore h

theorem State.Canonical.opPiece {s : State} {i : Nat} (h : s.Canonical) :
    (opPiece s i).Canonical := .opPieces (.modOp h)

theorem State.Canonical.reqDone {s : State} {r : Req} (h : s.Canonical) :
    (reqDone s r).Canonical := by
  unfold Machine.reqDone
  extract_lets s1 s2
  have h1 : s1.Canonical := .dropReq h
  have h2 : s2.Canonical := by
    unfold s2
    split
    · exact .opPiece h1
    · exact h1
  split
  · exact h2
  · split
    · exact h2
    · split
      · exact .entryDone h2
      · exact h2

theorem State.Canonical.sendAtom {s : State} {o : Op} {sp : Space} {op : Nat} {w8 : Bool} {lanes : List LaneAtom}
    (h : s.Canonical) :
    (sendAtom s o sp op w8 lanes).Canonical := by
  unfold Machine.sendAtom
  extract_lets _ _
  split
  · exact .modOp h
  · exact .foldl (.modOp h) fun _ _ h1 => .addReq (.modOp h1)
  · exact .foldl h fun _ _ h1 => .addReq (.modOp h1)

theorem State.Canonical.sendReads {s : State} {o : Op} (h : s.Canonical) :
    (sendReads s o).Canonical := by
  unfold Machine.sendReads
  split
  · exact h
  · exact .opPieces (.requestPieces (.modOp h))

theorem State.Canonical.sendOp {s : State} {o : Op} (h : s.Canonical) :
    (sendOp s o).Canonical := by
  unfold Machine.sendOp
  extract_lets s1 s2
  have h1 : s1.Canonical := by
    unfold s1
    split
    · exact .sendRelease h
    · exact h
  have h2 : s2.Canonical := .modOp h1
  split
  · exact .sendAtom h2
  · exact .sendReads h2

theorem State.Canonical.leaveBytes {s : State} {e : Entry} {rest : List WByte} (h : s.Canonical) :
    (leaveBytes s e rest).Canonical := .ite (.entryDone h) (.setEntry h)

theorem State.Canonical.leaveLanes {s : State} {e : Entry} {rest : List LaneAtom} (h : s.Canonical) :
    (leaveLanes s e rest).Canonical := .ite (.entryDone h) (.setEntry h)

theorem State.Canonical.markSent {s : State} {e : Entry} (h : s.Canonical) :
    (markSent s e).Canonical := .setEntry h

theorem State.Canonical.sendEntry {s : State} {x : Nat × Nat × Entry} (h : s.Canonical) :
    (sendEntry s x).Canonical := by
  unfold Machine.sendEntry
  extract_lets +onlyGivenNames _ s1 _ _ _ _ _ _ s2
  have h1 : s1.Canonical := by
    unfold s1
    split
    · exact .sendRelease h
    · exact h
  have h2 : s2.Canonical := h1
  split
  · exact .ite h1 (.claim h1)
  · exact .entryDone h1
  · split
    · exact .sendReads (.modOp (.markSent h1))
    · exact .markSent h1
  · exact .leaveBytes (.modBand h2 fun _ hx => foldl_memPut_wf _ _ _ hx)
  · exact .ite (.addReq (.markSent h1)) (.leaveBytes (.writePantry h2))
  · exact .ite (.leaveBytes (.mergeLine h2)) (.writeLine (.markSent h1))
  · extract_lets +onlyGivenNames _
    split
    · split
      · rename_i st hst
        exact .entryDone (.modSite h1 fun _ _ => rmwMem_wf (h1.site? hst))
      · exact .markSent h1
    · exact .addReq (.markSent h1)
  · extract_lets +onlyGivenNames _ _
    split
    · exact .leaveLanes (.rmwHere h2)
    · exact .ite (.leaveLanes (.rmwHere h2)) (.addReq (.markSent h1))
    · exact .addReq (.markSent h1)

theorem State.Canonical.answer {s : State} {r : Req} {bs : List (Nat × Byte)} (h : s.Canonical) :
    (s.answer r bs).Canonical := by
  unfold State.answer
  split
  · exact .modOp h
  · split
    · split <;> exact h
    · exact .modJob h
    · exact .toPeer h
    · exact h

theorem State.Canonical.sendBack {s : State} {r : Req} {src : Nat} {bs : List (Nat × Byte)} (h : s.Canonical) :
    (s.sendBack r src bs).Canonical := by
  unfold State.sendBack
  extract_lets s1
  have h1 : s1.Canonical := by
    unfold s1
    split
    · exact .setEntry h
    · exact h
  exact .ite (.post (.modReq h1)) (.reqDone (.answer h1))

theorem State.Canonical.leftOf {s : State} {r : Req} {rest : List WByte} (h : s.Canonical) :
    (s.leftOf r rest).Canonical := by
  unfold State.leftOf
  extract_lets s1
  have h1 : s1.Canonical := .modReq h
  split
  · exact .setEntry h1
  · exact h1

theorem NextCanonical.execPantryVerb {i : Nat} {s : State} (h : s.Canonical) :
    NextCanonical (execPantryVerb i s) := by
  unfold Machine.execPantryVerb
  refine .next ?_
  split
  · exact h
  · split
    · exact h
    · split
      · exact h
      · split
        · exact .post h
        · split
          · exact .post (.modReq h)
          · split
            · exact .ite (.sendBack (.answer h)) (.post (.modReq (.answer h)))
            · exact .ite (.sendBack (.writePantry h)) (.post (.leftOf (.writePantry h)))
            · exact .ite (.sendBack (.answer (.rmwHere h))) (.post (.modReq (.answer (.rmwHere h))))

/-! ### The home serai (Machine/Coherence.lean) -/

theorem State.Canonical.setDir {s : State} {e : DirEnt} (h : s.Canonical) :
    (s.setDir e).Canonical := .ite h h

theorem State.Canonical.dropDir {s : State} {ctx line : Nat} (h : s.Canonical) :
    (s.dropDir ctx line).Canonical := h

theorem State.Canonical.dropTxn {s : State} {ctx line : Nat} (h : s.Canonical) :
    (s.dropTxn ctx line).Canonical := h

theorem State.Canonical.modTxn {s : State} {ctx line : Nat} {f : Txn → Txn} (h : s.Canonical) :
    (s.modTxn ctx line f).Canonical := h

theorem State.Canonical.refuse {s : State} {r : Req} {code : BitVec 8} (h : s.Canonical) :
    (s.refuse r code).Canonical := by
  unfold State.refuse
  split
  · exact .toPeer (.dropReq h)
  · exact .dropReq h
  · exact .dropReq h
  · exact .post h

theorem State.Canonical.touchPage {s : State} {ctx page : Nat} (h : s.Canonical) :
    (touchPage s ctx page).Canonical := .ite h h

theorem State.Canonical.sampleWrite {s : State} {ctx va : Nat} {bs : List Byte} (h : s.Canonical) :
    (sampleWrite s ctx va bs).Canonical := by
  unfold Machine.sampleWrite
  split
  · rename_i heq
    exact .of_eq heq (.walkSpan h)
  · rename_i s1 _ heq
    have h1 : s1.Canonical := .of_eq heq (.walkSpan h)
    exact .ite h1 (.addReq h1)

theorem State.Canonical.sampleArrival {s : State} {r : Req} {noPage : Bool} (h : s.Canonical) :
    (sampleArrival s r noPage).Canonical := by
  unfold Machine.sampleArrival
  split
  · exact h
  · extract_lets s1
    have h1 : s1.Canonical := .modReq h
    split
    · exact h1
    · exact .ite (.modCtx h1) (.sampleWrite (.modCtx h1))

theorem State.Canonical.setTicket {s : State} {t : TSlot} (h : s.Canonical) :
    (s.setTicket t).Canonical := .ite h h

theorem State.Canonical.logWho {s : State} {what x y who : Nat} (h : s.Canonical) :
    (s.logWho what x y who).Canonical := h

theorem State.Canonical.noPage {s : State} {r : Req} (h : s.Canonical) :
    (s.noPage r).Canonical := by
  unfold State.noPage
  split
  · extract_lets s1
    have h1 : s1.Canonical := .logWho h
    split
    · exact .toPeer (.dropReq h1)
    · exact .post (.modReq h1)
  · split
    · exact .refuse (.modReq h)
    · extract_lets s1 _
      have h1 : s1.Canonical := .setTicket h
      split
      · exact .modReq h1
      · split
        · exact .toPeer (.dropReq h1)
        · exact .dropReq h1
        · exact .dropReq h1
        · exact .post (.modReq h1)

theorem State.Canonical.setWidx {s : State} {q : Nat} {v : BitVec 32} (h : s.Canonical) :
    (s.setWidx q v).Canonical := .ite h (.modQueue h)

theorem State.Canonical.windowStore {s : State} {r : Req} {base : Nat} {bs : List WByte} (h : s.Canonical) :
    (windowStore s r base bs).Canonical := .foldl h fun _ _ h1 => .setWidx h1

theorem State.Canonical.performHost {s : State} {r : Req} {base : Nat} (h : s.Canonical) :
    (performHost s r base).Canonical := by
  unfold Machine.performHost
  split
  · split
    · exact .sendBack (.windowStore h)
    · exact .sendBack h
    · exact .refuse h
  · extract_lets +onlyGivenNames _ s1
    have h1 : s1.Canonical := h
    split
    · exact .sendBack ⟨h1.gran, foldl_memPut_wf _ _ _ h1.host, h1.pantry, h1.bench⟩
    · exact .refuse h1
    · exact .sendBack h1
    · extract_lets +onlyGivenNames s2 _
      have h2 : s2.Canonical := h1
      exact .sendBack ⟨h2.gran, rmwMem_wf h2.host, h2.pantry, h2.bench⟩

theorem State.Canonical.newLine {s : State} {r : Req} {d : LineData} (h : s.Canonical) :
    (newLine s r d).1.Canonical := by
  unfold Machine.newLine
  split <;> exact h

theorem State.Canonical.lockAll {s : State} {p : Page} {r : Option Nat} {w : Option (Nat × Nat)} {again : List Instr}
    {go : State → State} (h : s.Canonical) (hgo : ∀ s1, s1.Canonical → (go s1).Canonical) :
    (lockAll s p r w again go).Canonical := by
  unfold Machine.lockAll
  extract_lets _
  split
  · exact .post h
  · split
    · exact .post (.modPage h)
    · exact hgo _ (.modPage h)

theorem State.Canonical.performGran {s : State} {r : Req} {p : Page} (h : s.Canonical) :
    (performGran s r p).Canonical := by
  unfold Machine.performGran
  split
  · exact .sendBack h
  · exact .lockAll h fun _ h1 => .sendBack (.writeHome (.newLine h1))

theorem State.Canonical.performAt {s : State} {r : Req} (h : s.Canonical) :
    (s.performAt r).Canonical := by
  unfold State.performAt
  split
  · exact .noPage h
  · split
    · exact .performHost h
    · exact .performGran h

theorem State.Canonical.badLine {s : State} {r : Req} {e : Nat × Bool} (h : s.Canonical) :
    (s.badLine r e).Canonical := .refuse (.ite (.quarantine h) h)

theorem State.Canonical.performLine {s : State} {r : Req} (h : s.Canonical) :
    (s.performLine r).Canonical := by
  unfold State.performLine
  split
  · exact .badLine h
  · exact .performAt h

theorem State.Canonical.arrive {s : State} {r : Req} {ev : Instr} {go : State → Req → Page → State} (h : s.Canonical)
    (hgo : ∀ s1 r p, s1.Canonical → (go s1 r p).Canonical) :
    (s.arrive r ev go).Canonical := by
  unfold State.arrive
  extract_lets _ _ refusal _ s1
  have h1 : s1.Canonical := .ite (.touchPage (.sampleArrival (.modReq h))) h
  clear_value refusal
  split
  · exact h1
  · split
    · exact .refuse h1
    · split
      · exact .noPage h1
      · exact .ite (.noPage h1) (.ite (.post h1) (.ite (.post h1) (hgo _ _ _ h1)))

theorem State.Canonical.startTxn {s : State} {x : Txn} {own : Nat → Bool} {msg : Nat → Instr} (h : s.Canonical) :
    (s.startTxn x own msg).Canonical := .post (.foldl h fun _ _ h1 => .toPeer h1)

theorem State.Canonical.recall {s : State} {ctx line r : Nat} (h : s.Canonical) :
    (s.recall ctx line r).Canonical := by
  unfold State.recall
  split
  · exact h
  · exact .ite h (.ite (.dropDir h) (.startTxn h))

theorem State.Canonical.withEntry {s : State} {r : Req} {dom : Nat} {ev : Instr} {go : State → State} (h : s.Canonical)
    (hgo : ∀ s1, s1.Canonical → (go s1).Canonical) :
    (s.withEntry r dom ev go).Canonical := by
  unfold State.withEntry
  split
  · exact hgo _ h
  · extract_lets _
    split
    · exact hgo _ h
    · split
      · exact .post h
      · split
        · exact .post (.recall h)
        · exact .post h

theorem State.Canonical.grant {s : State} {r : Req} {fwd : Option LineData} {src : Nat} (h : s.Canonical) :
    (s.grant r fwd src).Canonical := by
  unfold State.grant
  extract_lets _ s1
  have h1 : s1.Canonical := .dropTxn h
  split
  · exact .dropReq (.answer h1)
  · exact .post (.modReq h1)

theorem State.Canonical.lineCheck {s : State} {ctx line : Nat} (h : s.Canonical) :
    (s.lineCheck ctx line).1.Canonical := by
  unfold State.lineCheck
  split <;> exact h

theorem State.Canonical.supply {s : State} {r : Req} {e : DirEnt} {fwd : Option LineData} {src : Nat} (h : s.Canonical) :
    (s.supply r e fwd src).Canonical := by
  unfold State.supply
  extract_lets _ x
  have h1 : x.1.Canonical := .lineCheck h
  refine .ite (.grant (.setDir h)) ?_
  split
  · exact .badLine (.dropTxn h1)
  · exact .grant (.setDir h1)

theorem State.Canonical.getsAt {s : State} {r : Req} {dom : Nat} (h : s.Canonical) :
    (getsAt s r dom).Canonical := by
  unfold Machine.getsAt
  extract_lets _ _
  split
  · exact .supply h
  · exact .ite (.startTxn h) (.ite (.supply h) (.supply h))

theorem State.Canonical.ownNow {s : State} {r : Req} {dom : Nat} {fwd : Option LineData} {src : Nat} (h : s.Canonical) :
    (ownNow s r dom fwd src).Canonical := .supply h

theorem State.Canonical.ownAt {s : State} {r : Req} {dom : Nat} {kind : TxnKind} {fwd : Option LineData} (h : s.Canonical) :
    (ownAt s r dom kind fwd).Canonical := by
  unfold Machine.ownAt
  extract_lets _
  split
  · exact .ownNow h
  · exact .ite (.ownNow h) (.startTxn h)

theorem State.Canonical.homeAt {s : State} {r : Req} (h : s.Canonical) :
    (homeAt s r).Canonical := by
  unfold Machine.homeAt
  extract_lets _
  split
  · exact .performLine h
  · split
    · exact .performLine h
    · exact .ite (.startTxn h) (.ite (.performLine (.dropDir h)) (.startTxn h))

theorem State.Canonical.finishTxn {s : State} {x : Txn} (h : s.Canonical) :
    (s.finishTxn x).Canonical := by
  unfold State.finishTxn
  extract_lets +onlyGivenNames _
  split
  · exact .ite (.toPeer (.dropDir (.dropTxn h))) (.dropDir (.dropTxn h))
  · split
    · exact .supply (.dropTxn h)
    · exact .getsAt (.dropTxn h)
  · exact .ownNow h
  · exact .ownNow h
  · extract_lets +onlyGivenNames s1 s2
    have h1 : s1.Canonical := .dropTxn h
    have h2 : s2.Canonical := by
      unfold s2
      split
      · split
        · exact .setDir h1
        · exact h1
      · exact .dropDir h1
    exact .performLine h2
  · exact .dropTxn h
  · exact .ite (.dropTxn h) (.dropDir (.dropTxn h))

theorem State.Canonical.foundDirty {s : State} {holder ctx line : Nat} {d : LineData} (h : s.Canonical) :
    (s.foundDirty holder ctx line d).Canonical := by
  unfold State.foundDirty
  split
  · exact .ite (.setDir h) h
  · exact h

theorem State.Canonical.ackFrom {s : State} {holder ctx line : Nat} {dirty : Option LineData} (h : s.Canonical) :
    (s.ackFrom holder ctx line dirty).Canonical := by
  unfold State.ackFrom
  split
  · exact h
  · split
    · exact h
    · extract_lets _ _ _
      split
      · exact .ite (.finishTxn (.modTxn h)) (.modTxn h)
      · extract_lets _
        split
        · exact .ite (.finishTxn (.modTxn (.writeHome (.foundDirty h)))) (.modTxn (.writeHome (.foundDirty h)))
        · exact .lockAll h fun _ h1 => .ite (.finishTxn (.modTxn (.writeHome (.foundDirty h1)))) (.modTxn (.writeHome (.foundDirty h1)))

theorem State.Canonical.askHome {s : State} {r : Req} (h : s.Canonical) :
    (s.askHome r).Canonical := .toPeer (.modReq h)

theorem State.Canonical.atProxy {s : State} {r : Req} {ev : Instr} (h : s.Canonical) :
    (s.atProxy r ev).Canonical := by
  unfold State.atProxy
  extract_lets _
  split
  · exact h
  · split
    · exact .post h
    · split
      · exact .ite (.getsAt h) (.askHome h)
      · exact .ite (.ownAt h) (.askHome h)
      · exact .askHome h

theorem State.Canonical.atHome {s : State} {i : Nat} {ev : Instr} {go : State → Req → Page → State} (h : s.Canonical)
    (hgo : ∀ s1 r p, s1.Canonical → (go s1 r p).Canonical) :
    (s.atHome i ev go).Canonical := by
  unfold State.atHome
  split
  · exact h
  · split
    · exact .performHost h
    · exact .ite (.ite (.atProxy h) h) (.arrive h fun _ _ _ h1 => hgo _ _ _ h1)

theorem State.Canonical.giveUp {s : State} {ctx line : Nat} {ev : Instr} (h : s.Canonical) :
    (s.giveUp ctx line ev).Canonical := by
  unfold State.giveUp
  split
  · exact .post h
  · split
    · exact .ite (.toPeer (.dropDir h)) (.startTxn h)
    · exact .toPeer h

theorem State.Canonical.giveData {s : State} {ctx line : Nat} {ev : Instr} (h : s.Canonical) :
    (s.giveData ctx line ev).Canonical := by
  unfold State.giveData
  split
  · exact .post h
  · split
    · split
      · exact .toPeer (.setDir (.modLine h))
      · exact .toPeer h
    · exact .toPeer h

theorem NextCanonical.execGets {i : Nat} {s : State} (h : s.Canonical) :
    NextCanonical (execGets i s) :=
  .next (.atHome h fun _ _ _ h1 => .ite (.withEntry h1 fun _ h2 => .getsAt h2) (.homeAt h1))

theorem NextCanonical.execGetm {i : Nat} {s : State} (h : s.Canonical) :
    NextCanonical (execGetm i s) :=
  .next (.atHome h fun _ _ _ h1 => .ite (.withEntry h1 fun _ h2 => .ownAt h2) (.homeAt h1))

theorem NextCanonical.execUpg {i : Nat} {s : State} (h : s.Canonical) :
    NextCanonical (execUpg i s) :=
  .next (.atHome h fun _ _ _ h1 => .ite (.withEntry h1 fun _ h2 => .ownAt h2) (.homeAt h1))

theorem State.Canonical.putHome {s : State} {c : CLine} (h : s.Canonical) :
    (s.putHome c).Canonical := .ite (.toPeer h) (.writeHome h)

theorem State.Canonical.takePut {s : State} {die : Nat} {c : CLine} (h : s.Canonical) :
    (s.takePut die c).Canonical := by
  unfold State.takePut
  extract_lets s1
  have h1 : s1.Canonical := .ite (.modLine h) (.dropLine h)
  split
  · exact h1
  · exact .ite (.ite (.dropDir (.putHome h1)) (.setDir (.putHome h1))) h1

theorem State.Canonical.putBack {s : State} {die ctx line : Nat} {st : CState} (h : s.Canonical) :
    (s.putBack die ctx line st).Canonical := by
  unfold State.putBack
  split
  · exact h
  · split
    · exact .modLine h
    · extract_lets _ _ s1
      have h1 : s1.Canonical := .ite (.modLine h) h
      split
      · exact .post h1
      · split
        · exact .takePut h1
        · exact .lockAll h1 fun _ h2 => .takePut h2

theorem State.Canonical.peerPut {s : State} {m ctx line : Nat} {again : Instr} (h : s.Canonical) :
    (s.peerPut m ctx line again).Canonical := by
  unfold State.peerPut
  split
  · exact .addReq h
  · split
    · exact .post h
    · split
      · split
        · exact .lockAll h fun _ h1 => .sendBack (.ite (.dropDir (.writeHome h1)) (.setDir (.writeHome h1)))
        · exact .sendBack h
      · exact .sendBack h

theorem NextCanonical.execPutm {die ctx line : Nat} {s : State} (h : s.Canonical) :
    NextCanonical (execPutm die ctx line s) := .next (.ite (.peerPut h) (.putBack h))

theorem NextCanonical.execPuto {die ctx line : Nat} {s : State} (h : s.Canonical) :
    NextCanonical (execPuto die ctx line s) := .next (.ite (.peerPut h) (.putBack h))

theorem NextCanonical.execFwdgets {die ctx line : Nat} {s : State} (h : s.Canonical) :
    NextCanonical (execFwdgets die ctx line s) := by
  unfold Machine.execFwdgets
  refine .next ?_
  split
  · exact .ite (.giveData h) h
  · split
    · exact .post h
    · split
      · exact .post h
      · extract_lets +onlyGivenNames s1 s2
        have h1 : s1.Canonical := .modLine h
        have h2 : s2.Canonical := by
          unfold s2
          split
          · exact .setDir h1
          · exact h1
        split
        · exact .dropTxn h2
        · split
          · extract_lets +onlyGivenNames s3
            have h3 : s3.Canonical := .dropTxn h2
            split <;> exact .sendBack h3
          · extract_lets +onlyGivenNames s3
            have h3 : s3.Canonical := by
              unfold s3
              split
              · exact .setDir h2
              · exact h2
            exact .grant h3

theorem NextCanonical.execFwdgetm {die ctx line : Nat} {s : State} (h : s.Canonical) :
    NextCanonical (execFwdgetm die ctx line s) := by
  unfold Machine.execFwdgetm
  refine .next ?_
  split
  · exact .ite (.giveUp h) h
  · split
    · exact .post h
    · split
      · exact .post h
      · extract_lets s1
        have h1 : s1.Canonical := .dropLine h
        split
        · exact .post (.modTxn h1)
        · exact .post (.modTxn h1)
        · exact .post h1

theorem NextCanonical.execBackinv {die ctx line : Nat} {s : State} (h : s.Canonical) :
    NextCanonical (execBackinv die ctx line s) := by
  unfold Machine.execBackinv
  refine .next ?_
  split
  · exact .ite (.giveUp h) h
  · split
    · exact .post h
    · split
      · exact .post h
      · exact .post (.dropLine h)

theorem NextCanonical.execInvack {die ctx line : Nat} {dirty : Option LineData} {s : State} (h : s.Canonical) :
    NextCanonical (execInvack die ctx line dirty s) := .next (.ite h (.ackFrom h))

theorem State.Canonical.readLine {s : State} {r : Req} {d : LineData} {ps : List (Nat × Nat)} (h : s.Canonical) :
    (readLine s r d ps).Canonical := by
  unfold Machine.readLine
  extract_lets _ _ _ s1 s2
  have h1 : s1.Canonical := h
  have h2 : s2.Canonical := by
    unfold s2
    split
    · exact .modOp h1
    · exact h1
  exact .reqDone (.answer h2)

theorem State.Canonical.leftStore {s : State} {r : Req} {rest : List WByte} (h : s.Canonical) :
    (leftStore s r rest).Canonical := by
  unfold Machine.leftStore
  split
  · exact .setEntry (.dropReq h)
  · split
    · exact .reqDone (.modOp h)
    · exact .reqDone h
  · exact .reqDone h

theorem State.Canonical.deliverLine {s : State} {r : Req} {st : CState} {d : LineData} (h : s.Canonical) :
    (deliverLine s r st d).Canonical := by
  unfold Machine.deliverLine
  extract_lets _ _
  split
  · exact .ite (.readLine (.cacheLine h)) (.reqDone (.answer h))
  · split
    · exact .reqDone h
    · split
      · exact .post (.modReq h)
      · split
        · exact .reqDone (.cacheLine h)
        · exact .ite (.reqDone (.cacheLine h)) (.leftStore (.cacheLine h))
  · exact .reqDone (.answer (.newLine h))

theorem State.Canonical.takeGrant {s : State} {r : Req} {payload : Option LineData} (h : s.Canonical) :
    (s.takeGrant r payload).Canonical := by
  unfold State.takeGrant
  extract_lets _
  split
  · exact .deliverLine h
  · exact .ite (.deliverLine h) h
  · exact .post (.modReq h)

theorem State.Canonical.fromHome {s : State} {r : Req} {payload : Option LineData} (h : s.Canonical) :
    (s.fromHome r payload).Canonical := by
  unfold State.fromHome
  extract_lets +onlyGivenNames _ _ _ s1
  have h1 : s1.Canonical := h
  split
  · extract_lets +onlyGivenNames _
    split
    · exact .deliverLine h1
    · exact .reqDone h1
    · exact h1
  · extract_lets +onlyGivenNames s2
    have h2 : s2.Canonical := .modReq h1
    split
    · exact .takeGrant (.setDir h2)
    · exact .ownAt h2

theorem NextCanonical.execDataMsg {i : Nat} {payload : Option LineData} {s : State} (h : s.Canonical) :
    NextCanonical (execDataMsg i payload s) := by
  unfold Machine.execDataMsg
  refine .next ?_
  split
  · exact h
  · split
    · exact .ite (.reqDone (.answer h)) (.dropReq h)
    · exact .ite h (.ite (.fromHome h) (.ite h (.ite (.dropReq h) (.takeGrant h))))

/-! ### Conversions and packed instructions (Machine/LanePack.lean) -/

theorem NextCanonical.narrow {s : State} {g : PReg} {d a : VReg} {nb8 fb : Bool} (h : s.Canonical) :
    NextCanonical (s.narrow g d a nb8 fb) := .onHead fun _ _ => .withFlags h fun _ h1 => .writeLanes (.writeLanes h1)

theorem NextCanonical.execCvt {g : PReg} {d a : VReg} {sel : BitVec 6} {s : State} (h : s.Canonical) :
    NextCanonical (execCvt g d a sel s) := by
  unfold Machine.execCvt
  extract_lets _ _
  split
  · exact .fp1 h
  · exact .fp1 h
  · exact .fp1 h
  · exact .fp1 h
  · exact .fp1 h
  · exact .fp1 h
  · exact .fp1 h
  · exact .fp1 h
  · exact .narrow h
  · exact .narrow h
  · exact .laneOp h
  · exact .laneOp h

theorem NextCanonical.execCvtSat {g : PReg} {d a : VReg} {sel : BitVec 6} {s : State} (h : s.Canonical) :
    NextCanonical (execCvtSat g d a sel s) := by
  unfold Machine.execCvtSat
  extract_lets _ _
  split <;> exact .fp1 h

theorem NextCanonical.execCvtPack {g : PReg} {d a : VReg} {sel : BitVec 6} {s : State} (h : s.Canonical) :
    NextCanonical (execCvtPack g d a sel s) := .ite (.laneOp h) (.fp1 h)

/-! ### Cross-lane instructions (Machine/LaneCross.lean) -/

theorem NextCanonical.shuffle {s : State} {g : PReg} {d a : VReg} {src : Str → Nat → Nat} (h : s.Canonical) :
    NextCanonical (s.shuffle g d a src) := .laneInt h

theorem NextCanonical.reduce {s : State} {g : PReg} {d a : VReg} {la : BitVec 4} {f : Str → Word32 → FRes} (h : s.Canonical) :
    NextCanonical (s.reduce g d a la f) := .laneLong h

/-! ### Fault tickets and page service (Machine/Tickets.lean) -/

/-- Any entries of a canonical map that are kept stand in canonical form. -/
theorem smWfFrom_filter {α : Type} [DecidableEq α] (d : α) (keep : Nat × α → Bool) (m : SMap α) :
    ∀ lo, smWfFrom d lo m = true → smWfFrom d lo (m.filter keep) = true := by
  induction m with
  | nil => intro lo _; rfl
  | cons p m ih =>
    obtain ⟨k, x⟩ := p
    intro lo h
    simp only [smWfFrom, Bool.and_eq_true, decide_eq_true_eq] at h
    obtain ⟨⟨hlo, hx⟩, hm⟩ := h
    rw [List.filter_cons]
    split
    · simp only [smWfFrom, Bool.and_eq_true, decide_eq_true_eq]
      exact ⟨⟨hlo, hx⟩, ih _ hm⟩
    · exact smWfFrom_mono d lo (k + 1) (by omega) _ (ih _ hm)

/-- Emptying a range keeps the canonical form. -/
theorem zeroRange_wf {m : Memory} {a n : Nat} (h : m.wf = true) : (zeroRange m a n).wf = true := smWfFrom_filter _ _ _ _ h

theorem State.Canonical.zeroFrame {s : State} {dom f : Nat} (h : s.Canonical) :
    (zeroFrame s dom f).Canonical := by
  unfold Machine.zeroFrame
  exact ⟨zeroRange_wf h.gran, h.host, h.pantry, h.bench⟩

theorem State.Canonical.givePage {s : State} {ctx page prim : Nat} {m : BitVec 8} {s' : State} (h : s.Canonical)
    (e : givePage s ctx page prim m = some s') :
    s'.Canonical := by
  unfold Machine.givePage at e
  obtain ⟨f, _, rfl⟩ := Option.map_eq_some_iff.1 e
  exact .foldl h fun _ _ => .zeroFrame

theorem State.Canonical.negAt {s : State} {b n code : Nat} {pc : Word64} {same : Bool} (h : s.Canonical) :
    (negAt s b n code pc same).Canonical := by
  unfold Machine.negAt
  split
  · split
    · exact h
    · split
      · exact .ite (.modStr h) (.takeTrap h)
      · exact .modStr h
      · exact .modStr h
      · exact h
  · exact h

theorem State.Canonical.remoteNeg {s : State} {b n code : Nat} {pc : Word64} (h : s.Canonical) :
    (remoteNeg s b n code pc).Canonical := .negAt h

theorem State.Canonical.park {s : State} {b n : Nat} {ticket : BitVec 32} {pc : Word64} (h : s.Canonical) :
    (park s b n ticket pc).Canonical := by
  unfold Machine.park
  split
  · exact h
  · split
    · split
      · exact .modStr (.modCore h)
      · exact .post (.modStr h)
    · exact .modStr h

theorem State.Canonical.discardReply {s : State} {r : Req} (h : s.Canonical) :
    (discardReply s r).Canonical := .reqDone h

theorem State.Canonical.again {s : State} {r : Req} (h : s.Canonical) :
    (s.again r).Canonical := .ite (.post h) (.ite (.post (.modReq h)) (.toPeer h))

theorem State.Canonical.missString {s : State} {r : Req} {o : Op} {ticket : BitVec 32} (h : s.Canonical) :
    (missString s r o ticket).Canonical := by
  unfold Machine.missString
  split
  · exact .discardReply h
  · extract_lets +onlyGivenNames _
    split
    · extract_lets s1 s2
      have h1 : s1.Canonical := .ite (.again h) h
      have h2 : s2.Canonical := .ite (.modStr (.rollback h1)) (.remoteNeg (.modStr h1))
      exact .ite h2 (.discardReply (.modOp h2))
    · extract_lets s1 s2
      have h1 : s1.Canonical := .ite (.modReq h) h
      have h2 : s2.Canonical := .ite h1 (.park (.rollback h1))
      exact .ite h2 (.discardReply h2)

theorem State.Canonical.waitForNotice {s : State} {r : Req} {ticket : BitVec 32} (h : s.Canonical) :
    (waitForNotice s r ticket).Canonical := by
  unfold Machine.waitForNotice
  split
  · exact .modReq h
  · exact .ite (.again h) (.post h)

theorem NextCanonical.execNrNopage {i : Nat} {ticket : BitVec 32} {s : State} (h : s.Canonical) :
    NextCanonical (execNrNopage i ticket s) := by
  unfold Machine.execNrNopage
  refine .next ?_
  split
  · exact h
  · split
    · exact .post h
    · split
      · exact .reqDone (.contextFatal (.logWho h))
      · split
        · exact .ite (.discardReply h) (.ite (.waitForNotice h) (.missString h))
        · exact .waitForNotice h

theorem State.Canonical.noticeString {ticket : BitVec 32} {code : BitVec 8} {s : State} {w : Nat × Nat} (h : s.Canonical) :
    (noticeString ticket code s w).Canonical := by
  unfold Machine.noticeString
  split
  · exact h
  · exact .ite h (.ite (.modStr h) (.negAt (.modStr h)))

theorem State.Canonical.resend {ticket : BitVec 32} {code : BitVec 8} {told : List (Nat × Nat)} {s : State} (h : s.Canonical) :
    (resend ticket code told s).Canonical := by
  unfold Machine.resend
  extract_lets _ s1
  have h1 : s1.Canonical := h
  refine .foldl h1 fun _ _ h2 => ?_
  split
  · exact .again h2
  · split
    · exact .ite (.discardReply (.modOp h2)) (.post h2)
    · exact .post h2

theorem State.Canonical.tellModules {s : State} {ticket : BitVec 32} {cores : List (Nat × Nat × Nat)} {bcast : Option (BitVec 16)}
    {code : BitVec 8} (h : s.Canonical) :
    (tellModules s ticket cores bcast code).Canonical := .foldl h fun _ _ h1 => .toPeer h1

theorem State.Canonical.tellFar {s : State} {ticket : BitVec 32} {code : BitVec 8} (h : s.Canonical) :
    (tellFar s ticket code).Canonical := by
  unfold Machine.tellFar
  split
  · exact h
  · exact .tellModules h

theorem NextCanonical.execReplayNotice {ticket : BitVec 32} {code : BitVec 8} {s : State} (h : s.Canonical) :
    NextCanonical (execReplayNotice ticket code s) :=
  .next (.ite (.post h) (.wakeSaved (.resend (.foldl (.tellFar h) fun _ _ => .noticeString))))

theorem State.Canonical.acceptHeld {s : State} {r : Req} (h : s.Canonical) :
    (s.acceptHeld r).Canonical := by
  unfold State.acceptHeld
  split
  · exact .refuse h
  · exact .again (.modReq h)

theorem State.Canonical.releaseHeld {ticket : BitVec 32} {code : BitVec 8} {s : State} (h : s.Canonical) :
    (releaseHeld ticket code s).Canonical := .foldl h fun _ _ h1 => .ite (.acceptHeld h1) (.refuse h1)

theorem State.Canonical.endTicket {s : State} {t : TSlot} {code : BitVec 8} (h : s.Canonical) :
    (endTicket s t code).Canonical := .post (.setTicket (.releaseHeld h))

theorem State.Canonical.endPageTickets {s : State} {ctx page : Nat} {code : BitVec 8} (h : s.Canonical) :
    (endPageTickets s ctx page code).Canonical := .foldl h fun _ _ h1 => .endTicket h1

theorem State.Canonical.learnAlloc {s : State} {ctx page : Nat} {inOne : Bool} (h : s.Canonical) :
    (learnAlloc s ctx page inOne).1.Canonical := by
  unfold Machine.learnAlloc
  split <;> exact h

theorem State.Canonical.giveIn {s : State} {ctx page : Nat} {m : BitVec 8} {s' : State} (h : s.Canonical)
    (e : giveIn s ctx page m = some s') :
    s'.Canonical := by
  unfold Machine.giveIn at e
  obtain ⟨d, _, hd⟩ := List.exists_of_findSome?_eq_some e
  exact .givePage (by exact h) hd

theorem NextCanonical.execPageServiceDone {slot : Nat} {code : BitVec 8} {s : State} (h : s.Canonical) :
    NextCanonical (execPageServiceDone slot code s) := by
  unfold Machine.execPageServiceDone
  refine .next ?_
  split
  · exact h
  · split
    · exact .ite h (.ite (.endTicket h) (.ite (.endTicket (.modPage h)) (.ite (.endTicket h) h)))
    · split
      · extract_lets r
        have h1 : r.1.Canonical := .learnAlloc h
        split
        · exact .endTicket h1
        · split
          · rename_i s2 heq
            exact .endTicket (.giveIn h1 heq)
          · exact .endTicket h1
      · exact h

/-! ### The matrix unit (Machine/Matrix.lean) -/

theorem NextCanonical.matrix {s : State} {minor tile : Nat} {a b : SReg} (h : s.Canonical) :
    NextCanonical (s.matrix minor tile a b) := by
  unfold State.matrix
  refine .onHead (fun _ _ => ?_)
  split
  · exact h
  · extract_lets _ _ _
    split
    · exact .raise h
    · exact .tearAt h fun _ h1 => .ite (.hold h1) (.ite (.hold h1) (.modBun h1))

theorem NextCanonical.execMbatch {s : State} (h : s.Canonical) :
    NextCanonical (execMbatch s) := by
  unfold Machine.execMbatch
  refine .onHead (fun _ _ => ?_)
  split
  · exact .hold h
  · exact .modBun (.addOp h)

theorem State.Canonical.submitMop {s : State} {m : MOp} (h : s.Canonical) :
    (submitMop s m).Canonical := by
  unfold Machine.submitMop
  split
  · exact h
  · exact .post (.ite (.modBand h) h)

theorem State.Canonical.closeBatch {s : State} {b n o : Nat} (h : s.Canonical) :
    (closeBatch s b n o).Canonical := .ite (.post (.modOp h)) (.modOp h)

theorem State.Canonical.setMsat {s : State} {m : MOp} (h : s.Canonical) :
    (setMsat s m).Canonical := by
  unfold Machine.setMsat
  extract_lets s1
  have h1 : s1.Canonical := .modStr h
  split
  · exact .modLaunch h1
  · exact h1

theorem State.Canonical.finishMul {s : State} {m : MOp} (h : s.Canonical) :
    (finishMul s m).Canonical := by
  unfold Machine.finishMul
  split
  · exact .ite (.setMsat (.modBand h)) (.modBand h)
  · exact h

/-- What `mst` leaves of a canonical bench is canonical. -/
theorem mstWrite_wf {bd : Band} {m : MOp} (h : bd.bench.wf = true) : (mstWrite bd m).wf = true :=
  List.foldlRecOn (motive := fun x => Memory.wf x = true) _ _ h fun _ hx _ _ => memWrite_wf _ _ _ hx

theorem State.Canonical.performMop {s : State} {die core : Nat} {bd : Band} {m : MOp} (h : s.Canonical) :
    (performMop s die core bd m).Canonical := by
  unfold Machine.performMop
  extract_lets s1
  have h1 : s1.Canonical := by
    unfold s1
    split
    · exact .ite (.modCore h) h
    · exact h
  split
  · exact .modBand h1 fun _ hx => mstWrite_wf hx
  · exact .modBand h1
  · exact h1

theorem NextCanonical.execMatrixOpStart {die core : Nat} {s : State} (h : s.Canonical) :
    NextCanonical (execMatrixOpStart die core s) := by
  unfold Machine.execMatrixOpStart
  refine .next ?_
  split
  · exact .ite (.post h) h
  · split
    · exact h
    · exact .post (.performMop h)

theorem State.Canonical.wakeUnit {s : State} {b : Nat} (h : s.Canonical) :
    (wakeUnit s b).Canonical := h

theorem State.Canonical.retireFrom {s : State} {i : Nat} (h : s.Canonical) :
    (retireFrom s i).Canonical := .post h

theorem NextCanonical.execMatrixOpRetire {die core : Nat} {s : State} (h : s.Canonical) :
    NextCanonical (execMatrixOpRetire die core s) := by
  unfold Machine.execMatrixOpRetire
  refine .next ?_
  split
  · exact h
  · exact .ite (.post (.ite h h)) (.wakeUnit (.retireFrom (.ite (.finishMul (.ite h h)) (.ite h h))))

/-! ### Engine jobs (Machine/Jobs.lean) -/

theorem NextCanonical.jobForm {s : State} {mn : Nat} {a : SReg} (h : s.Canonical) :
    NextCanonical (s.jobForm mn a) := by
  unfold State.jobForm
  refine .onHead (fun _ _ => ?_)
  split
  · exact h
  · extract_lets _
    split
    · exact .raise h
    · split
      · exact .raise h
      · split
        · exact .holdRelease h
        · split
          · exact .hold h
          · split
            · exact .hold h
            · split
              · exact .hold h
              · exact .modBun (.addOp h)

theorem State.Canonical.submitJob {s : State} {j : Job} (h : s.Canonical) :
    (submitJob s j).Canonical := by
  unfold Machine.submitJob
  split
  · exact h
  · extract_lets _ _ _ _ s1
    have h1 : s1.Canonical := .modOp h
    exact .post h1

theorem State.Canonical.jobFail {s : State} {j code sub : Nat} (h : s.Canonical) :
    (jobFail s j code sub).Canonical := .post (.modJob h)

theorem State.Canonical.jobError {s : State} {j : Job} {code sub : Nat} (h : s.Canonical) :
    (jobError s j code sub).Canonical := by
  unfold Machine.jobError
  split
  · exact .post (.modBand h)
  · split
    · exact .ite (.killBand h) (.modStr h)
    · exact .killBand h

theorem State.Canonical.jobGone {s : State} {j : Job} (h : s.Canonical) :
    (jobGone s j).Canonical := by
  unfold Machine.jobGone
  extract_lets s1 s2
  have h1 : s1.Canonical := h
  have h2 : s2.Canonical := h1
  split
  · exact .post (.modOp h2)
  · exact h2

theorem State.Canonical.jobSpans {s : State} {core : Nat} {bd : Band} {a n : Nat} {need : Word64 → Option Bad} (h : s.Canonical) :
    (jobSpans s core bd a n need).1.Canonical := by
  unfold Machine.jobSpans
  split
  · exact h
  · refine List.foldlRecOn (motive := fun (r : State × Option (List (Nat × Word64))) => r.1.Canonical) _ _ h fun r h1 sp _ => ?_
    split
    · exact h1
    · extract_lets x
      have h2 : x.1.Canonical := .lookupSpan h1
      split <;> exact h2

theorem State.Canonical.jobRead {s : State} {j : Job} {bd : Band} {sp a n : Nat} (h : s.Canonical) :
    (jobRead s j bd sp a n).Canonical := by
  unfold Machine.jobRead
  extract_lets s1 _ _ _
  have h1 : s1.Canonical := .modJob h
  split
  · exact .modJob h1
  · exact .ite (.modJob h1) (.foldl h1 fun _ _ h2 => .addReq h2)
  · split
    · rename_i s2 heq
      have h2 : s2.Canonical := .of_eq heq (.jobSpans h1)
      exact .jobFail h2
    · rename_i s2 _ heq
      have h2 : s2.Canonical := .of_eq heq (.jobSpans h1)
      exact .foldl h2 fun _ _ h3 => .addReq h3

theorem State.Canonical.jobWrite {s : State} {j : Job} {bd : Band} {sp a : Nat} {bytes : List Byte} (h : s.Canonical) :
    (jobWrite s j bd sp a bytes).Canonical := by
  unfold Machine.jobWrite
  extract_lets s1 _ _ _
  have h1 : s1.Canonical := .modJob h
  split
  · exact .modJob h1
  · exact .ite (.modJob h1) (.foldl h1 fun _ _ h2 => .addReq h2)
  · split
    · rename_i s2 heq
      have h2 : s2.Canonical := .of_eq heq (.jobSpans h1)
      exact .jobFail h2
    · rename_i s2 _ heq
      have h2 : s2.Canonical := .of_eq heq (.jobSpans h1)
      exact .foldl h2 fun _ _ h3 => .addReq h3

theorem State.Canonical.jobMore {s : State} {j : Job} {bd : Band} (h : s.Canonical) :
    (jobMore s j bd).Canonical :=
  .ite (.modJob h) (.modJob (.ite (.writePantry h) (.modBand h fun _ hx => foldl_memPut_wf _ _ _ hx)))

theorem State.Canonical.jobRow {s : State} {j : Job} {bd : Band} (h : s.Canonical) :
    (jobRow s j bd).Canonical := by
  unfold Machine.jobRow
  extract_lets _
  split
  · exact .ite (.modJob h) (.jobRead h)
  · exact .ite (.modJob h) (.ite (.ite (.jobWrite h) (.jobFail h)) (.jobRead h))
  · exact .jobRead h

theorem State.Canonical.modGroup {s : State} {c g : Nat} {f : Group → Group} (h : s.Canonical) :
    (s.modGroup c g f).Canonical := h

theorem State.Canonical.colReach {s : State} {j : Job} {bd : Band} (h : s.Canonical) :
    (colReach s j bd).Canonical := by
  unfold Machine.colReach
  extract_lets _
  split
  · exact .jobFail h
  · split
    · exact .jobFail h
    · exact .post (.modJob (.foldl (.modGroup h) fun _ _ h1 => .toPeer h1))

theorem State.Canonical.jobHave {s : State} {j : Job} {bd : Band} (h : s.Canonical) :
    (jobHave s j bd).Canonical := by
  unfold Machine.jobHave
  extract_lets _
  split
  · exact .jobWrite h
  · exact .jobWrite h
  · exact .colReach h
  · exact .post (.modJob h)

theorem NextCanonical.execJobReturn {i : Nat} {s : State} (h : s.Canonical) :
    NextCanonical (execJobReturn i s) := by
  unfold Machine.execJobReturn
  refine .next ?_
  split
  · exact h
  · split
    · exact h
    · split
      · exact h
      · split
        · exact .post h
        · split
          · exact .post (.jobMore h)
          · split
            · exact .jobGone (.jobError h)
            · split
              · exact .jobGone h
              · split
                · exact .post (.jobHave h)
                · extract_lets s1
                  have h1 : s1.Canonical := .ite (.modJob h) h
                  split
                  · exact .ite (.post h1) (.post (.jobRow h1))
                  · exact h1

theorem State.Canonical.joinInstance {s : State} {j : Job} {bd : Band} (h : s.Canonical) :
    (joinInstance s j bd).Canonical := by
  unfold Machine.joinInstance
  extract_lets _
  split
  · exact .jobFail h
  · split
    · exact .jobFail h
    · split
      · exact .jobFail h
      · exact .ite (.jobFail h) (.ite (.jobFail (.modGroup h)) (.post (.modGroup h)))

theorem NextCanonical.execJobStart {i : Nat} {s : State} (h : s.Canonical) :
    NextCanonical (execJobStart i s) := by
  unfold Machine.execJobStart
  refine .next ?_
  split
  · exact h
  · split
    · exact h
    · split
      · exact .post h
      · split
        · exact h
        · extract_lets s1
          have h1 : s1.Canonical := .modJob h
          split
          · exact .jobFail h1
          · split
            · exact .ite (.post h1) (.jobFail h1)
            · exact .joinInstance h1
            · exact .modJob h1
            · exact .post h1

theorem State.Canonical.farMember {ctx gi k op w1 n : Nat} {s : State} {x : Member × Nat} (h : s.Canonical) :
    (farMember ctx gi k op w1 n s x).Canonical := by
  unfold Machine.farMember
  extract_lets _ s1
  have h1 : s1.Canonical := h
  split
  · exact h1
  · exact .ite h1 (.ite (.modGroup h1) (.modGroup h1))

theorem NextCanonical.execCollectiveInstanceComplete {ctx grp k : Nat} {s : State} (h : s.Canonical) :
    NextCanonical (execCollectiveInstanceComplete ctx grp k s) := by
  unfold Machine.execCollectiveInstanceComplete
  refine .next ?_
  split
  · exact h
  · exact h
  · extract_lets +onlyGivenNames _ s1
    have h1 : s1.Canonical := .foldl h fun _ _ => .farMember
    split
    · exact h1
    · split
      · exact .foldl h1 fun _ _ h2 => .jobFail h2
      · extract_lets +onlyGivenNames sent
        clear_value sent
        split
        · exact .ite (.post h1) h1
        · split
          · exact h1
          · extract_lets s2
            have h2 : s2.Canonical := .modGroup h1
            split
            · refine .foldl h2 fun _ _ h3 => ?_
              split
              · exact .post (.jobWrite h3)
              · exact h3
            · exact .foldl h2 fun _ _ h3 => .jobFail h3

theorem State.Canonical.abortCollectives {s : State} {m die : Nat} (h : s.Canonical) :
    (abortCollectives s m die).Canonical := .foldl h fun _ _ h1 => .modGroup (.foldl h1 fun _ _ h2 => .jobFail h2)

theorem State.Canonical.targetDone {s : State} {j target : Nat} {err : Option (Nat × Nat)} (h : s.Canonical) :
    (targetDone s j target err).Canonical := by
  unfold Machine.targetDone
  extract_lets s1
  have h1 : s1.Canonical := .modJob h
  split
  · exact .ite (.post (.modJob h1)) h1
  · exact h1

theorem NextCanonical.execMulticastFill {i target : Nat} {s : State} (h : s.Canonical) :
    NextCanonical (execMulticastFill i target s) := by
  unfold Machine.execMulticastFill
  refine .next ?_
  split
  · exact h
  · split
    · exact h
    · split
      · exact h
      · split
        · exact .targetDone h
        · extract_lets _ _
          split
          · exact .targetDone h
          · split
            · split
              · exact .targetDone (.post (.modJob h))
              · split
                · exact .post (.jobMore h)
                · exact h
            · exact .ite (.post h) (.ite (.targetDone (.jobFail h)) (.post (.modJob h)))
            · exact .ite (.targetDone h) (.post h)

/-! ### Negative replies, and reads and writes of the serai (Machine/Reply.lean) -/

theorem State.Canonical.entryRefused {s : State} {r : Req} {b : Nat} (h : s.Canonical) :
    (entryRefused s r b).Canonical := .reqDone (.killBand h)

theorem State.Canonical.opRefused {s : State} {r : Req} {o : Op} {code : Nat} (h : s.Canonical) :
    (opRefused s r o code).Canonical := .reqDone (.remoteNeg (.modOp (.modStr h)))

theorem State.Canonical.hostRefused {s : State} {r : Req} {off : Nat} (h : s.Canonical) :
    (hostRefused s r off).Canonical := by
  unfold Machine.hostRefused
  extract_lets _ s1
  have h1 : s1.Canonical := by
    unfold s1
    split
    · exact .logErr h
    · exact h
  exact .dropReq h1

theorem NextCanonical.execNegativeReply {i : Nat} {code : BitVec 8} {s : State} (h : s.Canonical) :
    NextCanonical (execNegativeReply i code s) := by
  unfold Machine.execNegativeReply
  refine .next ?_
  split
  · exact h
  · split
    · exact .dropReq h
    · split
      · exact .again (.modReq h)
      · extract_lets +onlyGivenNames _ op s1
        clear_value op
        have h1 : s1.Canonical := by
          unfold s1
          split
          · exact .ite (.reqDone h) (.ite (.entryRefused (.modOp h)) (.opRefused h))
          · split
            · exact .entryRefused h
            · exact .jobFail (.dropReq h)
            · exact .hostRefused h
            · exact .dropReq (.logErr h)
            · exact .dropReq h
        exact .ite (.violation h1) h1

theorem State.Canonical.seraiSpan {s : State} {ctx va : Nat} (h : s.Canonical) :
    (seraiSpan s ctx va).1.Canonical := by
  unfold Machine.seraiSpan
  split
  · exact h
  · exact .walkSpan h

theorem State.Canonical.peekValue {s : State} {ctx line : Nat} (h : s.Canonical) :
    (peekValue s ctx line).1.Canonical := by
  unfold Machine.peekValue
  have h0 : (if (s.heldLine ctx line).isSome then (s, none) else s.lineCheck ctx line).1.Canonical := by
    split
    · exact h
    · exact .lineCheck h
  split
  · rename_i s1 _ heq
    have h1 : s1.Canonical := .of_eq heq h0
    exact .ite (.quarantine h1) h1
  · rename_i s1 heq
    exact .of_eq heq h0

/-- The state that a read leaves. -/
def Peek.kept : Peek → State
  | .bytes s _ | .again s | .fail s => s

theorem State.Canonical.of_peek {p q : Peek} (e : p = q) (h : p.kept.Canonical) : q.kept.Canonical := e ▸ h

theorem State.Canonical.peekHome {s : State} {ctx ha n : Nat} (h : s.Canonical) :
    (peekHome s ctx ha n).kept.Canonical := by
  unfold Machine.peekHome
  extract_lets +onlyGivenNames line
  split
  · exact h
  · split
    · exact h
    · split
      · split
        · exact h
        · split
          · split
            · rename_i s1 heq
              exact .of_eq heq (.peekValue h)
            · rename_i s1 _ heq
              exact .shadowRead (.of_eq heq (.peekValue h))
          · extract_lets k
            have h1 : k.Canonical := h
            split
            · exact .modPage h1
            · exact h1
      · extract_lets r
        have h1 : r.1.Canonical := .learnAlloc h
        split
        · rename_i s2 heq
          split at heq
          · cases heq
          · exact .giveIn h1 heq
        · exact h1

theorem State.Canonical.peekLine {s : State} {ctx va n : Nat} (h : s.Canonical) :
    (peekLine s ctx va n).kept.Canonical := by
  unfold Machine.peekLine
  split
  · rename_i s1 heq
    exact .of_eq heq (.seraiSpan h)
  · rename_i s1 _ heq
    have h1 : s1.Canonical := .of_eq heq (.seraiSpan h)
    split
    · exact h1
    · extract_lets ha
      split
      · exact h1
      · split
        · exact .peekHome h1
        · split <;> exact h1

theorem State.Canonical.peekFrom {fuel : Nat} {s : State} {ctx va n : Nat} {acc : List Byte} (h : s.Canonical) :
    (peekFrom fuel s ctx va n acc).kept.Canonical := by
  induction fuel generalizing s va n acc with
  | zero => exact h
  | succ fuel ih =>
    unfold Machine.peekFrom
    split
    · exact h
    · extract_lets k
      have h1 := State.Canonical.peekLine (ctx := ctx) (va := va) (n := k) h
      split
      · rename_i s1 _ heq
        exact ih (.of_peek heq h1)
      · exact h1

theorem State.Canonical.peekVa {s : State} {ctx va n : Nat} (h : s.Canonical) :
    (peekVa s ctx va n).kept.Canonical := .peekFrom h

theorem State.Canonical.seraiWrite {s : State} {q sq ctx va : Nat} {bs : List Byte} (h : s.Canonical) :
    (seraiWrite s q sq ctx va bs).Canonical := by
  unfold Machine.seraiWrite
  extract_lets _
  refine .foldl h fun _ _ h1 => ?_
  split
  · rename_i s2 heq
    have h2 : s2.Canonical := .of_eq heq (.seraiSpan h1)
    exact .logErr h2
  · rename_i s2 _ heq
    have h2 : s2.Canonical := .of_eq heq (.seraiSpan h1)
    exact .ite (.logErr h2) (.addReq h2)

theorem State.Canonical.endPacket {s : State} {q sq ctx va status count flags : Nat} (h : s.Canonical) :
    (endPacket s q sq ctx va status count flags).Canonical := .seraiWrite (.modQueue h)

theorem State.Canonical.dropPacket {s : State} {q sq : Nat} (h : s.Canonical) :
    (dropPacket s q sq).Canonical := .modQueue h

/-! ### Launches (Machine/Launch.lean) -/

theorem State.Canonical.seatStrs {s : State} {die core : Nat} {p : Profile} {b : Nat} (h : s.Canonical) :
    (seatStrs s die core p b).Canonical := .foldl h fun _ _ h1 => .modStr h1

theorem State.Canonical.startBand {s : State} {b core : Nat} (h : s.Canonical) :
    (startBand s b core).Canonical := by
  unfold Machine.startBand
  split
  · exact h
  · split
    · extract_lets _ s1 s2 _ s3 s4
      have h1 : s1.Canonical := h
      have h2 : s2.Canonical := .modBand h1 fun _ _ => rfl
      have h3 : s3.Canonical := .ite h2 (.modCore h2)
      have h4 : s4.Canonical := .seatStrs h3
      exact .ite (.post h4) (.recordBand h4)
    · exact h

theorem State.Canonical.makeBands {n : Nat} {s : State} {li : Nat} (h : s.Canonical) :
    (makeBands n s li).Canonical := by
  induction n generalizing s with
  | zero => exact h
  | succ n ih =>
    unfold Machine.makeBands
    split
    · exact h
    · split
      · exact h
      · exact ih (.modLaunch ⟨h.gran, h.host, h.pantry, List.forall_mem_append.2 ⟨h.bench, by simp [smWfFrom]⟩⟩)

theorem State.Canonical.makeFor {s : State} {die : Nat} (h : s.Canonical) :
    (makeFor s die).Canonical := by
  unfold Machine.makeFor
  refine .foldl h fun _ _ h1 => ?_
  split
  · exact h1
  · split
    · exact .makeBands h1
    · exact h1

theorem State.Canonical.askRoom {s : State} {bd : Band} (h : s.Canonical) :
    (askRoom s bd).Canonical := by
  unfold Machine.askRoom
  split
  · exact h
  · split
    · exact .post h
    · exact h

theorem State.Canonical.noRoom {s : State} {bd : Band} (h : s.Canonical) :
    (noRoom s bd).Canonical := by
  unfold Machine.noRoom
  extract_lets _
  split
  · exact .post (.modSite (.modBand (.modCore h)))
  · exact .askRoom h

theorem NextCanonical.execBandDispatch {die : Nat} {s : State} (h : s.Canonical) :
    NextCanonical (execBandDispatch die s) := by
  unfold Machine.execBandDispatch
  refine .next ?_
  split
  · exact h
  · extract_lets s1
    have h1 : s1.Canonical := .makeFor h
    split
    · exact h1
    · split
      · exact .ite (.post (.startBand (.modSite h1))) (.post h1)
      · exact .noRoom h1

theorem NextCanonical.execQueuedBandResident {die core : Nat} {s : State} (h : s.Canonical) :
    NextCanonical (execQueuedBandResident die core s) := by
  unfold Machine.execQueuedBandResident
  refine .next ?_
  split
  · exact h
  · split
    · exact h
    · split
      · exact .modCore h
      · exact .ite (.modCore h) (.ite (.post (.startBand (.modCore h))) (.post (.askRoom h)))

theorem NextCanonical.execStealRequest {die core : Nat} {s : State} (h : s.Canonical) :
    NextCanonical (execStealRequest die core s) := by
  unfold Machine.execStealRequest
  refine .next ?_
  split
  · exact h
  · extract_lets +onlyGivenNames _
    split
    · exact h
    · extract_lets +onlyGivenNames _ s1 _ _
      have h1 : s1.Canonical := .modCore h
      split
      · exact .post (.modCore h1)
      · exact .post (.modBand (.modCore (.modCore h1)))

theorem State.Canonical.copyBack {s : State} {w : Waybill} (h : s.Canonical) :
    (copyBack s w).Canonical := by
  unfold Machine.copyBack
  split
  · exact h
  · extract_lets s1
    have h1 : s1.Canonical := .dropWaybill h
    split
    · rename_i s2 heq
      have h2 : s2.Canonical := .storeRoom h1 heq
      exact h2
    · exact h

theorem State.Canonical.startLaunch {s : State} {l : Launch} {replay : Bool} {fl : Nat} (h : s.Canonical) :
    (startLaunch s l replay fl).Canonical := by
  unfold Machine.startLaunch
  extract_lets _ _ _ s1 s2
  have h1 : s1.Canonical := by
    unfold s1
    split
    · exact .copyBack h
    · exact h
  have h2 : s2.Canonical := h1
  exact .post h2

/-- The state that the checks of a replaying launch leave. -/
def checkKept : Except State (State × Bool) → State
  | .error s => s
  | .ok x => x.1

theorem State.Canonical.of_check {p q : Except State (State × Bool)} (e : p = q) (h : (checkKept p).Canonical) :
    (checkKept q).Canonical := e ▸ h

theorem State.Canonical.sealCheck {s : State} {l : Launch} {xs : List Seal} (h : s.Canonical) :
    (checkKept (sealCheck s l xs)).Canonical := by
  induction xs generalizing s with
  | nil => exact h
  | cons x xs ih =>
    unfold Machine.sealCheck
    extract_lets a
    split
    · rename_i s1 heq
      exact .of_peek heq (.peekVa h)
    · rename_i s1 heq
      exact .of_peek heq (.peekVa h)
    · rename_i s1 _ heq
      have h1 : s1.Canonical := .of_peek heq (.peekVa h)
      split
      · exact ih h1
      · exact h1

theorem State.Canonical.replayCheck {s : State} {l : Launch} {bl : Bale} (h : s.Canonical) :
    (checkKept (replayCheck s l bl)).Canonical := by
  unfold Machine.replayCheck
  split
  · split
    · exact .sealCheck h
    · exact h
  · exact h

theorem NextCanonical.execLaunchPacket {q sq : Nat} {s : State} (h : s.Canonical) :
    NextCanonical (execLaunchPacket q sq s) := by
  unfold Machine.execLaunchPacket
  refine .next ?_
  split
  · exact h
  · extract_lets _ _
    split
    · exact h
    · split
      · exact .post h
      · split
        · exact .dropPacket h
        · split
          · exact .endPacket h
          · split
            · exact .endPacket h
            · split
              · exact .endPacket h
              · split
                · exact .endPacket h
                · split
                  · rename_i s1 heq
                    have h1 : s1.Canonical := .of_peek heq (.peekVa h)
                    exact .post h1
                  · rename_i s1 heq
                    have h1 : s1.Canonical := .of_peek heq (.peekVa h)
                    exact .endPacket h1
                  · rename_i s1 _ heq
                    have h1 : s1.Canonical := .of_peek heq (.peekVa h)
                    extract_lets _ _
                    split
                    · split
                      · rename_i s2 heq
                        have h2 : s2.Canonical := .of_check heq (.replayCheck h1)
                        exact .post h2
                      · rename_i heq
                        exact .startLaunch (.of_check heq (.replayCheck h1))
                    · exact .startLaunch h1

theorem NextCanonical.execSignalPacket {q sq : Nat} {s : State} (h : s.Canonical) :
    NextCanonical (execSignalPacket q sq s) := by
  unfold Machine.execSignalPacket
  refine .next ?_
  split
  · exact h
  · exact .ite h (.ite (.post h) (.ite (.dropPacket h) (.ite (.endPacket h) (.post h))))

theorem NextCanonical.execSignalPacketComplete {q sq : Nat} {s : State} (h : s.Canonical) :
    NextCanonical (execSignalPacketComplete q sq s) := by
  unfold Machine.execSignalPacketComplete
  refine .next ?_
  split
  · exact h
  · exact .ite h (.ite (.post h) (.endPacket h))

theorem NextCanonical.execWaybillDropPacket {q sq : Nat} {s : State} (h : s.Canonical) :
    NextCanonical (execWaybillDropPacket q sq s) := by
  unfold Machine.execWaybillDropPacket
  refine .next ?_
  split
  · exact h
  · exact .ite h (.ite (.post h) (.ite (.dropPacket h) (.ite (.endPacket h) (.endPacket h))))

theorem State.Canonical.clearBand {s : State} {b : Nat} {f : Band → Band} (h : s.Canonical)
    (hf : ∀ x : Band, x.bench.wf = true → (f x).bench.wf = true := by exact fun _ hx => hx) :
    (clearBand s b f).Canonical := by
  unfold Machine.clearBand
  split
  · exact h
  · exact .post (.gbarCheck (.modBand h fun _ _ => hf _ rfl))

theorem State.Canonical.closeBand {s : State} {b : Nat} (h : s.Canonical) :
    (closeBand s b).Canonical := .clearBand h

theorem State.Canonical.relaunchBand {s : State} {b : Nat} {l : Launch} {f : Band → Band} (h : s.Canonical)
    (hf : ∀ x : Band, x.bench.wf = true → (f x).bench.wf = true := by exact fun _ hx => hx) :
    (relaunchBand s b l f).Canonical := .clearBand (.modLaunch h) fun _ hx => hf _ hx

theorem State.Canonical.failLaunch {s : State} {l : Launch} {code : Nat} (h : s.Canonical) :
    (failLaunch s l code).Canonical := .modLaunch h

theorem State.Canonical.settleReplay {s : State} {bd : Band} {l : Launch} (h : s.Canonical) :
    (settleReplay s bd l).Canonical := .ite (.relaunchBand h) (.closeBand (.failLaunch h))

theorem NextCanonical.execBandSettle {b : Nat} {s : State} (h : s.Canonical) :
    NextCanonical (execBandSettle b s) := by
  unfold Machine.execBandSettle
  refine .next ?_
  split
  · exact h
  · split
    · split
      · exact .post h
      · split
        · exact .closeBand h
        · exact .ite (.settleReplay h) (.ite (.relaunchBand h) (.closeBand (.failLaunch h)))
    · exact h

theorem State.Canonical.commitWaybill {s : State} {l : Launch} (h : s.Canonical) :
    (commitWaybill s l).Canonical := by
  unfold Machine.commitWaybill
  extract_lets +onlyGivenNames _
  split
  · exact h
  · extract_lets +onlyGivenNames old s1
    clear_value old
    have h1 : s1.Canonical := h
    split
    · rename_i s2 heq
      have h2 : s2.Canonical := .storeRoom h1 heq
      exact h2
    · split
      · exact h
      · exact h1

theorem NextCanonical.execLaunchComplete {i : Nat} {s : State} (h : s.Canonical) :
    NextCanonical (execLaunchComplete i s) := by
  unfold Machine.execLaunchComplete
  refine .next ?_
  split
  · exact h
  · split
    · split
      · exact ⟨h.gran, h.host, h.pantry, fun x hx => h.bench x (List.mem_filter.1 hx).1⟩
      · exact h
    · exact .ite h (.ite (.post h) (.post (.modLaunch (.endPacket (.commitWaybill h)))))

/-! ### Pre-emption, saving and restoring (Machine/Preempt.lean) -/

theorem State.Canonical.backToProof {s : State} {t : Str} (h : s.Canonical) :
    (backToProof s t).Canonical := .ite h (.modStr (.rollback h))

theorem State.Canonical.stopWaiting {s : State} {t : Str} (h : s.Canonical) :
    (stopWaiting s t).Canonical := .modStr (.backToProof h)

theorem State.Canonical.askStop {s : State} {t : Str} (h : s.Canonical) :
    (askStop s t).Canonical := .ite h (.ite (.stopWaiting h) (.post (.modStr h)))

theorem NextCanonical.execPreemptionRequest {b : Nat} {s : State} (h : s.Canonical) :
    NextCanonical (execPreemptionRequest b s) := by
  unfold Machine.execPreemptionRequest
  refine .next ?_
  split
  · exact h
  · split
    · exact .ite h (.post (.foldl (.modBand h) fun _ _ => .askStop))
    · exact h

theorem State.Canonical.forceStop {s : State} {b n : Nat} (h : s.Canonical) :
    (forceStop s b n).Canonical := .modStr (.rollback h)

theorem NextCanonical.execPreemptStopTimeout {b n : Nat} {s : State} (h : s.Canonical) :
    NextCanonical (execPreemptStopTimeout b n s) := by
  unfold Machine.execPreemptStopTimeout
  refine .next ?_
  split
  · exact h
  · exact .ite (.forceStop h) h

theorem NextCanonical.execPreemptDeferralExpiry {b n : Nat} {s : State} (h : s.Canonical) :
    NextCanonical (execPreemptDeferralExpiry b n s) := by
  unfold Machine.execPreemptDeferralExpiry
  refine .next ?_
  split
  · exact h
  · exact .ite h (.ite (.post (.modStr h)) (.ite (.forceStop h) h))

theorem State.Canonical.saveAs {s : State} {bd : Band} {ready : Bool} {wait : List Instr} (h : s.Canonical) :
    (saveAs s bd ready wait).Canonical :=
  .ite (.modBand (.saveBand (.makeRoom h))) (.ite (.modBand (.makeRoom h)) (.post (.makeRoom h)))

theorem NextCanonical.execBandSave {b : Nat} {s : State} (h : s.Canonical) :
    NextCanonical (execBandSave b s) := by
  unfold Machine.execBandSave
  refine .next ?_
  split
  · exact h
  · exact .ite h (.ite (.saveAs h) (.post h))

theorem NextCanonical.execXswapExpiry {b : Nat} {s : State} (h : s.Canonical) :
    NextCanonical (execXswapExpiry b s) := by
  unfold Machine.execXswapExpiry
  refine .next ?_
  split
  · exact h
  · exact .ite (.saveAs (.foldl h fun _ _ => .backToProof)) h

theorem State.Canonical.repark {core : Nat} {s : State} {t : Str} (h : s.Canonical) :
    (repark core s t).Canonical := by
  unfold Machine.repark
  split
  · split
    · exact .modCore h
    · exact .post (.modStr h)
  · exact h

theorem State.Canonical.deliverLate {s : State} {t : Str} (h : s.Canonical) :
    (deliverLate s t).Canonical := .foldl (.modStr h) fun _ _ h1 => .takeTrap h1

theorem NextCanonical.execBandRestore {b core : Nat} {macOk : Bool} {s : State} (h : s.Canonical) :
    NextCanonical (execBandRestore b core macOk s) := by
  unfold Machine.execBandRestore
  refine .next ?_
  split
  · exact h
  · split
    · exact h
    · split
      · exact .post h
      · extract_lets +onlyGivenNames s1
        have h1 : s1.Canonical := .modSite (.modBand h)
        refine .ite (.quarantine (.killBand h1)) (.ite (.killBand h1) ?_)
        exact .post (.foldl (.foldl (.seatStrs h1) fun _ _ => .repark) fun _ _ => .deliverLate)

theorem NextCanonical.execSegmentCopyDone {die core bale seg : Nat} {s : State} (h : s.Canonical) :
    NextCanonical (execSegmentCopyDone die core bale seg s) := by
  unfold Machine.execSegmentCopyDone
  refine .next ?_
  split
  · exact h
  · exact .modCore h

/-! ### Waybill replay (Machine/Replay.lean) -/

theorem State.Canonical.postNext {s : State} {b : Nat} (h : s.Canonical) :
    (postNext s b).Canonical := by
  unfold Machine.postNext
  split
  · exact h
  · split
    · exact .post h
    · exact h

theorem State.Canonical.recDone {s : State} {b : Nat} (h : s.Canonical) :
    (recDone s b).Canonical := .postNext (.modBand h)

theorem State.Canonical.replayFails {s : State} {b : Nat} (h : s.Canonical) :
    (replayFails s b).Canonical := .post (.modBand h)

theorem State.Canonical.replayOne {s : State} {ev : Instr} {go : State → Band → Nat → List Byte → State} (h : s.Canonical)
    (hgo : ∀ s1 bd k img, s1.Canonical → (go s1 bd k img).Canonical) :
    (replayOne s ev go).Canonical := by
  unfold Machine.replayOne
  split
  · exact .ite h (.post h)
  · extract_lets _ _ s1
    have h1 : s1.Canonical := h
    split <;> exact hgo _ _ _ _ h1

theorem NextCanonical.execReplayBandRecord {s : State} (h : s.Canonical) :
    NextCanonical (execReplayBandRecord s) :=
  .next (.replayOne h fun _ _ _ _ h1 => .recDone (.modBand h1 fun _ _ => rfl))

theorem NextCanonical.execReplayJobRecord {s : State} (h : s.Canonical) :
    NextCanonical (execReplayJobRecord s) := by
  unfold Machine.execReplayJobRecord
  refine .next ?_
  refine .replayOne h (fun _ _ _ _ h1 => ?_)
  extract_lets _
  split
  · exact .replayFails h1
  · exact .recDone (.submitJob h1)

theorem NextCanonical.execReplayMatrixRecord {s : State} (h : s.Canonical) :
    NextCanonical (execReplayMatrixRecord s) := by
  unfold Machine.execReplayMatrixRecord
  refine .next ?_
  refine .replayOne h (fun _ _ _ _ h1 => ?_)
  extract_lets _ _ _ _ _ s2
  have h2 : s2.Canonical := h1
  split
  · exact .recDone (.closeBatch h2)
  · split
    · exact .replayFails h1
    · exact .recDone (.submitMop h2)

/-- The masked bytes of a FILL record keep a memory's canonical form. -/
theorem maskedFill_wf {m : Memory} {off mask : Nat} {img : List Byte} (h : m.wf = true) :
    ((List.range 32).foldl (fun m i => if mask / 2 ^ i % 2 = 1 then memPut m (off + i) (img.getD (16 + i) 0#8) else m) m).wf = true := by
  refine List.foldlRecOn (motive := fun x => Memory.wf x = true) _ _ h fun x hx i _ => ?_
  split
  · exact smPut_wf _ x _ _ hx
  · exact hx

theorem NextCanonical.execReplayFillRecord {s : State} (h : s.Canonical) :
    NextCanonical (execReplayFillRecord s) :=
  .next (.replayOne h fun _ _ _ _ h1 => .recDone (.modBand h1 fun _ hx => maskedFill_wf hx))

theorem NextCanonical.execReplayWaitRecord {s : State} (h : s.Canonical) :
    NextCanonical (execReplayWaitRecord s) := .next (.replayOne h fun _ _ _ _ h1 => .recDone h1)

theorem NextCanonical.execReplayGbarRecord {s : State} (h : s.Canonical) :
    NextCanonical (execReplayGbarRecord s) :=
  .next (.replayOne h fun _ _ _ _ h1 => .ite (.post (.gbarArrive h1)) (.recDone h1))

theorem NextCanonical.execReplayFaultSettle {b : Nat} {s : State} (h : s.Canonical) :
    NextCanonical (execReplayFaultSettle b s) := by
  unfold Machine.execReplayFaultSettle
  refine .next ?_
  split
  · exact h
  · refine .ite h (.ite (.post h) ?_)
    split
    · exact .settleReplay h
    · exact .closeBand h

/-! ### Dies (Machine/Dies.lean) -/

theorem State.Canonical.endMgmt {s : State} {status count : Nat} (h : s.Canonical) :
    (endMgmt s status count).Canonical := by
  unfold Machine.endMgmt
  split
  · exact h
  · exact .endPacket h

theorem State.Canonical.bringUpFails {s : State} (h : s.Canonical) :
    (bringUpFails s).Canonical := h

theorem State.Canonical.givePoll {s : State} {q : Nat} (h : s.Canonical) :
    (givePoll s q).Canonical := by
  unfold Machine.givePoll
  split
  · exact h
  · extract_lets _ s1 _
    have h1 : s1.Canonical := h
    split
    · exact h1
    · split <;> exact h1

theorem State.Canonical.running {s : State} (h : s.Canonical) :
    (running s).Canonical := .modQueue (.givePoll h)

theorem State.Canonical.bringUp {s : State} (h : s.Canonical) :
    (bringUp s).Canonical := .ite (.ite h h) (.ite (.post (.ite h h)) (.ite (.bringUpFails (.ite h h)) (.ite h h)))

theorem State.Canonical.startOs {s : State} (h : s.Canonical) :
    (startOs s).Canonical := .ite (.running h) (.bringUpFails h)

theorem State.Canonical.startTraining {s : State} (h : s.Canonical) :
    (startTraining s).Canonical := by
  unfold Machine.startTraining
  exact ⟨h.gran, h.host, List.forall_mem_map.2 h.pantry, h.bench⟩

theorem State.Canonical.enterSite {s : State} {d : Nat} {t : CapTable} {st : Site} (h : s.Canonical) :
    (enterSite s d t st).Canonical := by
  unfold Machine.enterSite
  extract_lets s1 _ s2 _ s3 s4 s5
  have h1 : s1.Canonical := by
    unfold s1
    split
    · exact .ite h (.logErr h)
    · exact h
  have h2 : s2.Canonical := .ite (.logErr h1) h1
  have h3 : s3.Canonical := .modSite h2
  have h4 : s4.Canonical := h3
  have h5 : s5.Canonical := h4
  exact .bringUp (.post h5)

theorem NextCanonical.execCapabilityCheck {d : Nat} {t : CapTable} {s : State} (h : s.Canonical) :
    NextCanonical (execCapabilityCheck d t s) := by
  unfold Machine.execCapabilityCheck
  refine .next ?_
  split
  · exact h
  · split
    · exact h
    · split
      · exact .ite (.enterSite h) (.post h)
      · exact .bringUp (.modSite (.logErr h))

theorem NextCanonical.execEnumerationTimeout {d : Nat} {s : State} (h : s.Canonical) :
    NextCanonical (execEnumerationTimeout d s) := by
  unfold Machine.execEnumerationTimeout
  refine .next ?_
  split
  · exact h
  · exact .ite h (.bringUp (.modSite (.logErr h)))

theorem NextCanonical.execLinkTrained {d : Nat} {s : State} (h : s.Canonical) :
    NextCanonical (execLinkTrained d s) := by
  unfold Machine.execLinkTrained
  refine .next ?_
  split
  · exact h
  · exact .ite h (.bringUp (.modSite h))

theorem NextCanonical.execTrainingTimeout {d : Nat} {s : State} (h : s.Canonical) :
    NextCanonical (execTrainingTimeout d s) := by
  unfold Machine.execTrainingTimeout
  refine .next ?_
  split
  · exact h
  · exact .ite h (.ite (.modSite h) (.bringUp (.modSite h)))

theorem State.Canonical.modLink {s : State} {m : Nat} {f : Link → Link} (h : s.Canonical) :
    (s.modLink m f).Canonical := h

theorem State.Canonical.relayFor {s : State} {m : Nat} (h : s.Canonical) :
    (relayFor s m).1.Canonical := h

theorem State.Canonical.chooseRelay {s : State} {m : Nat} (h : s.Canonical) :
    (chooseRelay s m).Canonical := .modLink (.relayFor h)

theorem State.Canonical.reRelay {s : State} (h : s.Canonical) :
    (reRelay s).Canonical := .foldl h fun _ _ => .chooseRelay

theorem State.Canonical.linkDown {s : State} {m : Nat} (h : s.Canonical) :
    (linkDown s m).Canonical := .reRelay (.modLink h)

theorem State.Canonical.dropPorts {s : State} {d : Nat} (h : s.Canonical) :
    (dropPorts s d).Canonical := .foldl h fun _ _ => .linkDown

theorem State.Canonical.logForfeit {s : State} {ctx line d st : Nat} (h : s.Canonical) :
    (logForfeit s ctx line d st).Canonical := h

theorem State.Canonical.revertLine {log : State → Nat → State} {s : State} {d : Nat} {e : DirEnt}
    (hlog : ∀ s1 st, s1.Canonical → (log s1 st).Canonical) (h : s.Canonical) :
    (revertLine log s d e).Canonical := by
  unfold Machine.revertLine
  extract_lets _ s1 s2
  have h1 : s1.Canonical := .ite h (hlog _ _ h)
  have h2 : s2.Canonical := .foldl h1 fun _ _ h3 => .toPeer h3
  exact .dropDir ⟨h2.gran, h2.host, List.forall_mem_map.2 h2.pantry, h2.bench⟩

theorem State.Canonical.loseData {d : Nat} {s : State} {x : Txn} (h : s.Canonical) :
    (loseData d s x).Canonical := by
  unfold Machine.loseData
  split
  · exact .ite (.logForfeit h) h
  · exact h

theorem State.Canonical.loseSent {s : State} {r : Req} (h : s.Canonical) :
    (loseSent s r).Canonical := by
  unfold Machine.loseSent
  extract_lets _
  split
  · exact .post (.modReq h)
  · split
    · exact .modReq h
    · exact h

theorem State.Canonical.loseHolder {s : State} {holder : Nat} {log : DirEnt → State → Nat → State} (h : s.Canonical)
    (hlog : ∀ e s n, s.Canonical → (log e s n).Canonical) :
    (loseHolder s holder log).Canonical := by
  unfold Machine.loseHolder
  extract_lets s1 s2 s3 s4
  have h1 : s1.Canonical := .foldl h fun _ e h1 => .revertLine (hlog e) h1
  have h2 : s2.Canonical := h1
  have h3 : s3.Canonical := .ite (.modSite h2) h2
  have h4 : s4.Canonical := h3
  exact .foldl h4 fun _ _ h5 => .ackFrom h5

theorem State.Canonical.dropStrays {s : State} {d : Nat} (h : s.Canonical) :
    (dropStrays s d).Canonical := h

theorem State.Canonical.dropEngines {s : State} {b : Nat} (h : s.Canonical) :
    (dropEngines s b).Canonical := h

theorem State.Canonical.dropBandWork {s : State} {b : Nat} (h : s.Canonical) :
    (dropBandWork s b).Canonical := .dropEngines (b := b) h

theorem State.Canonical.loseBand {s : State} {bd : Band} (h : s.Canonical) :
    (loseBand s bd).Canonical := by
  unfold Machine.loseBand
  split
  · exact .ite (.post (.modBand (.dropBandWork h))) (.killBand (.dropBandWork h))
  · exact .killBand (.dropBandWork h)
  · exact .dropBandWork h
  · exact .modBand h
  · exact .dropEngines (b := bd.id) h
  · exact h

theorem State.Canonical.spoilWaybills {s : State} {d : Nat} (h : s.Canonical) :
    (spoilWaybills s d).Canonical := h

theorem State.Canonical.leaveAdmitted {s : State} {d : Nat} (h : s.Canonical) :
    (leaveAdmitted s d).Canonical := .dropPorts (.spoilWaybills (d := d) (.modSite h))

theorem State.Canonical.isolate {s : State} {d : Nat} (h : s.Canonical) :
    (isolate s d).Canonical := by
  unfold Machine.isolate
  extract_lets s1 s2 s3 s4 s5 s6 s7
  have h1 : s1.Canonical := .abortCollectives h
  have h2 : s2.Canonical := .foldl h1 fun _ _ => .loseBand
  have h3 : s3.Canonical := .foldl h2 fun _ _ => .loseData
  have h4 : s4.Canonical := .foldl h3 fun _ _ h => .logForfeit h
  have h5 : s5.Canonical := .foldl h4 fun _ _ => .loseSent
  have h6 : s6.Canonical := .loseHolder h5 fun _ _ _ h => .logForfeit h
  have h7 : s7.Canonical := .leaveAdmitted (.dropStrays h6)
  exact ⟨h7.gran, h7.host, h7.pantry, h7.bench⟩

theorem State.Canonical.hang {s : State} {d : Nat} (h : s.Canonical) :
    (hang s d).Canonical := .ite (.isolate h) h

theorem NextCanonical.execHeartbeat {s : State} (h : s.Canonical) :
    NextCanonical (execHeartbeat s) := by
  unfold Machine.execHeartbeat
  refine .next ⟨h.gran, h.host, List.forall_mem_map.2 fun x hx => ?_, h.bench⟩
  split <;> exact h.pantry x hx

theorem NextCanonical.execHeartbeatMiss {d : Nat} {s : State} (h : s.Canonical) :
    NextCanonical (execHeartbeatMiss d s) := by
  unfold Machine.execHeartbeatMiss
  refine .next ?_
  split
  · exact h
  · exact .ite h (.ite (.modSite h) (.hang h))

theorem State.Canonical.openWindow {s : State} {d : Nat} {f : Site → Site} (h : s.Canonical)
    (hf : ∀ x : Site, x.pantry.wf = true → (f x).pantry.wf = true := by exact fun _ hx => hx) :
    (s.openWindow d f).Canonical := .post (.modSite h hf)

theorem NextCanonical.execLinkStepInterval {d util : Nat} {s : State} (h : s.Canonical) :
    NextCanonical (execLinkStepInterval d util s) := by
  unfold Machine.execLinkStepInterval
  refine .next ?_
  split
  · exact h
  · split
    · exact h
    · extract_lets _ _ _
      split
      · exact .openWindow h
      · exact h

theorem NextCanonical.execRetrainDone {d : Nat} {ok : Bool} {s : State} (h : s.Canonical) :
    NextCanonical (execRetrainDone d ok s) := by
  unfold Machine.execRetrainDone
  refine .next ?_
  split
  · exact h
  · split
    · exact h
    · exact .ite (.modSite h) (.ite (.openWindow h) (.ite (.openWindow h) (.hang h)))

theorem State.Canonical.drainLines {s : State} {d : Nat} (h : s.Canonical) :
    (drainLines s d).Canonical := by
  unfold Machine.drainLines
  split
  · exact h
  · exact .post (.modSite h)

theorem NextCanonical.execDieQuiesceDone {s : State} (h : s.Canonical) :
    NextCanonical (execDieQuiesceDone s) := by
  unfold Machine.execDieQuiesceDone
  refine .next ?_
  extract_lets +onlyGivenNames _
  split
  · refine .ite (.endMgmt h) (.ite h ?_)
    split
    · refine .post ?_
      split
      · exact .ite h (.post h)
      · exact .ite (.saveBand (.makeRoom h)) (.makeRoom h)
      · exact h
    · exact .ite (.post (.drainLines h)) (.ite (.post h) (.endMgmt (.leaveAdmitted h)))
  · exact h

theorem NextCanonical.execResettingComplete {s : State} (h : s.Canonical) :
    NextCanonical (execResettingComplete s) := by
  unfold Machine.execResettingComplete
  refine .next ?_
  extract_lets _
  split
  · exact .ite h (.endMgmt (.modSite h fun _ _ => rfl))
  · exact h

theorem NextCanonical.execDieQuiesce {s : State} (h : s.Canonical) :
    NextCanonical (execDieQuiesce s) := by
  unfold Machine.execDieQuiesce
  refine .next ?_
  split
  · split
    · exact .endMgmt h
    · extract_lets s1 s2
      have h1 : s1.Canonical := .abortCollectives (.spoilWaybills (.modSite h))
      have h2 : s2.Canonical := by
        refine ⟨h1.gran, h1.host, h1.pantry, List.forall_mem_map.2 fun x hx => ?_⟩
        split <;> exact h1.bench x hx
      exact .post h2
  · exact h

theorem NextCanonical.execDieReset {s : State} (h : s.Canonical) :
    NextCanonical (execDieReset s) := by
  unfold Machine.execDieReset
  refine .next ?_
  split
  · split
    · exact .post (.modSite h)
    · exact .post (.modSite (.isolate h))
    · exact .post (.modSite (.isolate h))
    · exact .endMgmt (.modSite h)
    · exact .endMgmt h
  · exact h

/-! ### Management records (Machine/Mgmt.lean) -/

theorem NextCanonical.cmd {s : State} {code : Nat} {ev : Instr} {go : MgmtRec → Nat → State} (h : s.Canonical)
    (hgo : ∀ r phase, (go r phase).Canonical) :
    NextCanonical (s.cmd code ev go) := by
  unfold State.cmd
  refine .next ?_
  split
  · exact h
  · exact .ite h (.ite (.ite (.post h) (.endMgmt h)) (hgo _ _))

theorem State.Canonical.writeOut {s : State} {r : MgmtRec} {code count : Nat} {ev : Instr} {va : Nat} {bs : List Byte}
    (h : s.Canonical) :
    (writeOut s r code count ev va bs).Canonical := .post (.seraiWrite h)

theorem State.Canonical.toPhase {s : State} {r : MgmtRec} {code phase : Nat} {ev : Instr} (h : s.Canonical) :
    (toPhase s r code phase ev).Canonical := .post h

theorem NextCanonical.execCtxCreate {s : State} (h : s.Canonical) :
    NextCanonical (execCtxCreate s) := by
  unfold Machine.execCtxCreate
  refine .cmd h (fun _ _ => ?_)
  split
  · exact .endMgmt h
  · extract_lets _
    split
    · rename_i s1 heq
      have h1 : s1.Canonical := .of_peek heq (.peekVa h)
      exact .post h1
    · rename_i s1 heq
      have h1 : s1.Canonical := .of_peek heq (.peekVa h)
      exact .endMgmt h1
    · rename_i s1 _ heq
      have h1 : s1.Canonical := .of_peek heq (.peekVa h)
      exact .writeOut h1

theorem State.Canonical.endPackets {s : State} {c : Nat} (h : s.Canonical) :
    (endPackets s c).Canonical := .foldl h fun _ _ h1 => .foldl h1 fun _ _ h2 => .ite (.endPacket h2) (.dropPacket h2)

theorem State.Canonical.takePkt {s : State} {q : Queue} {bs : List Byte} (h : s.Canonical) :
    (takePkt s q bs).Canonical := .modQueue h

theorem State.Canonical.losePkt {s : State} {q : Queue} (h : s.Canonical) :
    (losePkt s q).Canonical := .modQueue h

theorem State.Canonical.freezeCtx {s : State} {c : Nat} (h : s.Canonical) :
    (freezeCtx s c).Canonical := by
  unfold Machine.freezeCtx
  extract_lets s1 s2
  have h1 : s1.Canonical := .modCtx h
  have h2 : s2.Canonical := by
    unfold s2
    refine .foldl h1 fun _ _ h3 => ?_
    split
    · exact .killBand h3
    · exact .killBand h3
    · exact .killBand h3
    · exact h3
    · exact h3
    · exact .closeBand h3
  exact .endLaunches h2

theorem State.Canonical.dropRemoteWaiters {s : State} {t : TSlot} (h : s.Canonical) :
    (dropRemoteWaiters s t).Canonical := by
  unfold Machine.dropRemoteWaiters
  extract_lets _ s1 _
  have h1 : s1.Canonical := .foldl h fun _ _ h => .refuse h
  exact .ite (.endTicket h1) (.setTicket (.tellModules h1))

theorem State.Canonical.revokeAll {s : State} {c : Nat} (h : s.Canonical) :
    (revokeAll s c).Canonical := h

theorem State.Canonical.eraseCtx {s : State} {c : Nat} (h : s.Canonical) :
    (eraseCtx s c).Canonical := by
  unfold Machine.eraseCtx
  extract_lets _ s1 s2 s3 s4
  have h1 : s1.Canonical := .foldl h fun _ _ => .dropRemoteWaiters
  have h2 : s2.Canonical := .foldl h1 fun _ _ h3 => .endTicket h3
  have h3 : s3.Canonical := by
    unfold s3
    refine .foldl h2 fun _ _ h4 => ?_
    split
    · exact ⟨h4.gran, zeroRange_wf h4.host, h4.pantry, h4.bench⟩
    · exact .foldl h4 fun _ _ h5 => .zeroFrame h5
  have h4 : s4.Canonical := .invalSpans h3
  exact ⟨h4.gran, h4.host, h4.pantry, fun x hx => h4.bench x (List.mem_filter.1 hx).1⟩

theorem NextCanonical.execCtxDestroy {s : State} (h : s.Canonical) :
    NextCanonical (execCtxDestroy s) := by
  unfold Machine.execCtxDestroy
  refine .cmd h (fun _ _ => ?_)
  extract_lets _
  split
  · exact .ite (.endMgmt h) (.toPhase (.freezeCtx h))
  · split
    · split
      · split
        · rename_i s1 heq
          have h1 : s1.Canonical := .of_peek heq (.peekVa h)
          exact .post h1
        · rename_i s1 heq
          have h1 : s1.Canonical := .of_peek heq (.peekVa h)
          exact .post (.losePkt h1)
        · rename_i s1 _ heq
          have h1 : s1.Canonical := .of_peek heq (.peekVa h)
          exact .post (.takePkt h1)
      · exact .ite (.toPhase (.revokeAll (.endPackets h))) (.post (.endPackets h))
    · exact .ite (.endMgmt (.eraseCtx h)) (.post (.foldl h fun _ _ h1 => .recall h1))

theorem NextCanonical.execSpanInv {s : State} (h : s.Canonical) :
    NextCanonical (execSpanInv s) := .cmd h fun _ _ => .ite (.endMgmt h) (.endMgmt (.invalSpans h))

theorem State.Canonical.inAlloc {s : State} {ctx page : Nat} {m : BitVec 8} {s' : State} (h : s.Canonical)
    (e : s.inAlloc ctx page m = some s') :
    s'.Canonical := by
  unfold State.inAlloc at e
  split at e
  · split at e
    · obtain rfl := Option.some.inj e
      exact h
    · cases e
  · obtain rfl := Option.some.inj e
    exact h

theorem State.Canonical.balePages {n : Nat} {s : State} {ctx page : Nat} {s' : State} (h : s.Canonical)
    (e : balePages n s ctx page = some s') :
    s'.Canonical := by
  induction n generalizing s page with
  | zero =>
    obtain rfl := Option.some.inj e
    exact h
  | succ n ih =>
    obtain ⟨s1, h1, e1⟩ := Option.bind_eq_some_iff.1 e
    refine ih ?_ e1
    split at h1
    · exact .giveIn h h1
    · obtain ⟨s2, h2, e2⟩ := Option.bind_eq_some_iff.1 h1
      exact .givePage (.inAlloc (by exact h) h2) e2

theorem State.Canonical.writeCode {s : State} {ctx base : Nat} {keys : List Byte} {gs : List ObjSeg} (h : s.Canonical) :
    (writeCode s ctx base keys gs).Canonical :=
  .foldl (.foldl h fun _ _ h1 => .writeHome h1) fun _ _ h1 => .foldl h1 fun _ _ h2 => .writeHome h2

theorem State.Canonical.placeBale {s : State} {ctx : Nat} {hdr : BaleHdr} {gs : List ObjSeg} {s' : State} (h : s.Canonical)
    (e : placeBale s ctx hdr gs = some s') :
    s'.Canonical := by
  obtain ⟨s1, h1, rfl⟩ := Option.map_eq_some_iff.1 e
  exact State.Canonical.writeCode (.balePages (by exact h) h1)

theorem State.Canonical.placeBales {s : State} {ctx : Nat} {gs : BaleHdr → List ObjSeg} {hs : List BaleHdr} {s' : State}
    (h : s.Canonical)
    (e : hs.foldl (fun (o : Option State) x => o.bind (fun s => Machine.placeBale s ctx x (gs x))) (some s) = some s') :
    s'.Canonical := by
  refine List.foldlRecOn (motive := fun o => ∀ s1, o = some s1 → s1.Canonical) hs _ (fun s1 h1 => ?_) (fun o ho x _ s1 h1 => ?_) s' e
  · obtain rfl := Option.some.inj h1
    exact h
  · obtain ⟨s2, h2, e2⟩ := Option.bind_eq_some_iff.1 h1
    exact .placeBale (ho s2 h2) e2

theorem NextCanonical.execLoadObj {s : State} (h : s.Canonical) :
    NextCanonical (execLoadObj s) := by
  unfold Machine.execLoadObj
  refine .cmd h (fun _ _ => ?_)
  split
  · exact .endMgmt h
  · split
    · rename_i s1 heq
      have h1 : s1.Canonical := .of_peek heq (.peekVa h)
      exact .post h1
    · rename_i s1 heq
      have h1 : s1.Canonical := .of_peek heq (.peekVa h)
      exact .endMgmt h1
    · rename_i s1 _ heq
      have h1 : s1.Canonical := .of_peek heq (.peekVa h)
      extract_lets _ _ s2
      have h2 : s2.Canonical := .modCtx h1
      split
      · exact .endMgmt h2
      · split
        · rename_i s3 heq
          have h3 : s3.Canonical := .placeBales h2 heq
          exact .endMgmt h3
        · exact .endMgmt h2

theorem NextCanonical.execPreemptCmd {s : State} (h : s.Canonical) :
    NextCanonical (execPreemptCmd s) := by
  unfold Machine.execPreemptCmd
  refine .cmd h (fun _ _ => ?_)
  extract_lets band
  clear_value band
  split
  · exact .endMgmt (.post h)
  · exact .endMgmt h

theorem NextCanonical.execPageMap {s : State} (h : s.Canonical) :
    NextCanonical (execPageMap s) := by
  unfold Machine.execPageMap
  refine .cmd h (fun _ _ => ?_)
  split
  · exact .endMgmt h
  · split
    · exact .endMgmt h
    · rename_i s1 heq
      have h1 : s1.Canonical := .inAlloc h heq
      split
      · extract_lets _
        exact .endMgmt ⟨h1.gran, zeroRange_wf h1.host, h1.pantry, h1.bench⟩
      · split
        · rename_i s2 heq
          have h2 : s2.Canonical := .givePage h1 heq
          exact .endMgmt h2
        · exact .endMgmt h1

theorem State.Canonical.startMove {s : State} {r : MgmtRec} {dst : Nat × BitVec 8 × Bool × Nat} (h : s.Canonical) :
    (startMove s r dst).Canonical := .post (.modPage h)

theorem NextCanonical.execPageMove {s : State} (h : s.Canonical) :
    NextCanonical (execPageMove s) := by
  unfold Machine.execPageMove
  refine .cmd h (fun _ _ => ?_)
  split
  · exact .endMgmt h
  · extract_lets _
    split
    · exact .endMgmt h
    · split
      · exact .endMgmt h
      · rename_i s1 heq
        have h1 : s1.Canonical := .inAlloc h heq
        split
        · exact .startMove h1
        · split
          · exact .startMove h1
          · exact .endMgmt h1

theorem NextCanonical.execPageRestoreReplicas {s : State} (h : s.Canonical) :
    NextCanonical (execPageRestoreReplicas s) := by
  unfold Machine.execPageRestoreReplicas
  refine .cmd h (fun _ _ => ?_)
  split
  · exact .endMgmt h
  · split
    · exact .endMgmt h
    · extract_lets _
      split
      · exact .endMgmt h
      · rename_i s1 heq
        have h1 : s1.Canonical := .inAlloc h heq
        exact .startMove h1

theorem State.Canonical.pinPage {s : State} {r : MgmtRec} {on : Bool} (h : s.Canonical) :
    (pinPage s r on).Canonical := by
  unfold Machine.pinPage
  split
  · exact .endMgmt h
  · exact .endMgmt (.modPage h)

theorem State.Canonical.copyPage {s : State} {src dst : Loc} (h : s.Canonical) :
    (copyPage s src dst).Canonical := by
  unfold Machine.copyPage
  extract_lets _ s1 s2
  have h1 : s1.Canonical := by
    unfold s1
    split
    · exact ⟨zeroRange_wf h.gran, h.host, h.pantry, h.bench⟩
    · exact ⟨h.gran, zeroRange_wf h.host, h.pantry, h.bench⟩
  have h2 : s2.Canonical := .writeLoc h1
  clear_value s2
  split <;> exact ⟨h2.gran, h2.host, h2.pantry, h2.bench⟩

theorem NextCanonical.execPageMoveComplete {s : State} (h : s.Canonical) :
    NextCanonical (execPageMoveComplete s) := by
  unfold Machine.execPageMoveComplete
  refine .next ?_
  split
  · split
    · exact h
    · split
      · exact h
      · split
        · exact .post (.foldl h fun _ _ h1 => .recall h1)
        · exact .endMgmt (.endPageTickets (.modPage (.foldl h fun _ _ h1 => .ite h1 (.copyPage h1))))
  · exact h

theorem NextCanonical.execExtentGrant {s : State} (h : s.Canonical) :
    NextCanonical (execExtentGrant s) := .cmd h fun _ _ => .ite (.endMgmt h) (.endMgmt h)

theorem NextCanonical.execExtentRevoke {s : State} (h : s.Canonical) :
    NextCanonical (execExtentRevoke s) := by
  unfold Machine.execExtentRevoke
  refine .cmd h (fun _ _ => ?_)
  split
  · exact .endMgmt h
  · split
    · exact .ite (.endMgmt h) (.toPhase h)
    · exact .ite (.endMgmt (.foldl h fun _ _ => .dropRemoteWaiters)) (.post (.foldl h fun _ _ h1 => .recall h1))

theorem NextCanonical.execColSetup {s : State} (h : s.Canonical) :
    NextCanonical (execColSetup s) := .cmd h fun _ _ => .ite (.endMgmt h) (.endMgmt h)

theorem NextCanonical.execColDestroy {s : State} (h : s.Canonical) :
    NextCanonical (execColDestroy s) :=
  .cmd h fun _ _ => .ite (.endMgmt h) (.endMgmt (.foldl h fun _ _ h1 => .jobFail h1))

theorem NextCanonical.execLogRead {s : State} (h : s.Canonical) :
    NextCanonical (execLogRead s) := by
  unfold Machine.execLogRead
  refine .cmd h (fun _ _ => ?_)
  extract_lets _ _
  split
  · exact .writeOut h
  · split
    · exact .writeOut h
    · split
      · exact .endMgmt h
      · exact .writeOut h

theorem NextCanonical.execQuote {s : State} (h : s.Canonical) :
    NextCanonical (execQuote s) := by
  unfold Machine.execQuote
  refine .cmd h (fun _ _ => ?_)
  split
  · exact .endMgmt h
  · exact .writeOut h

theorem NextCanonical.execExportCmd {s : State} (h : s.Canonical) :
    NextCanonical (execExportCmd s) := by
  unfold Machine.execExportCmd
  refine .cmd h (fun _ _ => ?_)
  split
  · rename_i s1 _ _ heq
    have h1 : s1.Canonical := .of_eq heq (.seraiSpan h)
    exact .ite (.endMgmt h1) (.writeOut h1)
  · rename_i s1 heq
    have h1 : s1.Canonical := .of_eq heq (.seraiSpan h)
    exact .endMgmt h1
  · exact .endMgmt h

theorem NextCanonical.execQueueCfg {s : State} (h : s.Canonical) :
    NextCanonical (execQueueCfg s) := .cmd h fun _ _ => .endMgmt (.modQueue (.ite (.givePoll h) h))

theorem NextCanonical.execApertureMap {s : State} (h : s.Canonical) :
    NextCanonical (execApertureMap s) := .cmd h fun _ _ => .ite (.endMgmt h) (.endMgmt h)

theorem State.Canonical.setMode {s : State} {m : Nat} (h : s.Canonical) :
    (setMode s m).Canonical := .ite (.endMgmt h) (.endMgmt h)

/-! ### The host and the queues (Machine/HostIf.lean) -/

theorem State.Canonical.resetKeeping {s : State} (h : s.Canonical) :
    (resetKeeping s).Canonical :=
  ⟨rfl, h.host,
    (by decide : ∀ x ∈ State.reset.sites, x.pantry.wf = true), (by decide : ∀ x ∈ State.reset.bands, x.bench.wf = true)⟩

theorem NextCanonical.execModuleReset {s : State} (h : s.Canonical) :
    NextCanonical (execModuleReset s) := by
  unfold Machine.execModuleReset
  extract_lets k
  have h1 : k.Canonical := .resetKeeping h
  refine .next ?_
  split
  · exact .post h1
  · exact .bringUpFails h1

theorem NextCanonical.execWidxWrite {q : Nat} {v : BitVec 32} {s : State} (h : s.Canonical) :
    NextCanonical (execWidxWrite q v s) := .next (.ite h (.setWidx h))

theorem State.Canonical.sweepPackets {s : State} {q : Nat} (h : s.Canonical) :
    (sweepPackets s q).Canonical := .modQueue h

theorem State.Canonical.startMgmt {s : State} {q : Queue} {bs : List Byte} (h : s.Canonical) :
    (startMgmt s q bs).Canonical := .ite (.endMgmt (.takePkt h)) (.post (.takePkt h))

theorem NextCanonical.execPollingSlot {core q : Nat} {s : State} (h : s.Canonical) :
    NextCanonical (execPollingSlot core q s) := by
  unfold Machine.execPollingSlot
  refine .next ?_
  split
  · exact h
  · split
    · exact .startTraining h
    · split
      · exact .startOs h
      · extract_lets +onlyGivenNames _ s1
        have h1 : s1.Canonical := h
        split
        · exact h1
        · extract_lets +onlyGivenNames s2
          have h2 : s2.Canonical := .sweepPackets h1
          split
          · exact h2
          · split
            · exact h2
            · split
              · exact .modQueue h2
              · split
                · split
                  · exact h2
                  · split
                    · rename_i s3 heq
                      have h3 : s3.Canonical := .of_peek heq (.peekVa h2)
                      exact .post h3
                    · rename_i s3 heq
                      have h3 : s3.Canonical := .of_peek heq (.peekVa h2)
                      exact .losePkt h3
                    · rename_i s3 _ heq
                      have h3 : s3.Canonical := .of_peek heq (.peekVa h2)
                      exact .startMgmt h3
                · split
                  · exact h2
                  · split
                    · rename_i s3 heq
                      have h3 : s3.Canonical := .of_peek heq (.peekVa h2)
                      exact .post h3
                    · rename_i s3 heq
                      have h3 : s3.Canonical := .of_peek heq (.peekVa h2)
                      exact .losePkt h3
                    · rename_i s3 _ heq
                      have h3 : s3.Canonical := .of_peek heq (.peekVa h2)
                      exact .post (.takePkt h3)

theorem State.Canonical.reply {s : State} {off : Nat} {r : HostReply} (h : s.Canonical) :
    (s.reply off r).Canonical := h

theorem State.Canonical.hostUnsupported {s : State} {off : Nat} {acc : HostAcc} (h : s.Canonical) :
    (hostUnsupported s off acc).Canonical := .ite h (.reply h)

theorem State.Canonical.hostAborted {s : State} {off ctx va : Nat} {acc : HostAcc} (h : s.Canonical) :
    (hostAborted s off ctx va acc).Canonical := .ite (.logErr h) (.reply h)

theorem State.Canonical.hostSend {s : State} {off ctx va : Nat} {e : Word64} {acc : HostAcc} (h : s.Canonical) :
    (hostSend s off ctx va e acc).Canonical := by
  unfold Machine.hostSend
  extract_lets _ _ _
  split
  · exact .foldl h fun _ _ h1 => .addReq h1
  · exact .foldl h fun _ _ h1 => .addReq h1
  · exact .addReq h
  · exact .addReq h
  · exact .addReq h

theorem NextCanonical.execHostApertureAccess {off : Nat} {acc : HostAcc} {s : State} (h : s.Canonical) :
    NextCanonical (execHostApertureAccess off acc s) := by
  unfold Machine.execHostApertureAccess
  refine .next ?_
  extract_lets _ _ _
  split
  · exact .hostUnsupported h
  · split
    · rename_i s1 heq
      have h1 : s1.Canonical := .of_eq heq (.seraiSpan h)
      exact .hostAborted h1
    · rename_i s1 _ heq
      have h1 : s1.Canonical := .of_eq heq (.seraiSpan h)
      exact .ite (.hostAborted h1) (.hostSend h1)

theorem NextCanonical.execEnvironmentalAlarm {kind : AlarmKind} {onStack : Bool} {site : Nat} {s : State} (h : s.Canonical) :
    NextCanonical (execEnvironmentalAlarm kind onStack site s) :=
  .next (.foldl (.ite (.modSite h) h) fun _ _ => .quarantine)

/-! ### The fabric (Machine/Fabric.lean) -/

theorem NextCanonical.execFabricRetrainFail {m : Nat} {s : State} (h : s.Canonical) :
    NextCanonical (execFabricRetrainFail m s) := by
  unfold Machine.execFabricRetrainFail
  refine .next ?_
  split
  · exact h
  · exact .ite h (.ite (.modLink h) (.linkDown h))

theorem NextCanonical.execFabricLinkRetry {m : Nat} {ok : Bool} {s : State} (h : s.Canonical) :
    NextCanonical (execFabricLinkRetry m ok s) := by
  unfold Machine.execFabricLinkRetry
  refine .next ?_
  split
  · exact h
  · exact .ite h (.ite (.reRelay (.modLink h)) (.reRelay h))

theorem State.Canonical.beatBack {s : State} {m : Nat} (h : s.Canonical) :
    (beatBack s m).Canonical := .modLink h

theorem State.Canonical.beatMissed {s : State} {m : Nat} (h : s.Canonical) :
    (beatMissed s m).Canonical := .ite (.post (.modLink h)) (.modLink h)

theorem State.Canonical.windowOver {s : State} {m : Nat} (h : s.Canonical) :
    (windowOver s m).Canonical := .modLink h

theorem State.Canonical.beat {s : State} {m : Nat} {answered : Bool} (h : s.Canonical) :
    (beat s m answered).Canonical := .ite (.beatBack h) (.beatMissed h)

theorem NextCanonical.execPeerHeartbeat {m : Nat} {answered : Bool} {s : State} (h : s.Canonical) :
    NextCanonical (execPeerHeartbeat m answered s) := by
  unfold Machine.execPeerHeartbeat
  refine .next ?_
  split
  · exact h
  · split
    · exact h
    · split
      · exact .beat h
      · split
        · exact .beat (.windowOver h)
        · exact .ite (.beat (.modLink (.relayFor h))) (.ite (.beatBack (.windowOver (.modLink (.relayFor h)))) (.modLink (.relayFor h)))

theorem State.Canonical.logExtent {m : Nat} {e : DirEnt} {s : State} {st : Nat} (h : s.Canonical) :
    (logExtent m e s st).Canonical := by
  unfold Machine.logExtent
  split <;> exact h

theorem NextCanonical.execPeerDead {m : Nat} {s : State} (h : s.Canonical) :
    NextCanonical (execPeerDead m s) := by
  unfold Machine.execPeerDead
  refine .next ?_
  split
  · exact h
  · extract_lets s1 _ s2 s3 s4 s5 s6 s7
    have h1 : s1.Canonical := .reRelay (.modLink h)
    have h2 : s2.Canonical := h1
    have h3 : s3.Canonical := .post h2
    have h4 : s4.Canonical := .post h3
    have h5 : s5.Canonical := by
      unfold s5
      exact .foldl h4 fun _ _ h => .abortCollectives h
    clear_value s5
    have h6 : s6.Canonical := h5
    have h7 : s7.Canonical := .loseHolder h6 fun _ _ _ h => .logExtent h
    exact ⟨h7.gran, h7.host, h7.pantry, h7.bench⟩

/-! ### Scalar instructions (Machine/Scalar.lean) -/

theorem NextCanonical.scalar2 {s : State} {d a b : SReg} {f : Word64 → Word64 → Word64} (h : s.Canonical) :
    NextCanonical (s.scalar2 d a b f) := .scalarOp h

theorem NextCanonical.scalar1 {s : State} {d a : SReg} {f : Word64 → Word64} (h : s.Canonical) :
    NextCanonical (s.scalar1 d a f) := .scalarOp h

/-! ### The dispatch (Machine/Dispatch.lean) -/

/-- Every slot instruction and every event, arm by arm of the dispatch. -/
theorem NextCanonical.exec {i : Instr} {s : State} (h : s.Canonical) : NextCanonical (exec i s) := by
  unfold Machine.exec
  cases i with
  | iadd | isub | mov | iaddi | movk | movh | shfl | bcs => exact .laneInt h
  | imul | imulhI | imulhN | iminI | imaxI | iminN | imaxN | iand | ior | ixor | ishl | ishr | isra | irot | bfe | iaddsI
  | isubsI | iaddsN | isubsN | fcopysign =>
    exact .lane2 h
  | iabs | ineg | popc | clz | ctz | brev | iandi | iori | ixori | ishli | ishri | israi | imuli | fabs | fneg => exact .lane1 h
  | bfi | imad | dp4I8 | dp4N8 | dp8I4 => exact .lane3 h
  | movkS | movhS | sadd | ssub | rdl | saddi | sshri => exact .scalarOp h
  | ceq | cne | cltI | cleI | cltN | cleN | fceq | fcne | fclt | fcle | fcun => exact .laneCmp h
  | pand | por | pxor | pnot | pmov => exact .lanePred h
  | fadd | fsub | fmul | fmin | fmax | hadd2 | hsub2 | hmul2 | hmin2 | hmax2 | hcvt2 | fscl => exact .fp2 h
  | ffma | hfma2 | dp4E4m3 | dp4E5m2 | dp8E2m1 => exact .fp3 h
  | fdiv | fsqrt => exact .laneLong h
  | ffloor | fceil | ftrunc | fround => exact .fp1 h
  | cvt => exact .execCvt h
  | cvtSat => exact .execCvtSat h
  | cvtEf => exact .narrow h
  | cvtPack => exact .execCvtPack h
  | shup | shdn | shx | bcast => exact .shuffle h
  | ballot | mpfx | wrl => exact .onHead fun _ _ => .writeLanes h
  | vany | vall => exact .onHead fun _ _ => .writePreds h
  | redaddI | redmaxI | redaddF | redmaxF => exact .reduce h
  | smul | sand | sor | sxor | sshl | sshr | ssra | smin | smax => exact .scalar2 h
  | spopc | sclz | sandi | sori | sshli => exact .scalar1 h
  | bra => exact .execBra h
  | call => exact .onHead fun _ _ => .moveTo (.writeScalar h)
  | ret | brx => exact .goReg h
  | jtab => exact .execJtab h
  | exit => exact .execExit h
  | loop => exact .execLoop h
  | lquit => exact .execLquit h
  | trap => exact .onHead fun _ _ => .raise h
  | rdx => exact .execRdx h
  | wrx => exact .execWrx h
  | spinv => exact .execSpinv h
  | flush | inv => exact .cacheOp h
  | hsamp => exact .execHsamp h
  | xmask => exact .onHead fun _ _ => .modHead (.writeScalar h)
  | ldG | ldP | ldB => exact .loadOp h
  | stG | stP | stB => exact .storeOp h
  | atomG | atomP | atomB => exact .atomOp h
  | fenceRel => exact .onHead fun _ _ => .withhold h
  | fenceAcq | setrcp | wbrec | wbend => exact .onHead fun _ _ => .modHead h
  | fenceFull => exact .execFenceFull h
  | barArr => exact .execBarArr h
  | barWait => exact .execBarWait h
  | barSync => exact .execBarSync h
  | barCnt => exact .onHead fun _ _ => .barCheck (.modBar h)
  | waitcImm | waitcReg => exact .waitc h
  | put => exact .execPut h
  | get => exact .execGet h
  | sig => exact .execSig h
  | mload | mmul | mmulz | mst | mclr => exact .matrix h
  | jobCpy | jobGth | jobCol | jobMc => exact .jobForm h
  | jobq | ldarg => exact .onHead fun _ _ => .writeScalar h
  | wbseal => exact .execWbseal h
  | wbdrop => exact .execWbdrop h
  | pollingSlot => exact .execPollingSlot h
  | widxWrite => exact .execWidxWrite h
  | hostRegisterWrite | statusAlarmClear => exact .next h
  | hostApertureAccess => exact .execHostApertureAccess h
  | launchPacket => exact .execLaunchPacket h
  | signalPacket => exact .execSignalPacket h
  | signalPacketComplete => exact .execSignalPacketComplete h
  | waybillDropPacket => exact .execWaybillDropPacket h
  | bandDispatch => exact .execBandDispatch h
  | preemptionRequest => exact .execPreemptionRequest h
  | queuedBandResident => exact .execQueuedBandResident h
  | stealRequest => exact .execStealRequest h
  | stealBackoffExpiry => exact .next (.modCore h)
  | longLatencyResult => exact .execLongLatencyResult h
  | operationReturn => exact .execOperationReturn h
  | proofPointRelease => exact .next (.release h)
  | recipeDelayExpiry | yieldExpiry | ticketRetryExpiry => exact .next (.modStr h)
  | idleTimeout => exact .next (.wakeSaved (.modStr h))
  | segmentCopyDone => exact .execSegmentCopyDone h
  | bandSettle => exact .execBandSettle h
  | xswapExpiry => exact .execXswapExpiry h
  | preemptStopTimeout => exact .execPreemptStopTimeout h
  | preemptDeferralExpiry => exact .execPreemptDeferralExpiry h
  | bandSave => exact .execBandSave h
  | bandRestore => exact .execBandRestore h
  | launchComplete => exact .execLaunchComplete h
  | replayFaultSettle => exact .execReplayFaultSettle h
  | matrixOpStart => exact .execMatrixOpStart h
  | matrixOpRetire => exact .execMatrixOpRetire h
  | jobStart => exact .execJobStart h
  | jobReturn => exact .execJobReturn h
  | multicastFill => exact .execMulticastFill h
  | collectiveInstanceComplete => exact .execCollectiveInstanceComplete h
  | homeRequest => exact .next (.atHome h fun _ _ _ h1 => .homeAt h1)
  | replicaDrop => exact .next (.modPage h)
  | pantryVerb => exact .execPantryVerb h
  | nrNopage => exact .execNrNopage h
  | negativeReply => exact .execNegativeReply h
  | pageServiceDone => exact .execPageServiceDone h
  | replayNotice => exact .execReplayNotice h
  | gets => exact .execGets h
  | getm => exact .execGetm h
  | upg => exact .execUpg h
  | putm => exact .execPutm h
  | puto => exact .execPuto h
  | fwdgets => exact .execFwdgets h
  | fwdgetm => exact .execFwdgetm h
  | backinv => exact .execBackinv h
  | invack => exact .execInvack h
  | dataMsg => exact .execDataMsg h
  | heartbeatMiss => exact .execHeartbeatMiss h
  | linkStepInterval => exact .execLinkStepInterval h
  | retrainDone => exact .execRetrainDone h
  | linkTrained => exact .execLinkTrained h
  | trainingTimeout => exact .execTrainingTimeout h
  | capabilityCheck => exact .execCapabilityCheck h
  | enumerationTimeout => exact .execEnumerationTimeout h
  | peerHeartbeat => exact .execPeerHeartbeat h
  | peerDead => exact .execPeerDead h
  | fabricLinkRetrain | peerGrantedAgain => exact .next (.modLink h)
  | fabricRetrainFail => exact .execFabricRetrainFail h
  | fabricLinkRetry => exact .execFabricLinkRetry h
  | environmentalAlarm => exact .execEnvironmentalAlarm h
  | alarmClears => exact .next (.modSite h)
  | nop => exact .onHead fun _ _ => h
  | mark => exact .execMark h
  | join => exact .onHead fun _ _ => .moveBy (.markJoins h)
  | yield | idle => exact .onHead fun _ _ => .post (.modHead h)
  | tret => exact .execTret h
  | gbar => exact .execGbar h
  | mbatch => exact .execMbatch h
  | moduleReset => exact .execModuleReset h
  | replayBandRecord => exact .execReplayBandRecord h
  | replayJobRecord => exact .execReplayJobRecord h
  | replayMatrixRecord => exact .execReplayMatrixRecord h
  | replayFillRecord => exact .execReplayFillRecord h
  | replayWaitRecord => exact .execReplayWaitRecord h
  | replayGbarRecord => exact .execReplayGbarRecord h
  | heartbeat => exact .execHeartbeat h
  | dieQuiesceDone => exact .execDieQuiesceDone h
  | ctxCreate => exact .execCtxCreate h
  | ctxDestroy => exact .execCtxDestroy h
  | loadObj => exact .execLoadObj h
  | preemptCmd => exact .execPreemptCmd h
  | pageMap => exact .execPageMap h
  | pageMove => exact .execPageMove h
  | pagePin | pageUnpin => exact .cmd h fun _ _ => .pinPage h
  | pageRestoreReplicas => exact .execPageRestoreReplicas h
  | spanInv => exact .execSpanInv h
  | extentGrant => exact .execExtentGrant h
  | extentRevoke => exact .execExtentRevoke h
  | colSetup => exact .execColSetup h
  | colDestroy => exact .execColDestroy h
  | dieQuiesce => exact .execDieQuiesce h
  | dieReset => exact .execDieReset h
  | logRead => exact .execLogRead h
  | quote => exact .execQuote h
  | exportCmd => exact .execExportCmd h
  | queueCfg => exact .execQueueCfg h
  | apertureMap => exact .execApertureMap h
  | apertureUnmap => exact .cmd h fun _ _ => .endMgmt h
  | serviceModeNormal | serviceModeTest | serviceModeRecovery => exact .cmd h fun _ _ => .setMode h
  | resettingComplete => exact .execResettingComplete h
  | pageMoveComplete => exact .execPageMoveComplete h

/-! ### Issue, and what follows every act (Machine/Issue.lean) -/

theorem State.Canonical.toHead {s : State} {b n : Nat} (h : s.Canonical) :
    (toHead s b n).Canonical := by
  unfold Machine.toHead
  split <;> exact h

theorem State.Canonical.enter {s : State} {slotB : Bool} {p : Path} (h : s.Canonical) :
    (s.enter slotB p).Canonical := by
  unfold State.enter
  split
  · exact h
  · split
    · exact .ite h (.modCore (.modHead h))
    · exact h

theorem State.Canonical.unwait {s : State} {b : Bool} (h : s.Canonical) :
    (s.unwait b).Canonical := by
  unfold State.unwait
  split
  · exact h
  · extract_lets s1
    have h1 : s1.Canonical := by
      unfold s1
      split
      · exact .dropOp h
      · exact h
    exact .modHead h1

theorem State.Canonical.startBun {s : State} {slotB : Bool} {p : Path} (h : s.Canonical) :
    (s.startBun slotB p).Canonical := by
  unfold State.startBun
  split <;> exact h

theorem NextCanonical.runSlots {slots : List (Nat × Instr)} {s : State} (h : s.Canonical) :
    NextCanonical (runSlots slots s) := by
  induction slots generalizing s with
  | nil => exact h
  | cons x rest ih =>
    unfold Machine.runSlots
    split
    · rename_i s1 heq
      have h1 : s1.Canonical := .of_next heq (.exec (.modBun h))
      split
      · exact h1
      · exact ih h1
    · exact .exec (.modBun h)

theorem State.Canonical.keepTear {b : Nat} {made s : State} (h : s.Canonical) :
    (keepTear b made s).Canonical := .ite (.markTear h) h

theorem NextCanonical.runBundle {b : Bundle} {s : State} (h : s.Canonical) :
    NextCanonical (runBundle b s) := by
  unfold Machine.runBundle
  split
  · rename_i s1 heq
    have h1 : s1.Canonical := .of_next heq (.runSlots h)
    split
    · exact .next h1
    · split
      · rename_i s2 heq
        have h2 : s2.Canonical := .of_next heq (.runSlots h)
        exact .next (.keepTear h2)
      · exact .runSlots h
  · exact .runSlots h

theorem State.Canonical.recordBun {b : Bundle} {bu : Bun} {s : State} (h : s.Canonical) :
    (recordBun b bu s).Canonical := by
  unfold Machine.recordBun
  extract_lets +onlyGivenNames _
  split
  · exact h
  · extract_lets +onlyGivenNames _ s1 s2 s3 s4
    have h1 : s1.Canonical := by
      unfold s1
      refine .foldl h fun _ _ h2 => ?_
      split
      · exact h2
      · exact .recordCmd (.modBand h2)
    have h2 : s2.Canonical := .ite (.recordCmd (.modBand h1)) h1
    have h3 : s3.Canonical := by
      unfold s3
      refine .foldl h2 fun _ _ h4 => ?_
      split
      · exact h4
      · exact .recordCmd h4
    have h4 : s4.Canonical := by
      unfold s4
      split
      · exact .recordCmd h3
      · exact h3
    split
    · exact .ite (.markTear h4) (.ite (.markTear h4) h4)
    · exact h4

theorem State.Canonical.submitBun {bu : Bun} {s : State} (h : s.Canonical) :
    (submitBun bu s).Canonical := by
  unfold Machine.submitBun
  extract_lets s1 s2
  have h1 : s1.Canonical := .foldl h fun _ _ => .submitMop
  have h2 : s2.Canonical := .foldl h1 fun _ _ => .submitJob
  split
  · exact .closeBatch h2
  · exact h2

theorem State.Canonical.raiseEngine {pre : State} {bu : Bun} {l : Late} (h : pre.Canonical) :
    (raiseEngine pre bu l).Canonical := .modStr (.takeTrap h)

theorem State.Canonical.stopCheck {s : State} {b n : Nat} {proof drain : Bool} (h : s.Canonical) :
    (stopCheck s b n proof drain).Canonical := by
  unfold Machine.stopCheck
  split
  · exact h
  · exact .ite (.modStr h) (.ite (.post (.modStr h)) h)

theorem State.Canonical.endCheck {s : State} {b n : Nat} (h : s.Canonical) :
    (endCheck s b n).Canonical := by
  unfold Machine.endCheck
  split
  · exact h
  · exact .ite (.gbarBand (.modStr h)) h

theorem State.Canonical.prefetch {s : State} {t : Str} {p : Path} (h : s.Canonical) :
    (prefetch s t p).Canonical := by
  unfold Machine.prefetch
  split
  · extract_lets _
    split
    exact .ite (.post (.modCore h)) h
  · exact h

theorem State.Canonical.releaseBun {b : Bundle} {bu : Bun} {s : State} (h : s.Canonical) :
    (releaseBun b bu s).Canonical := .submitBun (.recordBun (.releaseEntries h))

theorem State.Canonical.finishBundle {b : Bundle} {pre s : State} (h : pre.Canonical) (hs : s.Canonical) :
    (finishBundle b pre s).Canonical := by
  unfold Machine.finishBundle
  split
  · extract_lets +onlyGivenNames _ _ _ s1 _ s2
    have h1 : s1.Canonical := .modHead hs
    have h2 : s2.Canonical := .ite (.prefetch h1) h1
    split
    · exact .stopCheck (.endCheck h2)
    · split
      · exact .raiseEngine (.keepTear h)
      · extract_lets +onlyGivenNames s3
        have h3 : s3.Canonical := .releaseBun h2
        split
        · exact .raiseTorn h
        · extract_lets +onlyGivenNames s4 s5
          have h4 : s4.Canonical := by
            unfold s4
            split
            · exact .modHead h3
            · exact h3
          have h5 : s5.Canonical := .modHead h4
          exact .stopCheck (.endCheck h5)
  · exact hs

theorem NextCanonical.issueBundle {b : Bundle} {slotB : Bool} {p : Path} {s : State} (h : s.Canonical) :
    NextCanonical (issueBundle b slotB p s) := by
  unfold Machine.issueBundle
  extract_lets +onlyGivenNames s1 go
  have h1 : s1.Canonical := .unwait (.enter (.modHead h))
  have hgo {s : State} (h : s.Canonical) : NextCanonical (go s) := by
    unfold go
    extract_lets pre
    have h2 : pre.Canonical := .startBun h
    split
    · rename_i s3 heq
      have h3 : s3.Canonical := .of_next heq (.runBundle h2)
      refine .next ?_
      split
      · split
        · exact .ite (.modStr h3) h3
        · exact h3
      · exact .finishBundle h2 h3
    · exact .runBundle h2
  split
  · exact trivial
  · split
    · rename_i s2 heq
      have h2 : s2.Canonical := .of_next heq (.runBundle (.startBun h1))
      split
      · extract_lets r
        have h3 : r.Canonical := .stopCheck (.release h1)
        split
        · exact .next h3
        · exact hgo h3
      · exact hgo h1
    · exact .runBundle (.startBun h1)

theorem State.Canonical.finishPend {s : State} {t : Str} {p : Pend} (h : s.Canonical) :
    (finishPend s t p).Canonical := .stopCheck (.endCheck (.modStr h))

theorem NextCanonical.issueTurn {s : State} {t : Str} {turn : Turn} (h : s.Canonical) :
    NextCanonical (issueTurn s t turn) := by
  unfold Machine.issueTurn
  split
  · exact .next (.finishPend h)
  · split
    · exact .next h
    · split
      · exact .next (.quarantine h)
      · exact .next (.ite (.modStr (.takeTrap (.toHead h))) (.takeTrap (.toHead h)))
      · split
        · rename_i s1 heq
          have h1 : s1.Canonical := .of_next heq (.issueBundle (.toHead h))
          exact .next h1
        · exact .issueBundle (.toHead h)

theorem NextCanonical.issueChosen {s : State} {x : Str × Turn} (h : s.Canonical) :
    NextCanonical (issueChosen s x) := by
  unfold Machine.issueChosen
  split
  · exact .next h
  · exact .ite (.issueTurn h) (.next h)

theorem NextCanonical.issuePair {s : State} {d c part : Nat} {p : Str × Turn} (h : s.Canonical) :
    NextCanonical (issuePair s d c part p) := by
  unfold Machine.issuePair
  extract_lets s1
  have h1 : s1.Canonical := .modCore h
  split
  · rename_i s2 heq
    have h2 : s2.Canonical := .of_next heq (.issueTurn h1)
    split
    · exact .next h2
    · exact .issueChosen h2
  · exact .issueTurn h1

theorem NextCanonical.mergeIn {fuel : Nat} {s : State} {d c part : Nat} (h : s.Canonical) :
    NextCanonical (mergeIn fuel s d c part) := by
  induction fuel generalizing s with
  | zero =>
    unfold Machine.mergeIn
    split
    · exact h
    · exact .issuePair h
  | succ fuel ih =>
    unfold Machine.mergeIn
    split
    · exact h
    · dsimp only
      split
      · split
        · rename_i s1 heq
          exact ih (.of_next heq (.issueTurn h))
        · exact .issueTurn h
      · exact .issuePair h

theorem NextCanonical.mergeClock {s : State} {d c part : Nat} (h : s.Canonical) :
    NextCanonical (mergeClock s d c part) := .mergeIn h

theorem State.Canonical.sendAck {s : State} {t : Str} (h : s.Canonical) :
    (sendAck s t).Canonical := by
  unfold Machine.sendAck
  extract_lets _
  split
  · exact h
  · split <;> exact .ite (.modOp h) h

theorem State.Canonical.passAck {cs : List (Nat × Nat × Nat)} {s : State} {t : Str} (h : s.Canonical) :
    (passAck cs s t).Canonical := by
  unfold Machine.passAck
  split
  · split
    · exact .modOp h
    · exact h
  · exact h

theorem State.Canonical.demand {s : State} {t : Str} {b : Bool} (h : s.Canonical) :
    (demand s t b).Canonical := by
  unfold Machine.demand
  split
  · exact h
  · split
    · exact h
    · split
      · exact h
      · split
        · split
          · exact .ite (.post (.modCore h)) h
          · exact h

theorem State.Canonical.demandStr {s : State} {t : Str} (h : s.Canonical) :
    (demandStr s t).Canonical := .ite (.demand (.demand h)) h

theorem State.Canonical.stopLong {s : State} {t : Str} (h : s.Canonical) :
    (stopLong s t).Canonical := .ite (.stopWaiting h) h

theorem State.Canonical.lateNeg {s : State} {t : Str} (h : s.Canonical) :
    (lateNeg s t).Canonical := by
  unfold Machine.lateNeg
  split
  · exact .ite h (.takeTrap (.modStr h))
  · exact h

theorem State.Canonical.sweep {s : State} (h : s.Canonical) :
    (sweep s).Canonical := by
  unfold Machine.sweep
  extract_lets s1 s2 s3 s4 s5 _ _ _
  have h1 : s1.Canonical := .foldl h fun _ _ h => .closeBand h
  have h2 : s2.Canonical := .foldl h1 fun _ _ => .demandStr
  have h3 : s3.Canonical := .foldl h2 fun _ _ => .sendAck
  have h4 : s4.Canonical := .foldl h3 fun _ _ => .lateNeg
  have h5 : s5.Canonical := .foldl h4 fun _ _ => .stopLong
  exact .post h5

theorem NextCanonical.perform {s : State} {a : Act} (h : s.Canonical) :
    NextCanonical (perform s a) := by
  unfold Machine.perform
  split
  · exact .exec (.foldl h fun _ _ => .passAck)
  · exact .next (.sendOp h)
  · exact .next (.sendEntry h)
  · exact .next (.opMore h)
  · exact .next (.modOp h)
  · exact .next (.finishPend h)
  · exact .mergeClock h
  · exact .next (.windowOver h)

theorem NextCanonical.settled {o : Host.Outcome State Fault Refusal} (h : NextCanonical o) : NextCanonical (settled o) := by
  cases o with
  | next s => exact .next (.sweep h)
  | fault r => trivial
  | refused r => trivial

theorem NextCanonical.actOnce {s : State} (h : s.Canonical) :
    NextCanonical (actOnce s) := by
  unfold Machine.actOnce
  split
  · exact .next h
  · exact .settled (.perform h)
  · exact .settled (.perform h)

/-! ### The step (Machine/Step.lean) -/

theorem NextCanonical.step {s : State} (h : s.Canonical) :
    NextCanonical (step s) := .actOnce h

/-- Settles O58: the invariant is kept by everything a step does, down to the single write of a memory (`NextCanonical.step`). -/
theorem stepKeepsMemories : Obligations.StepKeepsMemories := by
  unfold Obligations.StepKeepsMemories
  intro s s' h e
  exact State.memoriesWf_iff.2 (.of_next e (.step (State.memoriesWf_iff.1 h)))

end Sys2Proof.Machine
end

/-! # The job forms (O29; R269, R278, R279)

A job form reads its card's address from the latch and takes a branch of `State.jobForm`: one lemma for each branch that O29 names, about the
string that issues (`Issuing`). The operations that the branches call (`hold`, `addOp`, `readCard`) have a lemma each. -/

section
namespace Sys2Proof.Machine
open Sys2Proof

/-! ### The string that issues -/

theorem Issuing.bunOf {s : State} {t : Str} {ts : List Str} {bu : Bun} (h : Issuing s t ts bu) : s.bunOf t = bu := by
  simp [State.bunOf, h.bun]

/-- What a slot instruction runs for: the head string, with the bundle that issues. -/
theorem Issuing.onHead {s : State} {t : Str} {ts : List Str} {bu : Bun} (h : Issuing s t ts bu) (k : Str → Bun → State) :
    s.onHead k = .next (k t bu) := by
  rw [onHead_cons s t ts h.strs, h.bunOf]

/-- The four memories stand in these parts of the state. -/
theorem sameMemory_of_eq {s s' : State} (gran : s'.gran = s.gran) (host : s'.host = s.host) (sites : s'.sites = s.sites)
    (bands : s'.bands = s.bands) : sameMemory s s' := by
  intro m a
  cases m <;> simp [State.byteAt, State.site?, State.band?, gran, host, sites, bands]

/-- An operation that counts on some paths: its identifier and issue number are the next ones (R49). -/
theorem State.addOp_cons {s : State} {t : Str} {ts : List Str} (h : s.strs = t :: ts) (paths : List Nat) (op : Op) :
    s.addOp paths op =
      ({ s with nextId := s.nextId + 1, nseq := s.nseq + 1,
                ops := s.ops ++ [{ op with id := s.nextId, seq := s.nseq, mask := s.issueMask, core := s.headCore }],
                strs := { t with outst := t.outst ++ paths.map (fun p => { o := s.nextId, path := p, back := false }) } :: ts }, s.nextId) := by
  simp only [State.addOp, State.modHead, h]

/-! ### A bundle that waits -/

theorem State.hold_strs {s : State} {t : Str} {ts : List Str} (h : s.strs = t :: ts) (bu : Bun) (w : Wait) :
    (s.hold bu w).strs = putWait bu.slotB w bu.lat :: ts := by
  simp [State.hold, State.endBun, State.modHead, h]

theorem State.hold_sameMemory (s : State) (bu : Bun) (w : Wait) : sameMemory s (s.hold bu w) := by
  apply sameMemory_of_eq <;> simp [State.hold, State.endBun]

/-! ### The card, the operation and the command of a job -/

/-- Of bytes that the string neither withholds nor has released, none is its own (R58). -/
theorem ownByte_eq_none {s : State} {t : Str} (hbuf : t.buf = []) (hrels : s.rels = []) (q : Nat) (sp : Space)
    (ents : List (Nat × Word64)) (a : Nat) : ownByte s t q sp ents a = none := by
  simp [ownByte, hbuf, hrels]

theorem readCard_length (s : State) (t : Str) (bd : Band) (a q : Nat) : (readCard s t bd a q).length = 64 := by
  simp [readCard]

/-- The card as the bench holds it. -/
theorem readCard_eq_memBytes {s : State} {t : Str} (hbuf : t.buf = []) (hrels : s.rels = []) (bd : Band) (a q : Nat) :
    readCard s t bd a q = memBytes bd.bench a 64 := by
  simp [readCard, memBytes, ownByte_eq_none hbuf hrels]

/-- The operation that a job form adds (R49). -/
def jobOp (s : State) (t : Str) (bu : Bun) : Op :=
  { id := s.nextId, b := t.band, n := t.num, seq := s.nseq, path := some 4, pc := bu.pc, kind := .job s.nextId,
    mask := s.issueMask, core := s.headCore }

/-- The command that a job form of minor `mn` sends with its bundle's release, its card at `x` (R269). -/
def jobCommand (s : State) (t : Str) (bu : Bun) (bd : Band) (mn x : Nat) : Job :=
  { id := s.nextId, b := t.band, n := some t.num, card := readCard s bu.lat bd x s.nseq, cardAt := x, mn := mn, pc := bu.pc, seq := s.nseq,
    op := s.nextId, die := bd.die, core := bd.place.core?.getD 0 }

/-! ### The branches of a job form -/

/-- A card at `x` passes every check of its address, and no withheld access of the string writes it (R24, R59). -/
structure CardReadable (s : State) (bu : Bun) (x : Nat) : Prop where
  aligned : x % 64 = 0
  low : bu.lat.benchb.toNat ≤ x
  high : x + 64 ≤ bu.lat.benchl.toNat
  fixed : case6 s bu.lat [] [{ sp := .bench, a := x, n := 64 }] = false

theorem CardReadable.notMisaligned {s : State} {bu : Bun} {x : Nat} (h : CardReadable s bu x) : ¬ x % 64 ≠ 0 :=
  fun misaligned => misaligned h.aligned

theorem CardReadable.inBounds {s : State} {bu : Bun} {x : Nat} (h : CardReadable s bu x) :
    ¬(x < bu.lat.benchb.toNat ∨ bu.lat.benchl.toNat < x + 64) :=
  fun out => out.elim (Nat.not_lt.mpr h.low) (Nat.not_lt.mpr h.high)

section
variable {s : State} {t : Str} {ts : List Str} {bu : Bun} {bd : Band} (hi : Issuing s t ts bu) (hb : s.band? t.band = some bd)
  (mn : Nat) (a : SReg)
include hi hb

theorem jobForm_align (ha : (readS bu.lat a.toNat).toNat % 64 ≠ 0) :
    s.jobForm mn a = .next (s.raise t bu { cause := .align }) := by
  rw [State.jobForm, hi.onHead]
  simp only [hb, if_pos ha]

theorem jobForm_benchBound (ha : (readS bu.lat a.toNat).toNat % 64 = 0)
    (hx : (readS bu.lat a.toNat).toNat < bu.lat.benchb.toNat ∨ bu.lat.benchl.toNat < (readS bu.lat a.toNat).toNat + 64) :
    s.jobForm mn a = .next (s.raise t bu { cause := .benchBound }) := by
  rw [State.jobForm, hi.onHead]
  simp only [hb, if_neg (Decidable.not_not.mpr ha), if_pos hx]

/-- The card's read must follow an access that is not performed: the bundle of the slot waits (log 11). -/
theorem jobForm_cardBusy (hc : CardReadable s bu (readS bu.lat a.toNat).toNat)
    (hbusy : cardBusy s bu.lat bu.mask (readS bu.lat a.toNat).toNat bu.seq = true) :
    s.jobForm mn a = .next (s.hold bu (.card (readS bu.lat a.toNat).toNat)) := by
  rw [State.jobForm, hi.onHead]
  simp only [hb, if_neg hc.notMisaligned, if_neg hc.inBounds, hc.fixed, hbusy, Bool.false_eq_true, if_true, if_false]

/-- The core has 64 jobs out. -/
theorem jobForm_unitFull (hc : CardReadable s bu (readS bu.lat a.toNat).toNat)
    (hbusy : cardBusy s bu.lat bu.mask (readS bu.lat a.toNat).toNat bu.seq = false)
    (hfull : 64 ≤ (coreJobs s bd.die (bd.place.core?.getD 0)).length) :
    s.jobForm mn a = .next (s.hold bu .unit) := by
  rw [State.jobForm, hi.onHead]
  simp only [hb, if_neg hc.notMisaligned, if_neg hc.inBounds, hc.fixed, hbusy, if_pos hfull, Bool.false_eq_true, if_false]

theorem jobForm_issues (hc : CardReadable s bu (readS bu.lat a.toNat).toNat)
    (hbusy : cardBusy s bu.lat bu.mask (readS bu.lat a.toNat).toNat bu.seq = false)
    (hroom : (coreJobs s bd.die (bd.place.core?.getD 0)).length < 64) (hpath : fullPath bu.lat [4] = none) :
    s.jobForm mn a = .next { s with
      nextId := s.nextId + 1, nseq := s.nseq + 1, ops := s.ops ++ [jobOp s t bu],
      bun := some { bu with jobs := bu.jobs ++ [jobCommand s t bu bd mn (readS bu.lat a.toNat).toNat] },
      strs := { t with outst := t.outst ++ [{ o := s.nextId, path := 4, back := false }] } :: ts } := by
  rw [State.jobForm, hi.onHead]
  simp only [hb, if_neg hc.notMisaligned, if_neg hc.inBounds, hc.fixed, hbusy, if_neg (Nat.not_le.mpr hroom), hpath, Bool.false_eq_true, if_false]
  rw [State.addOp_cons hi.strs]
  simp [State.modBun, hi.bun, jobOp, jobCommand]

end

/-- The four job forms are one form of different minors (R269). -/
theorem exec_jobForm {a : SReg} {f : Instr × Nat}
    (hf : f ∈ [(Instr.jobCpy a, 0), (Instr.jobGth a, 1), (Instr.jobCol a, 2), (Instr.jobMc a, 3)]) (s : State) :
    exec f.1 s = s.jobForm f.2 a := by
  simp only [List.mem_cons, List.not_mem_nil, or_false] at hf
  rcases hf with rfl | rfl | rfl | rfl <;> rfl

/-! ### `jobq`, proof points and the guard -/

theorem jobq_result (d : SReg) : ScalarResult (.jobq d) d (fun t => t.jobErr) :=
  scalarOp_result _ d _ (fun _ => .data) fun _ => rfl

theorem isProofPoint_of_job {i : Instr} (h : i.major = some 0x2A) : i.isProofPoint = true := by
  cases i with
  | jobCpy | jobGth | jobCol | jobMc | jobq => rfl
  | _ => cases h

/-- A per-string form under a guard other than p0 is refused (R82). -/
theorem Slot.str_of_guard {sl : Slot} (h : sl.g ≠ 0#3) (r : Except DecErr Instr) : sl.str r = .error .guardForm := by
  simp [Slot.str, h]

theorem decodeJob_of_guard {sl : Slot} (h : sl.g ≠ 0#3) : ∃ e, decodeJob sl = .error e := by
  unfold decodeJob
  split
  case h_6 => exact ⟨_, rfl⟩
  all_goals exact ⟨_, Slot.str_of_guard h _⟩

theorem decodeFields_of_job {sl : Slot} (h : sl.maj = 0x2A#6) : decodeFields sl = decodeJob sl := by
  simp [decodeFields, h]

/-- A slot whose fields no form reads is refused. -/
theorem decodeSlot_of_fields {c : DecCtx} {sl : Slot} {e : DecErr} (hw : sl.w ≠ 0#32) (h : decodeFields sl = .error e) :
    decodeSlot c sl = .error e := by
  simp [decodeSlot, decodeSlotForm, hw, h]

theorem Slot.word_ne_zero {sl : Slot} (h : sl.maj ≠ 0#6) : sl.w ≠ 0#32 := by
  intro hw
  exact h (by simp [Slot.maj, hw])

theorem decodeSlot_job_of_guard (c : DecCtx) {sl : Slot} (hm : sl.maj = 0x2A#6) (hg : sl.g ≠ 0#3) :
    ∃ e, decodeSlot c sl = .error e := by
  obtain ⟨e, he⟩ := decodeJob_of_guard hg
  exact ⟨e, decodeSlot_of_fields (Slot.word_ne_zero (by simp [hm])) ((decodeFields_of_job hm).trans he)⟩

/-- Settles O29: each branch of `State.jobForm` by its lemma; the rest is the scalar form of `jobq`, and the decoder's guard check. -/
theorem jobForms : Obligations.JobForms := by
  unfold Obligations.JobForms
  refine ⟨?_, jobq_result, fun _ => isProofPoint_of_job, fun c _ => decodeSlot_job_of_guard c⟩
  intro a s t ts bu bd hi hb x f hf
  rw [exec_jobForm hf]
  refine ⟨jobForm_align hi hb f.2 a, jobForm_benchBound hi hb f.2 a, fun aligned low high fixed => ?_⟩
  have hc : CardReadable s bu x := ⟨aligned, low, high, fixed⟩
  refine ⟨fun hbusy => ?_, fun hbusy => ⟨fun hroom hpath => ?_, fun hfull => ?_⟩⟩
  · exact ⟨_, jobForm_cardBusy hi hb f.2 a hc hbusy, State.hold_strs hi.strs .., State.hold_sameMemory _ _ _⟩
  · exact ⟨_, _, jobForm_issues hi hb f.2 a hc hbusy hroom hpath, rfl, rfl, rfl, rfl, rfl, rfl, rfl, readCard_length .., fun hbuf hrels =>
      readCard_eq_memBytes hbuf hrels ..⟩
  · exact ⟨_, jobForm_unitFull hi hb f.2 a hc hbusy hfull, State.hold_strs hi.strs .., State.hold_sameMemory _ _ _⟩

end Sys2Proof.Machine
end

/-! # The lane instructions (O1 to O6; R123 to R134, R136 to R147)

Most instructions are one operand form of `Operands.lean` applied to a word function. `Laws/Lanes.lean` says what each form does to the
string; what is left is that the model's word function has the value that the rules give. So the word functions come first, each with its
value; then the forms that `Laws/Lanes.lean` does not cover, the block narrowing among them; then one proof for each obligation, in which
each instruction names its form and the value of its function. -/

section
namespace Sys2Proof.Machine
open Sys2Proof

/-! ### Words: the wrap of an exact result (R123) -/

theorem ofNat_toNat_self {w : Nat} (x : BitVec w) : BitVec.ofNat w x.toNat = x := by
  rw [BitVec.ofNat_toNat, BitVec.setWidth_eq]

theorem sub_eq_ofInt {w : Nat} (x y : BitVec w) : x - y = BitVec.ofInt w ((x.toNat : Int) - y.toNat) := by
  rw [Int.sub_eq_add_neg, BitVec.ofInt_add, BitVec.ofInt_neg, BitVec.ofInt_natCast, BitVec.ofInt_natCast, ofNat_toNat_self,
    ofNat_toNat_self, BitVec.sub_eq_add_neg]

theorem neg_eq_ofInt {w : Nat} (x : BitVec w) : -x = BitVec.ofInt w (-x.toInt) := by
  rw [BitVec.ofInt_neg, BitVec.ofInt_toInt]

theorem mul_eq_ofNat {w : Nat} (x y : BitVec w) : x * y = BitVec.ofNat w (x.toNat * y.toNat) := by
  rw [BitVec.ofNat_mul, ofNat_toNat_self, ofNat_toNat_self]

theorem mul_add_eq_ofNat {w : Nat} (x y z : BitVec w) : x * y + z = BitVec.ofNat w (x.toNat * y.toNat + z.toNat) := by
  rw [BitVec.ofNat_add, ← mul_eq_ofNat, ofNat_toNat_self]

theorem add_signExtend_eq_ofInt {w n : Nat} (x : BitVec w) (k : BitVec n) : x + k.signExtend w = BitVec.ofInt w (x.toInt + k.toInt) := by
  rw [BitVec.ofInt_add, BitVec.ofInt_toInt, BitVec.signExtend]

theorem mul_signExtend_eq_ofInt {w n : Nat} (x : BitVec w) (k : BitVec n) : x * k.signExtend w = BitVec.ofInt w (x.toInt * k.toInt) := by
  rw [BitVec.ofInt_mul, BitVec.ofInt_toInt, BitVec.signExtend]

/-! ### Words: the smaller and the larger (R125) -/

theorem ite_toInt_le_eq_min {w : Nat} (x y : BitVec w) : (if x.toInt ≤ y.toInt then x else y) = BitVec.ofInt w (min x.toInt y.toInt) := by
  rw [Int.min_def, apply_ite (BitVec.ofInt w), BitVec.ofInt_toInt, BitVec.ofInt_toInt]

theorem ite_toInt_le_eq_max {w : Nat} (x y : BitVec w) : (if y.toInt ≤ x.toInt then x else y) = BitVec.ofInt w (max x.toInt y.toInt) := by
  rw [Int.max_comm, Int.max_def, apply_ite (BitVec.ofInt w), BitVec.ofInt_toInt, BitVec.ofInt_toInt]

theorem ite_toNat_le_eq_min {w : Nat} (x y : BitVec w) : (if x.toNat ≤ y.toNat then x else y) = BitVec.ofNat w (min x.toNat y.toNat) := by
  rw [Nat.min_def, apply_ite (BitVec.ofNat w), ofNat_toNat_self, ofNat_toNat_self]

theorem ite_toNat_le_eq_max {w : Nat} (x y : BitVec w) : (if y.toNat ≤ x.toNat then x else y) = BitVec.ofNat w (max x.toNat y.toNat) := by
  rw [Nat.max_comm, Nat.max_def, apply_ite (BitVec.ofNat w), ofNat_toNat_self, ofNat_toNat_self]

/-! ### Words: shifts, rotation and fields (R125, R127 to R129) -/

theorem shiftLeft_eq_ofNat {w : Nat} (x : BitVec w) (n : Nat) : x <<< n = BitVec.ofNat w (x.toNat * 2 ^ n) := by
  apply BitVec.eq_of_toNat_eq
  rw [BitVec.toNat_shiftLeft, Nat.shiftLeft_eq, BitVec.toNat_ofNat]

theorem ushiftRight_eq_ofNat {w : Nat} (x : BitVec w) (n : Nat) : x >>> n = BitVec.ofNat w (x.toNat / 2 ^ n) := by
  apply BitVec.eq_of_toNat_eq
  rw [BitVec.toNat_ushiftRight, Nat.shiftRight_eq_div_pow, BitVec.toNat_ofNat,
    Nat.mod_eq_of_lt (Nat.lt_of_le_of_lt (Nat.div_le_self ..) x.isLt)]

theorem sshiftRight_eq_ofInt {w : Nat} (x : BitVec w) (n : Nat) : x.sshiftRight n = BitVec.ofInt w (x.toInt / 2 ^ n) := by
  rw [BitVec.sshiftRight, Int.shiftRight_eq_div_pow]
  exact congrArg (fun p => BitVec.ofInt w (x.toInt / p)) (Int.natCast_pow 2 n)

theorem sshiftRight_of_width_le {w : Nat} (x : BitVec w) {n : Nat} (h : w ≤ n) :
    x.sshiftRight n = if x.msb then ~~~0#w else 0#w := by
  cases hm : x.msb
  · rw [BitVec.sshiftRight_eq_of_msb_false hm, BitVec.ushiftRight_eq_zero h]; rfl
  · rw [BitVec.sshiftRight_eq_of_msb_true hm, BitVec.ushiftRight_eq_zero h]; rfl

theorem shiftLeft_shCount (A B : Word32) :
    A <<< shCount B = if 32 ≤ B.toNat % 64 then 0#32 else BitVec.ofNat 32 (A.toNat * 2 ^ (B.toNat % 64)) := by
  rw [shCount]
  split
  case isTrue h => exact BitVec.shiftLeft_eq_zero h
  case isFalse => exact shiftLeft_eq_ofNat ..

theorem ushiftRight_shCount (A B : Word32) :
    A >>> shCount B = if 32 ≤ B.toNat % 64 then 0#32 else BitVec.ofNat 32 (A.toNat / 2 ^ (B.toNat % 64)) := by
  rw [shCount]
  split
  case isTrue h => exact BitVec.ushiftRight_eq_zero h
  case isFalse => exact ushiftRight_eq_ofNat ..

theorem sshiftRight_shCount (A B : Word32) :
    A.sshiftRight (shCount B) =
      if 32 ≤ B.toNat % 64 then (if A.msb then 0xFFFFFFFF#32 else 0#32) else BitVec.ofInt 32 (A.toInt / 2 ^ (B.toNat % 64)) := by
  rw [shCount]
  split
  case isTrue h => exact sshiftRight_of_width_le A h
  case isFalse => exact sshiftRight_eq_ofInt ..

/-- The two parts of a rotated word share no bit, so that their union is their sum. -/
theorem rotateLeft_eq_ofNat {w : Nat} (x : BitVec w) {n : Nat} (h : n < w) :
    x.rotateLeft n = BitVec.ofNat w (x.toNat * 2 ^ n + x.toNat / 2 ^ (w - n)) := by
  have disjoint : x <<< n &&& x >>> (w - n) = 0#w := by
    ext i hi
    by_cases hin : i < n
    · simp [hin]
    · simp [hin, BitVec.getLsbD_of_ge x (w - n + i) (by omega)]
  rw [BitVec.rotateLeft_def, Nat.mod_eq_of_lt h, ← BitVec.add_eq_or_of_and_eq_zero _ _ disjoint, BitVec.ofNat_add,
    ← shiftLeft_eq_ofNat, ← ushiftRight_eq_ofNat]

theorem bfeOf_eq (A B : Word32) :
    bfeOf A B = BitVec.ofNat 32 (A.toNat / 2 ^ (B.toNat % 32) % 2 ^ min (B.toNat / 256 % 64) 32) := by
  rw [bfeOf, fieldMask, fieldPos, ← BitVec.ofNat_and, Nat.and_two_pow_sub_one_eq_mod]

/-- `movh` and `movh.s`: 20 more bits from below (R129). -/
theorem shiftLeft_add_zeroExtend {w n : Nat} (x : BitVec w) (k : BitVec n) (j : Nat) :
    x <<< j + k.zeroExtend w = BitVec.ofNat w (x.toNat * 2 ^ j + k.toNat) := by
  rw [BitVec.ofNat_add, ← shiftLeft_eq_ofNat, BitVec.ofNat_toNat]

/-! ### Words: counts of bits (R126, R147) -/

theorem popCount_eq_countP {w : Nat} (x : BitVec w) : popCount x = (List.range w).countP (fun i => x.getLsbD i) :=
  List.countP_eq_length_filter.symm

theorem popCount_and_below {w : Nat} (m : BitVec w) (l : Nat) :
    popCount (m &&& BitVec.ofNat w (2 ^ l - 1)) = (List.range l).countP (fun i => m.getLsbD i) := by
  rw [popCount, List.countP_eq_length_filter]
  apply List.Perm.length_eq
  rw [List.perm_ext_iff_of_nodup (List.nodup_range.filter _) (List.nodup_range.filter _)]
  intro i
  have inWidth : m.getLsbD i = true → i < w := BitVec.lt_of_getLsbD
  simp only [List.mem_filter, List.mem_range, BitVec.getLsbD_and, BitVec.getLsbD_ofNat, Nat.testBit_two_pow_sub_one, Bool.and_eq_true,
    decide_eq_true_eq]
  constructor
  · rintro ⟨-, hm, -, hl⟩
    exact ⟨hl, hm⟩
  · rintro ⟨hl, hm⟩
    exact ⟨inWidth hm, hm, inWidth hm, hl⟩

/-! ### Words: saturation (R126) -/

theorem clampInt_natCast (x n : Nat) : clampInt x 0 n = ((min x n : Nat) : Int) := by
  unfold clampInt
  split
  case isTrue => omega
  case isFalse => split <;> omega

theorem clampInt_natCast_sub {x n : Nat} (h : x ≤ n) (y : Nat) : clampInt ((x : Int) - y) 0 n = ((x - y : Nat) : Int) := by
  unfold clampInt
  split
  case isTrue => omega
  case isFalse => split <;> omega

theorem n32Max_eq_natCast : n32Max = ((2 ^ 32 - 1 : Nat) : Int) := rfl

theorem clamp32_add (A B : Word32) :
    clamp32 ((A.toNat : Int) + B.toNat) 0 n32Max = BitVec.ofNat 32 (min (A.toNat + B.toNat) (2 ^ 32 - 1)) := by
  rw [clamp32, n32Max_eq_natCast, ← Int.natCast_add, clampInt_natCast, BitVec.ofInt_natCast]

theorem clamp32_sub (A B : Word32) : clamp32 ((A.toNat : Int) - B.toNat) 0 n32Max = BitVec.ofNat 32 (A.toNat - B.toNat) := by
  rw [clamp32, n32Max_eq_natCast, clampInt_natCast_sub (Nat.le_sub_one_of_lt A.isLt), BitVec.ofInt_natCast]

/-! ### Words: elements of a packed word, and integer dot products (R101, R143) -/

theorem half_eq (e x : Nat) : half e x = x / 65536 ^ e % 65536 := by
  rw [half, Nat.pow_mul]

theorem toInt_ofNat_eq_ite {w : Nat} (hw : 0 < w) (x : Nat) :
    (BitVec.ofNat w x).toInt = if 2 ^ (w - 1) ≤ x % 2 ^ w then ((x % 2 ^ w : Nat) : Int) - 2 ^ w else ((x % 2 ^ w : Nat) : Int) := by
  have double : 2 ^ w = 2 * 2 ^ (w - 1) := by rw [← Nat.pow_succ', Nat.succ_eq_add_one, Nat.sub_add_cancel hw]
  rw [BitVec.toInt_eq_toNat_cond, BitVec.toNat_ofNat]
  by_cases h : 2 ^ (w - 1) ≤ x % 2 ^ w
  · rw [if_pos h, if_neg (by omega)]
    exact congrArg (((x % 2 ^ w : Nat) : Int) - ·) (Int.natCast_pow 2 w)
  · rw [if_neg h, if_pos (by omega)]

theorem dotInt_signed {w : Nat} (hw : 0 < w) (n : Nat) (A B D : Word32) :
    dotInt true n w A B D = BitVec.ofInt 32 (D.toInt + (List.range n).foldl (fun acc i =>
      acc + (BitVec.ofNat w (A.toNat / 2 ^ (w * i))).toInt * (BitVec.ofNat w (B.toNat / 2 ^ (w * i))).toInt) 0) := by
  simp [dotInt, toInt_ofNat_eq_ite hw]

/-- The addend may be read as signed, as the model does, or as unsigned (R143): the wrap is the same. -/
theorem dotInt_unsigned (n w : Nat) (A B D : Word32) :
    dotInt false n w A B D = BitVec.ofInt 32 (D.toNat + (List.range n).foldl (fun acc i =>
      acc + ((BitVec.ofNat w (A.toNat / 2 ^ (w * i))).toNat : Int) * ((BitVec.ofNat w (B.toNat / 2 ^ (w * i))).toNat : Int)) 0) := by
  simp [dotInt, BitVec.ofInt_add]

/-! ### Lane forms, each with the value of its word function -/

section
variable {i : Instr} {g : PReg} {d a b : VReg}

theorem LaneResult.of_laneInt {f f' : Str → Nat → Word32} {tag : Str → Nat → Tag} (h : ∀ s, exec i s = s.laneInt g d f tag)
    (e : ∀ t l, f t l = f' t l) : LaneResult i g d f' := (laneInt_result i g d f tag h).congr e

theorem LaneResult.of_lane1 {f f' : Word32 → Word32} (h : ∀ s, exec i s = s.lane1 g d a f) (e : ∀ A, f A = f' A) :
    LaneResult i g d (from1 a f') := (lane1_result h).congr fun _ _ => e _

theorem LaneResult.of_lane2 {f f' : Word32 → Word32 → Word32} (h : ∀ s, exec i s = s.lane2 g d a b f) (e : ∀ A B, f A B = f' A B) :
    LaneResult i g d (from2 a b f') := (lane2_result h).congr fun _ _ => e _ _

theorem LaneResult.of_lane3 {f f' : Word32 → Word32 → Word32 → Word32} (h : ∀ s, exec i s = s.lane3 g d a b f)
    (e : ∀ A B D, f A B D = f' A B D) : LaneResult i g d (from3 a b d f') := (lane3_result h).congr fun _ _ => e _ _ _

theorem LaneResult.of_shuffle {src : Str → Nat → Nat} {f : Str → Nat → Word32} (h : ∀ s, exec i s = s.shuffle g d a src)
    (e : ∀ t l, readV t a.toNat (srcLane t (src t l)) = f t l) : LaneResult i g d f := .of_laneInt h e

/-! The forms with flags take the string's rounding mode, which a value may leave aside: `e` compares whole results. -/

theorem FpResult.of_fp1 {f : RMode → Nat → FRes} {val : Str → Nat → FRes} (h : ∀ s, exec i s = s.fp1 g d a f)
    (e : ∀ t l, f (modeIn t) (readV t a.toNat l).toNat = val t l) : FpResult i g d val := (fp1_result h).congr e

theorem FpResult.of_fp2 {f : RMode → Nat → Nat → FRes} {val : Str → Nat → FRes} (h : ∀ s, exec i s = s.fp2 g d a b f)
    (e : ∀ t l, f (modeIn t) (readV t a.toNat l).toNat (readV t b.toNat l).toNat = val t l) : FpResult i g d val :=
  (fp2_result h).congr e

theorem FpResult.of_fp3 {f : RMode → Nat → Nat → Nat → FRes} {val : Str → Nat → FRes} (h : ∀ s, exec i s = s.fp3 g d a b f)
    (e : ∀ t l, f (modeIn t) (readV t a.toNat l).toNat (readV t b.toNat l).toNat (readV t d.toNat l).toNat = val t l) :
    FpResult i g d val := (fp3_result h).congr e

end

theorem BunLaneResult.congr {i : Instr} {g : PReg} {d : VReg} {val val' : Bun → Nat → Word32} (h : BunLaneResult i g d val)
    (e : ∀ bu l, val bu l = val' bu l) : BunLaneResult i g d val' := by
  obtain rfl : val = val' := funext fun bu => funext (e bu)
  exact h

/-! ### The block narrowing (R111, R141) -/

/-- The state once the flags `fl` are collected, in the string `t` that heads the run list and in the bundle (R246). -/
def State.collect (s : State) (t : Str) (ts : List Str) (fl : Flags) : State :=
  { s with strs := { t with stat := orFlags t.stat fl } :: ts, bun := s.bun.map (fun (b : Bun) => { b with flags := b.flags ||| fl }) }

theorem withFlags_of_untrapped {s : State} {t : Str} {ts : List Str} (hs : s.strs = t :: ts) {bu : Bun} {fls : List (Nat × Flags)}
    (untrapped : fpTraps bu.lat (orAll fls) = 0#5) (k : State → State) :
    s.withFlags t bu fls k = k (s.collect t ts (orAll fls)) := by
  rw [State.withFlags, untrapped, setFlags_spec s t ts hs]
  exact if_neg (by simp)

/-- Lanes of v[d] and then of v[d+1]: the second write leaves v[d] as it is. -/
theorem writeLanes_pair_spec {s : State} {t : Str} {ts : List Str} (hs : s.strs = t :: ts) (bu : Bun) (g : PReg) (d : Nat)
    (f f' : Nat → Word32) (tag tag' : Nat → Tag) :
    ∃ t', (s.writeLanes bu g d (lanesOf (activeMask bu g)) f tag).writeLanes bu g (d + 1) (lanesOf (activeMask bu g)) f' tag' =
        { s with strs := t' :: ts } ∧
      (∀ l, activeLane bu g l → readV t' d l = f l) ∧
      (∀ l, activeLane bu g l → readV t' (d + 1) l = f' l) ∧
      (∀ r l, l < 32 → ¬((r = d ∨ r = d + 1) ∧ activeLane bu g l) → readV t' r l = readV t r l) ∧
      t' = { t with v := t'.v, vtag := t'.vtag, undo := t'.undo } := by
  obtain ⟨t₁, e₁, w₁⟩ := writeLanes_spec s t ts hs bu g d f tag
  obtain ⟨t₂, e₂, w₂⟩ := writeLanes_spec { s with strs := t₁ :: ts } t₁ ts rfl bu g (d + 1) f' tag'
  refine ⟨t₂, by rw [e₁, e₂], fun l hl => ?first, w₂.new, fun r l hl other => ?old, ?rest⟩
  case first => rw [w₂.old d l hl.1 (by omega), w₁.new l hl]
  case old =>
    rw [w₂.old r l hl fun written => other ⟨.inr written.1, written.2⟩, w₁.old r l hl fun written => other ⟨.inl written.1, written.2⟩]
  case rest => exact w₂.rest.trans (congrArg (fun u : Str => { u with v := t₂.v, vtag := t₂.vtag, undo := t₂.undo }) w₁.rest)

/-- The block of a lane, as `State.narrow` takes it: each of the two groups is narrowed once. -/
def laneBlock (bu : Bun) (g : PReg) (a : VReg) (nb8 fb : Bool) (l : Nat) : Block :=
  if l < 16 then groupBlock bu.lat (activeMask bu g) a.toNat 0 nb8 fb else groupBlock bu.lat (activeMask bu g) a.toNat 16 nb8 fb

/-- The tag of a narrowed lane: its sources are the active lanes of its group (R290). -/
def narrowTag (bu : Bun) (g : PReg) (a : VReg) (l : Nat) : Tag :=
  joinTags (((lanesOf (activeMask bu g)).filter (fun k => k / 16 == l / 16)).map (fun k => tagV bu.lat a.toNat k))

theorem State.narrow_eq (s : State) (g : PReg) (d a : VReg) (nb8 fb : Bool) :
    s.narrow g d a nb8 fb = s.onHead (fun t bu =>
      s.withFlags t bu ((lanesOf (activeMask bu g)).map (fun l => (l, (laneBlock bu g a nb8 fb l).fl))) (fun s =>
        (s.writeLanes bu g d.toNat (lanesOf (activeMask bu g))
          (fun l => BitVec.ofInt 32 ((laneBlock bu g a nb8 fb l).q.getD (l % 16) 0)) (narrowTag bu g a)).writeLanes
            bu g (d.toNat + 1) (lanesOf (activeMask bu g))
            (fun l => BitVec.ofNat 32 ((laneBlock bu g a nb8 fb l).x + 256 * (laneBlock bu g a nb8 fb l).micro)) (narrowTag bu g a))) := rfl

theorem laneBlock_eq_groupBlock (bu : Bun) (g : PReg) (a : VReg) (nb8 fb : Bool) {l : Nat} (hl : l < 32) :
    laneBlock bu g a nb8 fb l = groupBlock bu.lat (activeMask bu g) a.toNat (16 * (l / 16)) nb8 fb := by
  unfold laneBlock
  split
  case isTrue => rw [show l / 16 = 0 by omega]
  case isFalse => rw [show l / 16 = 1 by omega]

theorem orAll_laneBlock (bu : Bun) (g : PReg) (a : VReg) (nb8 fb : Bool) :
    orAll ((lanesOf (activeMask bu g)).map (fun l => (l, (laneBlock bu g a nb8 fb l).fl))) =
      laneFlags bu g (fun _ l => (groupBlock bu.lat (activeMask bu g) a.toNat (16 * (l / 16)) nb8 fb).fl) := by
  refine congrArg orAll (List.map_congr_left fun l hl => ?_)
  rw [laneBlock_eq_groupBlock bu g a nb8 fb ((mem_active bu g l).1 hl).1]

/-- A narrowing instruction: its flags are collected, then the element and the scale word are written. -/
theorem narrow_result {i : Instr} {g : PReg} {d a : VReg} {nb8 fb : Bool} (h : ∀ s, exec i s = s.narrow g d a nb8 fb) :
    NarrowResult i g d a nb8 fb := by
  intro s t ts hs bu blk fl untrapped
  have hfl := orAll_laneBlock bu g a nb8 fb
  have hblk : ∀ l, activeLane bu g l → laneBlock bu g a nb8 fb l = blk l := fun l hl => laneBlock_eq_groupBlock bu g a nb8 fb hl.1
  obtain ⟨t', writes, element, scale, old, rest⟩ := writeLanes_pair_spec (s := s.collect t ts fl) rfl bu g d.toNat
    (fun l => BitVec.ofInt 32 ((laneBlock bu g a nb8 fb l).q.getD (l % 16) 0))
    (fun l => BitVec.ofNat 32 ((laneBlock bu g a nb8 fb l).x + 256 * (laneBlock bu g a nb8 fb l).micro)) (narrowTag bu g a) (narrowTag bu g a)
  refine ⟨t', ?completes, fun l hl => ?_, fun l hl => ?_, old, rest, byteAt_strs _ _⟩
  case completes => rw [h, State.narrow_eq, onHead_cons s t ts hs, withFlags_of_untrapped hs (hfl ▸ untrapped), hfl, writes]; rfl
  · rw [element l hl, hblk l hl]
  · rw [scale l hl, hblk l hl]

/-! ### The conversions by selector (R138 to R142) -/

theorem cvt_result {g : PReg} {d a : VReg} {sel : BitVec 6} {f : Str → Nat → FRes} {tag : Str → Nat → Tag}
    (h : ∀ s, execCvt g d a sel s = s.laneOp g d f tag) : FpResult (.cvt g d a sel) g d f :=
  laneOp_result _ g d f tag fun s => (exec_cvt g d a sel s).trans (h s)

theorem cvtSat_result {g : PReg} {d a : VReg} {sel : BitVec 6} {f : Str → Nat → FRes} {tag : Str → Nat → Tag}
    (h : ∀ s, execCvtSat g d a sel s = s.laneOp g d f tag) : FpResult (.cvtSat g d a sel) g d f :=
  laneOp_result _ g d f tag fun s => (exec_cvtSat g d a sel s).trans (h s)

theorem cvtPack_result {g : PReg} {d a : VReg} {sel : BitVec 6} {f : Str → Nat → FRes} {tag : Str → Nat → Tag}
    (h : ∀ s, execCvtPack g d a sel s = s.laneOp g d f tag) : FpResult (.cvtPack g d a sel) g d f :=
  laneOp_result _ g d f tag fun s => (exec_cvtPack g d a sel s).trans (h s)

/-! ### The obligations -/

/-- Settles O1: each instruction is a lane form of `Operands.lean`, and the value of its word function is a lemma above. -/
theorem integerLanes : Obligations.IntegerLanes := by
  unfold Obligations.IntegerLanes
  refine ⟨fun g d a b => ?major01, fun g d a b => ?major02⟩
  case major01 => exact
    ⟨.of_laneInt (exec_iadd g d a b) fun _ _ => BitVec.add_def ..,
     .of_laneInt (exec_isub g d a b) fun _ _ => sub_eq_ofInt ..,
     .of_lane2 (exec_imul g d a b) mul_eq_ofNat,
     lane2_result (exec_imulhI g d a b),
     lane2_result (exec_imulhN g d a b),
     .of_lane2 (exec_iminI g d a b) ite_toInt_le_eq_min,
     .of_lane2 (exec_imaxI g d a b) ite_toInt_le_eq_max,
     .of_lane2 (exec_iminN g d a b) ite_toNat_le_eq_min,
     .of_lane2 (exec_imaxN g d a b) ite_toNat_le_eq_max,
     lane2_result (exec_iand g d a b),
     lane2_result (exec_ior g d a b),
     lane2_result (exec_ixor g d a b),
     .of_lane2 (exec_ishl g d a b) shiftLeft_shCount,
     .of_lane2 (exec_ishr g d a b) ushiftRight_shCount,
     .of_lane2 (exec_isra g d a b) sshiftRight_shCount,
     .of_lane2 (exec_irot g d a b) fun A B => rotateLeft_eq_ofNat A (Nat.mod_lt B.toNat (by decide))⟩
  case major02 => exact
    ⟨.of_lane1 (exec_iabs g d a) fun A => BitVec.ofInt_natCast 32 A.toInt.natAbs,
     .of_lane1 (exec_ineg g d a) neg_eq_ofInt,
     .of_lane1 (exec_popc g d a) fun A => congrArg (BitVec.ofNat 32) (popCount_eq_countP A),
     lane1_result (exec_clz g d a),
     lane1_result (exec_ctz g d a),
     lane1_result (exec_brev g d a),
     .of_lane2 (exec_bfe g d a b) bfeOf_eq,
     lane3_result (exec_bfi g d a b),
     lane2_result (exec_iaddsI g d a b),
     lane2_result (exec_isubsI g d a b),
     .of_lane2 (exec_iaddsN g d a b) clamp32_add,
     .of_lane2 (exec_isubsN g d a b) clamp32_sub,
     .of_lane3 (exec_imad g d a b) mul_add_eq_ofNat,
     laneInt_result _ _ _ _ _ (exec_mov g d a)⟩

/-- Settles O2: the forms of O1 with an immediate; a sign extension is the wrap of the immediate's value by definition. -/
theorem immediatesAndConstants : Obligations.ImmediatesAndConstants := by
  unfold Obligations.ImmediatesAndConstants
  intro g d a e i k
  exact
    ⟨.of_laneInt (exec_iaddi g d a i) fun _ _ => add_signExtend_eq_ofInt ..,
     lane1_result (exec_iandi g d a i),
     lane1_result (exec_iori g d a i),
     lane1_result (exec_ixori g d a i),
     .of_lane1 (exec_imuli g d a i) fun A => mul_signExtend_eq_ofInt A i,
     fun _ => ⟨.of_lane1 (exec_ishli g d a i) fun A => shiftLeft_eq_ofNat A i.toNat,
       .of_lane1 (exec_ishri g d a i) fun A => ushiftRight_eq_ofNat A i.toNat,
       .of_lane1 (exec_israi g d a i) fun A => sshiftRight_eq_ofInt A i.toNat⟩,
     laneInt_result _ _ _ _ _ (exec_movk g d k),
     .of_laneInt (exec_movh g d k) fun _ _ => shiftLeft_add_zeroExtend ..,
     scalarOp_result _ _ _ (fun _ => .plan) (exec_movkS e k),
     ScalarResult.congr (scalarOp_result _ _ _ (fun _ => .plan) (exec_movhS e k)) fun _ => shiftLeft_add_zeroExtend ..⟩

/-- Settles O3: an integer compare sets no flag, a float compare those of `cmpNv`, and predicate logic reads its sources lane by lane. -/
theorem compares : Obligations.Compares := by
  unfold Obligations.Compares
  refine ⟨fun g p a b x y => ?_, fun g p a b => ?_⟩
  · exact
      ⟨intCmp_result (exec_ceq g p a b),
       intCmp_result (exec_cne g p a b),
       intCmp_result (exec_cltI g p a b),
       intCmp_result (exec_cleI g p a b),
       intCmp_result (exec_cltN g p a b),
       intCmp_result (exec_cleN g p a b),
       lanePred_result _ g p [x, y] (fun v => v.getD 0 false && v.getD 1 false) (exec_pand g p x y),
       lanePred_result _ g p [x, y] (fun v => v.getD 0 false || v.getD 1 false) (exec_por g p x y),
       lanePred_result _ g p [x, y] (fun v => v.getD 0 false != v.getD 1 false) (exec_pxor g p x y),
       lanePred_result _ g p [x] (fun v => !v.getD 0 false) (exec_pnot g p x),
       lanePred_result _ g p [x] (fun v => v.getD 0 false) (exec_pmov g p x)⟩
  · exact
      ⟨laneCmp_result _ g p a b (fun A B => !unordered A B && cmp32 A B == 0) (cmpNv true) (exec_fceq g p a b),
       laneCmp_result _ g p a b (fun A B => unordered A B || cmp32 A B != 0) (cmpNv true) (exec_fcne g p a b),
       laneCmp_result _ g p a b (fun A B => !unordered A B && cmp32 A B == -1) (cmpNv false) (exec_fclt g p a b),
       laneCmp_result _ g p a b (fun A B => !unordered A B && cmp32 A B != 1) (cmpNv false) (exec_fcle g p a b),
       laneCmp_result _ g p a b unordered (cmpNv true) (exec_fcun g p a b)⟩

/-- Settles O4: the FP32 forms as they stand; of a packed word, `half_eq` says which bits an element is. -/
theorem floatAndPackedArithmetic : Obligations.FloatAndPackedArithmetic := by
  unfold Obligations.FloatAndPackedArithmetic
  refine ⟨fun g d a b => ?fp32, ?packed⟩
  case fp32 => exact
    ⟨.of_fp2 (exec_fadd g d a b) fun _ _ => rfl,
     .of_fp2 (exec_fsub g d a b) fun _ _ => rfl,
     .of_fp2 (exec_fmul g d a b) fun _ _ => rfl,
     .of_fp3 (exec_ffma g d a b) fun _ _ => rfl,
     .of_fp2 (exec_fmin g d a b) fun _ _ => rfl,
     .of_fp2 (exec_fmax g d a b) fun _ _ => rfl,
     .of_fp1 (exec_ffloor g d a) fun _ _ => rfl,
     .of_fp1 (exec_fceil g d a) fun _ _ => rfl,
     .of_fp1 (exec_ftrunc g d a) fun _ _ => rfl,
     .of_fp1 (exec_fround g d a) fun _ _ => rfl,
     lane1_result (exec_fabs g d a),
     lane1_result (exec_fneg g d a),
     lane2_result (exec_fcopysign g d a b)⟩
  case packed =>
    intro g d a b hf f el pair
    have el_eq_half : el = fun e x => half e x.toNat := funext fun e => funext fun x => (half_eq e x.toNat).symm
    clear_value el
    subst el_eq_half
    exact
      ⟨.of_fp2 (exec_hadd2 g d a b hf) fun _ _ => rfl,
       .of_fp2 (exec_hsub2 g d a b hf) fun _ _ => rfl,
       .of_fp2 (exec_hmul2 g d a b hf) fun _ _ => rfl,
       .of_fp3 (exec_hfma2 g d a b hf) fun _ _ => rfl,
       .of_fp2 (exec_hmin2 g d a b hf) fun _ _ => rfl,
       .of_fp2 (exec_hmax2 g d a b hf) fun _ _ => rfl,
       .of_fp2 (exec_hcvt2 g d a b hf) fun _ _ => rfl⟩

/-- Settles O5: each selector code has its arm in the model; the codes 8 and 9 are the block narrowing. -/
theorem conversionsAndBlocks : Obligations.ConversionsAndBlocks := by
  unfold Obligations.ConversionsAndBlocks
  refine ⟨fun g d a sel => ?words, fun g d a sel hsel => ?blocks⟩
  case words =>
    intro m word toFp inf
    exact
      ⟨fun hc => ⟨cvt_result fun s => by rw [execCvt, hc]; rfl, cvtSat_result fun s => by rw [execCvtSat, hc]; rfl⟩,
       fun hc => ⟨cvt_result fun s => by rw [execCvt, hc]; rfl, cvtSat_result fun s => by rw [execCvtSat, hc]; rfl⟩,
       fun hc => .of_fp1 (f := fun _ A => fromInteger m (BitVec.ofNat 32 A).toInt) (fun s => by rw [exec_cvt, execCvt, hc]; rfl) fun _ _ =>
         congrArg (fun A : Word32 => fromInteger m A.toInt) (ofNat_toNat_self _),
       fun hc => cvt_result fun s => by rw [execCvt, hc]; rfl,
       fun hc => ⟨cvt_result fun s => by rw [execCvt, hc]; rfl, cvtSat_result fun s => by rw [execCvtSat, hc]; rfl⟩,
       fun hc => ⟨cvt_result fun s => by rw [execCvt, hc]; rfl, cvtSat_result fun s => by rw [execCvtSat, hc]; rfl⟩,
       fun hc => cvt_result fun s => by rw [execCvt, hc]; rfl,
       fun hc => cvt_result fun s => by rw [execCvt, hc]; rfl,
       fun hc => cvt_result fun s => by rw [execCvt, hc]; rfl,
       fun hc => cvt_result fun s => by rw [execCvt, hc]; rfl,
       fun pack => cvtPack_result fun s => by rw [execCvtPack, if_pos pack]; rfl,
       fun unpack fmt => cvtPack_result fun s => by rw [execCvtPack, if_neg (Nat.not_lt.mpr unpack), fmt]; rfl,
       fun unpack fmt => cvtPack_result fun s => by rw [execCvtPack, if_neg (Nat.not_lt.mpr unpack), fmt]; rfl,
       fun unpack fmt => cvtPack_result fun s => by rw [execCvtPack, if_neg (Nat.not_lt.mpr unpack), fmt]; rfl⟩
  case blocks =>
    refine ⟨?_, narrow_result (exec_cvtEf g d a sel)⟩
    rcases hsel with hc | hc <;> exact narrow_result fun s => by rw [exec_cvt, execCvt, hc]; rfl

/-- Settles O6: an integer dot product is the exact sum, wrapped; a shuffle reads the lane that it names; a vote counts active lanes. -/
theorem dotProductsShufflesVotes : Obligations.DotProductsShufflesVotes := by
  unfold Obligations.DotProductsShufflesVotes
  refine ⟨fun g d a b => ?_, fun g d a b k p q => ?_⟩
  · exact
      ⟨.of_lane3 (exec_dp4I8 g d a b) (dotInt_signed (by decide) 4),
       .of_lane3 (exec_dp4N8 g d a b) (dotInt_unsigned 4 8),
       .of_lane3 (exec_dp8I4 g d a b) (dotInt_signed (by decide) 8),
       .of_fp3 (exec_dp4E4m3 g d a b) fun _ _ => rfl,
       .of_fp3 (exec_dp4E5m2 g d a b) fun _ _ => rfl,
       .of_fp3 (exec_dp8E2m1 g d a b) fun _ _ => rfl,
       .of_fp2 (exec_fscl g d a b) fun t l => congrArg (fun B : Word32 => fScale (modeIn t) (readV t a.toNat l).toNat B.toInt)
         (ofNat_toNat_self ..)⟩
  · exact
      ⟨.of_laneInt (exec_shfl g d a b) fun _ _ => rfl,
       .of_shuffle (exec_shup g d a k) fun _ _ => rfl,
       .of_shuffle (exec_shdn g d a k) fun _ _ => rfl,
       .of_shuffle (exec_shx g d a k) fun _ _ => rfl,
       .of_shuffle (exec_bcast g d a k) fun _ _ => rfl,
       bunLane_result _ _ _ _ _ (exec_ballot g d p),
       BunLaneResult.congr (bunLane_result _ _ _ _ _ (exec_mpfx g d p)) fun bu l =>
         congrArg (BitVec.ofNat 32) (popCount_and_below (voteMask bu g p) l),
       bunPred_result _ _ _ _ _ (exec_vany g q p),
       bunPred_result _ _ _ _ _ (exec_vall g q p)⟩

end Sys2Proof.Machine
end
